-- ==== Sys2Proof/Word.lean ====
section
/-! DEFINITION. The word types of the Gaorush and the plain containers State is built from (spec 00, R1, R2). -/
namespace Sys2Proof

abbrev W1 := BitVec 1
abbrev W3 := BitVec 3
abbrev W4 := BitVec 4
abbrev W6 := BitVec 6
abbrev W8 := BitVec 8
abbrev W16 := BitVec 16
abbrev W32 := BitVec 32
abbrev W64 := BitVec 64
abbrev W96 := BitVec 96

/-- A register name of each file, as wide as the file is deep (R8, R175). -/
abbrev VReg := BitVec 8
abbrev SReg := BitVec 6
abbrev MReg := BitVec 4
abbrev TReg := BitVec 3
abbrev BReg := BitVec 4

/-- A value for each of the 32 lanes of a group (R9). -/
abbrev Lanes (n : Nat) := Vector (BitVec n) 32

/-- One vector register: 32 bits in each of 32 lanes (R175). -/
abbrev Vec := Lanes 32

/-- A sparse table; a key that is not listed has the table's default, which its reader names. -/
abbrev Tbl (α : Type) := List (Nat × α)

end Sys2Proof
end

