-- ==== Sys2Proof/Config.lean ====
section
/-! DEFINITION. What the manual leaves free or fixes by outside standards, as constants with no body, and the
manual's fixed numbers. -/
namespace Sys2Proof

/-- A value the spec leaves open, drawn with the counter `State.free` (log 5: DESIGN CHOICE). -/
opaque Config.freeWord : Nat → BitVec 64

/-- A choice the spec leaves open, drawn with the counter `State.free` (log 5: DESIGN CHOICE). -/
opaque Config.freeBit : Nat → Bool

/-- SHA-384 of a byte string (R96, R99): an outside standard, uninterpreted (log 6: DESIGN CHOICE). -/
opaque Config.sha384 : List (BitVec 8) → BitVec 384

/-- Whether both signatures of a pair (R96) over a byte string verify under a named key (log 6: DESIGN CHOICE). -/
opaque Config.pairVerifies : Nat → List (BitVec 8) → List (BitVec 8) → Bool

/-- Whether an ECDSA signature on P-384 over a SHA-384 digest verifies under a public key, and whether an HSS signature does (R96,
R332): outside standards, uninterpreted (log 6: DESIGN CHOICE). -/
opaque Config.ecdsaVerifies : List (BitVec 8) → BitVec 384 → List (BitVec 8) → Bool
opaque Config.hssVerifies : List (BitVec 8) → BitVec 384 → List (BitVec 8) → Bool

/-- The digest of the boot ROM (R99), and what the owner tokens, provisioning bundles and firmware images of R106 to R108 say:
their layouts are not given (log 6: DESIGN CHOICE). -/
opaque Config.bootRomDigest : BitVec 384
opaque Config.tokenCommand : List (BitVec 8) → Nat
opaque Config.tokenNonce : List (BitVec 8) → BitVec 64
opaque Config.tokenIdentity : List (BitVec 8) → Option Nat
opaque Config.imageVersion : List (BitVec 8) → BitVec 16

/-- Which of two greedy records wins when a MASS is a NaN: the spec orders numbers alone (R275, log 5: DESIGN CHOICE). -/
opaque Config.greedyNan : Nat → Nat → Bool

/-- The die-local physical address of the extent list of an object, by ASID × 2^20 + object (R206, log 97: DESIGN CHOICE). -/
opaque Config.extentList : Nat → BitVec 64

/-- The KIND, the coin key and the counter base that the source of a merge uses for a queue of another package, by PQID (R50,
R52, log 14: DESIGN CHOICE). -/
opaque Config.remoteKind : BitVec 32 → BitVec 3 × BitVec 64 × BitVec 64

/-- The device tenant of each package of the fabric, which the switches' management knows (R78, R103, log 5: DESIGN CHOICE). -/
opaque Config.deviceTenant : Nat → BitVec 6

/-- The Device and Vendor ID of PF0 as its configuration space holds them at offset 0, and the upper half of the first header word of
the capability of R130, its length and revision: the spec gives no number (log 5: DESIGN CHOICE). -/
opaque Config.pf0Id : BitVec 32
opaque Config.dvsecHeader : BitVec 16

/-- Where the vendor-specific capability of R130 starts in the configuration space of PF0: the spec does not say (log 5: DESIGN CHOICE). -/
opaque Config.dvsecBase : Nat

/-- Device clocks per microsecond at the operating points P0 to P3 (R15). -/
def Config.pointMHz : Nat → Nat
  | 0 => 940
  | 1 => 810
  | 2 => 640
  | _ => 470

def Config.numDies : Nat := 8
def Config.coresPerDie : Nat := 160
def Config.slotsPerCore : Nat := 16
def Config.portsPerDie : Nat := 16
def Config.queuesPerPort : Nat := 4096
def Config.sleepersPerPort : Nat := 4096
def Config.marverEntries : Nat := 1024
def Config.poolUnits : Nat := 8192
def Config.boundCount : Nat := 8192
def Config.drrQuantum : Nat := 1048576

end Sys2Proof
end

