-- ==== Sys2Proof/Syntax.lean ====
section
/-! DEFINITION. The syntax: one constructor of `Instr` for each row of spec/opcode_table.json. The instructions of
Unori version 1 carry the operand fields of their encodings (spec 13 to 19); the events of the device carry the
parties they name and what the outside world supplies. -/
namespace Sys2Proof

/-- Operand types (R303). -/
inductive Ty
  | i8 | i16 | i32 | i64 | n8 | n16 | n32 | n64 | b32 | b64 | f32 | bf16 | f16 | e4m3 | e5m2
  deriving DecidableEq, Repr

/-- Rounding modes (R254). -/
inductive Rm
  | rn | rz | ru | rd
  deriving DecidableEq, Repr

/-- Conditions 0x1 to 0x7 (R356, R379); `un` belongs to `vfcmp` alone. -/
inductive Cond
  | eq | ne | lt | le | gt | ge | un
  deriving DecidableEq, Repr

/-- Special registers 0x00 to 0x0B (R312). -/
inductive Spr
  | lane | quarter | group | block | core | die | pkg | clock | fflags | iflags | trap | safe
  deriving DecidableEq, Repr

/-- The operations of the atomics (R342). -/
inductive AtomOp
  | add | and | or | xor | min | max | exch | cas | fadd
  deriving DecidableEq, Repr

/-- The operations of `vscan` and `vred` (R386). -/
inductive XOper
  | add | min | max | and | or | xor
  deriving DecidableEq, Repr

/-- The switch marker and the guard of a lane-masked form (R301); a uniform form carries the marker alone. -/
structure Hdr where
  sw : Bool
  g : MReg
  deriving DecidableEq, Repr

/-! ### Scalar, mask and control forms (R350 to R371) -/

structure SBin where
  sw : Bool
  ty : Ty
  d : SReg
  a : SReg
  b : SReg
  deriving DecidableEq, Repr

structure SImm where
  sw : Bool
  ty : Ty
  d : SReg
  a : SReg
  imm : W32
  deriving DecidableEq, Repr

structure SUn where
  sw : Bool
  d : SReg
  a : SReg
  deriving DecidableEq, Repr

structure SSel where
  sw : Bool
  d : SReg
  a : SReg
  b : SReg
  c : SReg
  deriving DecidableEq, Repr

structure SSelImm where
  sw : Bool
  d : SReg
  a : SReg
  b : SReg
  imm : W32
  deriving DecidableEq, Repr

structure SCmp where
  sw : Bool
  ty : Ty
  cond : Cond
  d : SReg
  a : SReg
  b : SReg
  deriving DecidableEq, Repr

structure SCmpImm where
  sw : Bool
  ty : Ty
  cond : Cond
  d : SReg
  a : SReg
  imm : W32
  deriving DecidableEq, Repr

structure SLong where
  sw : Bool
  d : SReg
  imm : W64
  deriving DecidableEq, Repr

structure MBin where
  sw : Bool
  d : MReg
  a : MReg
  b : MReg
  deriving DecidableEq, Repr

structure MUn where
  sw : Bool
  d : MReg
  a : MReg
  deriving DecidableEq, Repr

structure MLong where
  sw : Bool
  d : MReg
  imm : W32
  deriving DecidableEq, Repr

structure MDst where
  sw : Bool
  d : MReg
  deriving DecidableEq, Repr

structure MSrc where
  sw : Bool
  a : MReg
  deriving DecidableEq, Repr

structure MToS where
  sw : Bool
  d : SReg
  a : MReg
  deriving DecidableEq, Repr

structure SToM where
  sw : Bool
  d : MReg
  a : SReg
  deriving DecidableEq, Repr

/-- `br`: no condition is the unconditional form (R356). -/
structure Br where
  sw : Bool
  cond : Option Cond
  a : SReg
  disp : BitVec 29
  tslot : W3
  deriving DecidableEq, Repr

structure BrM where
  sw : Bool
  a : MReg
  disp : BitVec 29
  tslot : W3
  deriving DecidableEq, Repr

structure Call where
  sw : Bool
  b : SReg
  disp : BitVec 29
  tslot : W3
  deriving DecidableEq, Repr

structure SSrc where
  sw : Bool
  a : SReg
  deriving DecidableEq, Repr

/-- `srd`: `d` names a vector register when the special register is per lane (R362). -/
structure Srd where
  sw : Bool
  spr : Spr
  idx : BitVec 5
  d : VReg
  deriving DecidableEq, Repr

structure Swr where
  sw : Bool
  spr : Spr
  a : VReg
  deriving DecidableEq, Repr

structure Safept where
  sw : Bool
  idx : W16
  deriving DecidableEq, Repr

structure Bar where
  sw : Bool
  k : W4
  c : BitVec 5
  deriving DecidableEq, Repr

structure TrapCode where
  sw : Bool
  code : W8
  deriving DecidableEq, Repr

/-! ### Vector forms (R372 to R394) -/

structure VBin where
  h : Hdr
  ty : Ty
  sat : Bool
  x2 : Bool
  d : VReg
  a : VReg
  b : VReg
  deriving DecidableEq, Repr

structure VImm where
  h : Hdr
  ty : Ty
  sat : Bool
  x2 : Bool
  d : VReg
  a : VReg
  imm : W32
  deriving DecidableEq, Repr

structure VTern where
  h : Hdr
  ty : Ty
  sat : Bool
  x2 : Bool
  d : VReg
  a : VReg
  b : VReg
  c : VReg
  deriving DecidableEq, Repr

structure VTernImm where
  h : Hdr
  ty : Ty
  sat : Bool
  x2 : Bool
  d : VReg
  a : VReg
  b : VReg
  imm : W32
  deriving DecidableEq, Repr

structure VUn where
  h : Hdr
  ty : Ty
  sat : Bool
  x2 : Bool
  d : VReg
  a : VReg
  deriving DecidableEq, Repr

structure VSel where
  h : Hdr
  x2 : Bool
  d : VReg
  a : VReg
  b : VReg
  m : MReg
  deriving DecidableEq, Repr

structure VCmp where
  h : Hdr
  ty : Ty
  cond : Cond
  d : MReg
  a : VReg
  b : VReg
  deriving DecidableEq, Repr

structure VCmpImm where
  h : Hdr
  ty : Ty
  cond : Cond
  d : MReg
  a : VReg
  imm : W32
  deriving DecidableEq, Repr

structure VMovS where
  h : Hdr
  d : VReg
  a : SReg
  deriving DecidableEq, Repr

structure VFBin where
  h : Hdr
  rm : Rm
  sat : Bool
  x2 : Bool
  d : VReg
  a : VReg
  b : VReg
  deriving DecidableEq, Repr

structure VFImm where
  h : Hdr
  rm : Rm
  sat : Bool
  x2 : Bool
  d : VReg
  a : VReg
  imm : W32
  deriving DecidableEq, Repr

structure VFTern where
  h : Hdr
  rm : Rm
  sat : Bool
  x2 : Bool
  d : VReg
  a : VReg
  b : VReg
  c : VReg
  deriving DecidableEq, Repr

structure VFTernImm where
  h : Hdr
  rm : Rm
  sat : Bool
  x2 : Bool
  d : VReg
  a : VReg
  b : VReg
  imm : W32
  deriving DecidableEq, Repr

structure Vcvt where
  h : Hdr
  dt : Ty
  st : Ty
  rm : Rm
  sat : Bool
  x2 : Bool
  d : VReg
  a : VReg
  deriving DecidableEq, Repr

structure VSfu where
  h : Hdr
  rm : Rm
  d : VReg
  a : VReg
  deriving DecidableEq, Repr

structure VSfu2 where
  h : Hdr
  rm : Rm
  d : VReg
  a : VReg
  b : VReg
  deriving DecidableEq, Repr

structure VPair where
  h : Hdr
  d : VReg
  a : VReg
  b : VReg
  deriving DecidableEq, Repr

structure VScan where
  h : Hdr
  ty : Ty
  rm : Rm
  op : XOper
  excl : Bool
  idn : Bool
  d : VReg
  a : VReg
  deriving DecidableEq, Repr

structure VRed where
  h : Hdr
  ty : Ty
  rm : Rm
  op : XOper
  idn : Bool
  d : VReg
  a : VReg
  deriving DecidableEq, Repr

structure VTopk where
  h : Hdr
  ty : Ty
  k : W6
  d : VReg
  a : VReg
  b : VReg
  deriving DecidableEq, Repr

structure VHist where
  h : Hdr
  sh : BitVec 5
  d : VReg
  a : VReg
  deriving DecidableEq, Repr

structure VDraw where
  h : Hdr
  d : VReg
  a : VReg
  b : SReg
  c : SReg
  deriving DecidableEq, Repr

structure DMerge where
  h : Hdr
  d : VReg
  a : VReg
  b : VReg
  c : SReg
  deriving DecidableEq, Repr

structure VSrc where
  h : Hdr
  a : VReg
  deriving DecidableEq, Repr

structure VSrc2 where
  h : Hdr
  a : VReg
  b : VReg
  deriving DecidableEq, Repr

structure VDst where
  h : Hdr
  d : VReg
  deriving DecidableEq, Repr

structure WRnd where
  h : Hdr
  bf : Bool
  rm : Rm
  sat : Bool
  d : VReg
  deriving DecidableEq, Repr

/-! ### Memory, engine and tile forms (R395 to R432) -/

/-- A lane-wise access: `nov` says that no offset register is used (R307). -/
structure Mem where
  h : Hdr
  ty : Ty
  d : VReg
  br : BReg
  vo : VReg
  nov : Bool
  imm : W32
  deriving DecidableEq, Repr

structure Scr where
  h : Hdr
  ty : Ty
  d : VReg
  vo : VReg
  nov : Bool
  imm : W32
  deriving DecidableEq, Repr

structure Atom where
  h : Hdr
  op : AtomOp
  ty : Ty
  nr : Bool
  d : VReg
  br : BReg
  vo : VReg
  nov : Bool
  d2 : VReg
  imm : W32
  deriving DecidableEq, Repr

structure ScrAtom where
  h : Hdr
  op : AtomOp
  ty : Ty
  nr : Bool
  d : VReg
  vo : VReg
  nov : Bool
  d2 : VReg
  imm : W32
  deriving DecidableEq, Repr

structure TMem where
  h : Hdr
  d : TReg
  br : BReg
  vo : VReg
  nov : Bool
  imm : W32
  deriving DecidableEq, Repr

structure Pref where
  h : Hdr
  br : BReg
  vo : VReg
  nov : Bool
  imm : W32
  deriving DecidableEq, Repr

structure BSet where
  sw : Bool
  b : BReg
  a : SReg
  deriving DecidableEq, Repr

structure Claim where
  h : Hdr
  d : SReg
  a : SReg
  b : SReg
  deriving DecidableEq, Repr

structure TCopy where
  h : Hdr
  tl : W3
  d : SReg
  qh : SReg
  deriving DecidableEq, Repr

structure TWait where
  h : Hdr
  tl : W3
  a : SReg
  deriving DecidableEq, Repr

structure TWaitImm where
  h : Hdr
  tl : W3
  imm : BitVec 7
  deriving DecidableEq, Repr

structure TLrd where
  h : Hdr
  tl : W3
  d : SReg
  deriving DecidableEq, Repr

structure TcSet where
  sw : Bool
  td : TReg
  sa : SReg
  deriving DecidableEq, Repr

structure TZero where
  h : Hdr
  td : TReg
  deriving DecidableEq, Repr

structure Tmma where
  h : Hdr
  tya : Ty
  tyb : Ty
  z : Bool
  qd : Bool
  td : TReg
  ta : TReg
  tb : TReg
  vs : VReg
  sa : SReg
  deriving DecidableEq, Repr

structure TmmaSparse where
  h : Hdr
  tya : Ty
  tyb : Ty
  z : Bool
  td : TReg
  ta : TReg
  tb : TReg
  vs : VReg
  sa : SReg
  sb : SReg
  deriving DecidableEq, Repr

structure TConv where
  h : Hdr
  rm : Rm
  sat : Bool
  td : TReg
  ta : TReg
  deriving DecidableEq, Repr

structure TDraw where
  h : Hdr
  td : TReg
  ta : TReg
  vs : VReg
  sa : SReg
  sb : SReg
  deriving DecidableEq, Repr

structure TMov where
  h : Hdr
  v : VReg
  t : TReg
  w : BitVec 5
  deriving DecidableEq, Repr

/-! ### Expert and queue forms (R433 to R460) -/

structure XLook where
  h : Hdr
  d : VReg
  v : VReg
  deriving DecidableEq, Repr

structure XPark where
  h : Hdr
  d : SReg
  v : VReg
  deriving DecidableEq, Repr

structure XOp where
  h : Hdr
  a : SReg
  b : SReg
  deriving DecidableEq, Repr

structure XOpD where
  h : Hdr
  d : SReg
  a : SReg
  b : SReg
  deriving DecidableEq, Repr

/-- `qres`: `n` is the immediate; with `reg` the count is in `a` (R439). -/
structure QRes where
  h : Hdr
  try_ : Bool
  d : SReg
  qh : SReg
  reg : Bool
  a : SReg
  n : BitVec 7
  deriving DecidableEq, Repr

structure QPut where
  h : Hdr
  d : SReg
  qh : SReg
  a : SReg
  v : VReg
  esz : W3
  reg : Bool
  b : SReg
  idx : W6
  deriving DecidableEq, Repr

structure QElem where
  h : Hdr
  try_ : Bool
  d : SReg
  qh : SReg
  v : VReg
  esz : W3
  deriving DecidableEq, Repr

structure QPeek where
  h : Hdr
  d : SReg
  qh : SReg
  v : VReg
  esz : W3
  deriving DecidableEq, Repr

structure QCount where
  h : Hdr
  d : SReg
  qh : SReg
  deriving DecidableEq, Repr

structure QAll where
  h : Hdr
  all : Bool
  d : SReg
  qh : SReg
  deriving DecidableEq, Repr

structure QRel where
  h : Hdr
  d : SReg
  qh : SReg
  a : SReg
  deriving DecidableEq, Repr

/-- The privileged release takes the plain and the merge form under one SUB (R459). -/
structure QSysRel where
  h : Hdr
  d : SReg
  qh : SReg
  a : SReg
  mrg : Bool
  deriving DecidableEq, Repr

structure QMerge where
  h : Hdr
  qh : SReg
  v : VReg
  esz : W3
  reg : Bool
  a : SReg
  key : W8
  deriving DecidableEq, Repr

structure QScatter where
  h : Hdr
  tl : W3
  d : SReg
  qh : SReg
  cont : Bool
  deriving DecidableEq, Repr

structure QCurRd where
  h : Hdr
  d : SReg
  w : BitVec 5
  deriving DecidableEq, Repr

structure QCurWr where
  h : Hdr
  a : SReg
  w : BitVec 5
  deriving DecidableEq, Repr

/-! ### Operands of the device's events -/

/-- A flow: source package and die, destination package and die (R66). -/
structure Flow where
  spkg : BitVec 9 := 0
  sdie : W3 := 0
  dpkg : BitVec 9 := 0
  ddie : W3 := 0
  deriving DecidableEq, Repr

/-- A node of a running graph: its address space, the graph header's address, and the node's place in its node array
(R109). -/
structure NodeRef where
  asid : BitVec 12 := 0
  graph : W64 := 0
  node : Nat := 0
  deriving DecidableEq, Repr

/-- The host's answer to a page request (R223). -/
inductive PageReply
  | success | invalid | failure
  deriving DecidableEq, Repr

/-- Where an uncorrectable error strikes (R225, R226). -/
inductive ErrorPlace
  | scratchpad | registers | dirtyLine | cleanLine | memory
  deriving DecidableEq, Repr

/-- The register spaces that software writes (R34, R88, R94, R130, R152). -/
inductive RegSpace
  | pf0 | bar0 | bar2 | bar4 | punty | dvsec
  deriving DecidableEq, Repr

/-- The operands of an event of the device: the parties it names and what the outside world supplies. An event reads
the fields that its row names and no other. -/
structure Args where
  die : W3 := 0
  core : W8 := 0
  slot : W4 := 0
  port : W4 := 0
  tenant : W6 := 0
  link : W6 := 0
  asid : BitVec 12 := 0
  pkg : BitVec 9 := 0
  flow : Flow := {}
  node : NodeRef := {}
  idx : Nat := 0
  off : Nat := 0
  addr : Nat := 0
  v : W64 := 0
  w : W64 := 0
  lanes : W32 := 0
  flag : Bool := false
  flag2 : Bool := false
  words : List W64 := []
  reply : PageReply := .success
  place : ErrorPlace := .memory
  space : RegSpace := .pf0
  digest : BitVec 384 := 0
  deriving DecidableEq, Repr

/-- One constructor for each row of spec/opcode_table.json: first the instructions of Unori version 1, then the events
of the device, whose operands are the fields of `Args` that the docstring names. -/
inductive Instr
  /-- NOP (R313): Does nothing; with S set, parks on the switch marker. -/
  | nop (sw : Bool)
  /-- SADD (R352): Scalar add. -/
  | sadd (o : SBin)
  /-- SADD_IMM (R340): Scalar add, immediate form. -/
  | saddImm (o : SImm)
  /-- SSUB (R352): Scalar subtract. -/
  | ssub (o : SBin)
  /-- SSUB_IMM (R340): Scalar subtract, immediate form. -/
  | ssubImm (o : SImm)
  /-- SMUL (R352): Scalar multiply. -/
  | smul (o : SBin)
  /-- SMUL_IMM (R340): Scalar multiply, immediate form. -/
  | smulImm (o : SImm)
  /-- SMULH (R352): Upper half of a scalar product. -/
  | smulh (o : SBin)
  /-- SMULH_IMM (R340): Upper half of a scalar product, immediate form. -/
  | smulhImm (o : SImm)
  /-- SDIV (R353): Scalar truncating division. -/
  | sdiv (o : SBin)
  /-- SDIV_IMM (R340): Scalar division, immediate form. -/
  | sdivImm (o : SImm)
  /-- SREM (R353): Scalar remainder. -/
  | srem (o : SBin)
  /-- SREM_IMM (R340): Scalar remainder, immediate form. -/
  | sremImm (o : SImm)
  /-- SMIN (R352): Scalar minimum. -/
  | smin (o : SBin)
  /-- SMIN_IMM (R340): Scalar minimum, immediate form. -/
  | sminImm (o : SImm)
  /-- SMAX (R352): Scalar maximum. -/
  | smax (o : SBin)
  /-- SMAX_IMM (R340): Scalar maximum, immediate form. -/
  | smaxImm (o : SImm)
  /-- SAND (R352): Scalar AND. -/
  | sand (o : SBin)
  /-- SAND_IMM (R340): Scalar AND, immediate form. -/
  | sandImm (o : SImm)
  /-- SOR (R352): Scalar OR. -/
  | sor (o : SBin)
  /-- SOR_IMM (R340): Scalar OR, immediate form. -/
  | sorImm (o : SImm)
  /-- SXOR (R352): Scalar XOR. -/
  | sxor (o : SBin)
  /-- SXOR_IMM (R340): Scalar XOR, immediate form. -/
  | sxorImm (o : SImm)
  /-- SSHL (R352): Scalar shift left. -/
  | sshl (o : SBin)
  /-- SSHL_IMM (R340): Scalar shift left, immediate form. -/
  | sshlImm (o : SImm)
  /-- SSHR (R352): Scalar logical shift right. -/
  | sshr (o : SBin)
  /-- SSHR_IMM (R340): Scalar logical shift right, immediate form. -/
  | sshrImm (o : SImm)
  /-- SSRA (R352): Scalar arithmetic shift right. -/
  | ssra (o : SBin)
  /-- SSRA_IMM (R340): Scalar arithmetic shift right, immediate form. -/
  | ssraImm (o : SImm)
  /-- SROTL (R352): Scalar rotate left. -/
  | srotl (o : SBin)
  /-- SROTL_IMM (R340): Scalar rotate left, immediate form. -/
  | srotlImm (o : SImm)
  /-- SCLZ (R352): Count of leading zeros. -/
  | sclz (o : SUn)
  /-- SPOPC (R352): Population count. -/
  | spopc (o : SUn)
  /-- SSEL (R352): Scalar select. -/
  | ssel (o : SSel)
  /-- SSEL_IMM (R340): Scalar select with an immediate third source. -/
  | sselImm (o : SSelImm)
  /-- SCMP (R356): Scalar compare writing 0 or 1. -/
  | scmp (o : SCmp)
  /-- SCMP_IMM (R340): Scalar compare, immediate form. -/
  | scmpImm (o : SCmpImm)
  /-- SMOV (R355): Scalar register copy. -/
  | smov (o : SUn)
  /-- SMOV_IMM64 (R339): Loads a 64-bit immediate, format 2. -/
  | smovImm64 (o : SLong)
  /-- SOFS (R354): Moves an address within its object's offset field. -/
  | sofs (o : SBin)
  /-- SOFS_IMM (R340): Offset add, immediate form. -/
  | sofsImm (o : SImm)
  /-- MAND (R358): Mask AND. -/
  | mand (o : MBin)
  /-- MOR (R358): Mask OR. -/
  | mor (o : MBin)
  /-- MXOR (R358): Mask XOR. -/
  | mxor (o : MBin)
  /-- MANDN (R358): Mask AND-NOT. -/
  | mandn (o : MBin)
  /-- MNOT (R358): Mask NOT. -/
  | mnot (o : MUn)
  /-- MMOV (R358): Mask copy. -/
  | mmov (o : MUn)
  /-- MMOV_IMM64 (R339): Loads a mask immediate, format 2. -/
  | mmovImm64 (o : MLong)
  /-- MRDEM (R358): Reads em into a mask. -/
  | mrdem (o : MDst)
  /-- MWREM (R359): Writes em from a mask. -/
  | mwrem (o : MSrc)
  /-- MPOPC (R358): Counts a mask's set bits. -/
  | mpopc (o : MToS)
  /-- MFFS (R358): Finds a mask's lowest set bit. -/
  | mffs (o : MToS)
  /-- MFROMS (R358): Mask from a scalar. -/
  | mfroms (o : SToM)
  /-- MTOS (R358): Scalar from a mask. -/
  | mtos (o : MToS)
  /-- BR (R361): Conditional or unconditional branch. -/
  | br (o : Br)
  /-- BRMZ (R361): Branches when a mask is zero. -/
  | brmz (o : BrM)
  /-- BRMNZ (R361): Branches when a mask is nonzero. -/
  | brmnz (o : BrM)
  /-- CALL (R361): Call with a link register. -/
  | call (o : Call)
  /-- RET (R361): Return to the pc in sA. -/
  | ret (o : SSrc)
  /-- JMP (R361): Indirect jump. -/
  | jmp (o : SSrc)
  /-- SRD (R362): Reads a special register or a trap frame word. -/
  | srd (o : Srd)
  /-- SWR (R362): Writes $fflags or $iflags. -/
  | swr (o : Swr)
  /-- SAFEPT (R366): Safe point: resets the bound count and is a stop while Draining. -/
  | safept (o : Safept)
  /-- EXIT (R367): Ends the group after its outstanding results return. -/
  | exit (sw : Bool)
  /-- SBWAIT (R365): Arrives at a named barrier and waits for its release. -/
  | sbwait (o : Bar)
  /-- SBMARK (R365): Arrives at a named barrier without waiting. -/
  | sbmark (o : Bar)
  /-- TRAP (R368): Raises SOFT with an immediate code. -/
  | trap (o : TrapCode)
  /-- TRET (R369): Returns from a handler to the frame's RPC. -/
  | tret (sw : Bool)
  /-- TRET_REG (R369): Returns from a handler to the pc in sA. -/
  | tretReg (o : SSrc)
  /-- BRK (R370): Breakpoint: raises BREAK or halts the die. -/
  | brk (sw : Bool)
  /-- VADD (R376): Vector integer add. -/
  | vadd (o : VBin)
  /-- VADD_IMM (R374): Vector integer add, immediate form. -/
  | vaddImm (o : VImm)
  /-- VSUB (R376): Vector integer subtract. -/
  | vsub (o : VBin)
  /-- VSUB_IMM (R374): Vector integer subtract, immediate form. -/
  | vsubImm (o : VImm)
  /-- VMUL (R376): Vector integer multiply. -/
  | vmul (o : VBin)
  /-- VMUL_IMM (R374): Vector integer multiply, immediate form. -/
  | vmulImm (o : VImm)
  /-- VMULH (R376): Upper half of a vector product. -/
  | vmulh (o : VBin)
  /-- VMULH_IMM (R374): Upper half of a vector product, immediate form. -/
  | vmulhImm (o : VImm)
  /-- VMAD (R376): Vector integer multiply-add. -/
  | vmad (o : VTern)
  /-- VMAD_IMM (R374): Vector integer multiply-add, immediate form. -/
  | vmadImm (o : VTernImm)
  /-- VDIV (R377): Vector integer division. -/
  | vdiv (o : VBin)
  /-- VDIV_IMM (R374): Vector integer division, immediate form. -/
  | vdivImm (o : VImm)
  /-- VREM (R377): Vector integer remainder. -/
  | vrem (o : VBin)
  /-- VREM_IMM (R374): Vector integer remainder, immediate form. -/
  | vremImm (o : VImm)
  /-- VMIN (R376): Vector integer minimum. -/
  | vmin (o : VBin)
  /-- VMIN_IMM (R374): Vector integer minimum, immediate form. -/
  | vminImm (o : VImm)
  /-- VMAX (R376): Vector integer maximum. -/
  | vmax (o : VBin)
  /-- VMAX_IMM (R374): Vector integer maximum, immediate form. -/
  | vmaxImm (o : VImm)
  /-- VABS (R376): Vector integer absolute value. -/
  | vabs (o : VUn)
  /-- VNEG (R376): Vector integer negation. -/
  | vneg (o : VUn)
  /-- VAND (R376): Vector AND. -/
  | vand (o : VBin)
  /-- VAND_IMM (R374): Vector AND, immediate form. -/
  | vandImm (o : VImm)
  /-- VOR (R376): Vector OR. -/
  | vor (o : VBin)
  /-- VOR_IMM (R374): Vector OR, immediate form. -/
  | vorImm (o : VImm)
  /-- VXOR (R376): Vector XOR. -/
  | vxor (o : VBin)
  /-- VXOR_IMM (R374): Vector XOR, immediate form. -/
  | vxorImm (o : VImm)
  /-- VNOT (R376): Vector NOT. -/
  | vnot (o : VUn)
  /-- VSHL (R376): Vector shift left. -/
  | vshl (o : VBin)
  /-- VSHL_IMM (R374): Vector shift left, immediate form. -/
  | vshlImm (o : VImm)
  /-- VSHR (R376): Vector logical shift right. -/
  | vshr (o : VBin)
  /-- VSHR_IMM (R374): Vector logical shift right, immediate form. -/
  | vshrImm (o : VImm)
  /-- VSRA (R376): Vector arithmetic shift right. -/
  | vsra (o : VBin)
  /-- VSRA_IMM (R374): Vector arithmetic shift right, immediate form. -/
  | vsraImm (o : VImm)
  /-- VCLZ (R376): Per-lane count of leading zeros. -/
  | vclz (o : VUn)
  /-- VPOPC (R376): Per-lane population count. -/
  | vpopc (o : VUn)
  /-- VSEL (R376): Per-lane select by a mask. -/
  | vsel (o : VSel)
  /-- VCMP (R378): Vector integer compare into a mask. -/
  | vcmp (o : VCmp)
  /-- VCMP_IMM (R374): Vector integer compare, immediate form. -/
  | vcmpImm (o : VCmpImm)
  /-- VMOV (R376): Vector copy. -/
  | vmov (o : VUn)
  /-- VMOVS (R376): Broadcasts a scalar's low word to active lanes. -/
  | vmovs (o : VMovS)
  /-- VFADD (R380): FP32 add. -/
  | vfadd (o : VFBin)
  /-- VFADD_IMM (R374): FP32 add, immediate form. -/
  | vfaddImm (o : VFImm)
  /-- VFSUB (R380): FP32 subtract. -/
  | vfsub (o : VFBin)
  /-- VFSUB_IMM (R374): FP32 subtract, immediate form. -/
  | vfsubImm (o : VFImm)
  /-- VFMUL (R380): FP32 multiply. -/
  | vfmul (o : VFBin)
  /-- VFMUL_IMM (R374): FP32 multiply, immediate form. -/
  | vfmulImm (o : VFImm)
  /-- VFFMA (R380): FP32 fused multiply-add. -/
  | vffma (o : VFTern)
  /-- VFFMA_IMM (R374): FP32 fused multiply-add, immediate form. -/
  | vffmaImm (o : VFTernImm)
  /-- VFMIN (R381): FP32 minimum. -/
  | vfmin (o : VFBin)
  /-- VFMIN_IMM (R374): FP32 minimum, immediate form. -/
  | vfminImm (o : VFImm)
  /-- VFMAX (R381): FP32 maximum. -/
  | vfmax (o : VFBin)
  /-- VFMAX_IMM (R374): FP32 maximum, immediate form. -/
  | vfmaxImm (o : VFImm)
  /-- VFABS (R381): FP32 absolute value. -/
  | vfabs (o : VUn)
  /-- VFNEG (R381): FP32 negation. -/
  | vfneg (o : VUn)
  /-- VFCMP (R379): FP32 compare into a mask. -/
  | vfcmp (o : VCmp)
  /-- VFCMP_IMM (R374): FP32 compare, immediate form. -/
  | vfcmpImm (o : VCmpImm)
  /-- VCVT (R382): Per-lane type conversion. -/
  | vcvt (o : Vcvt)
  /-- VEX2 (R383): EX2 per lane. -/
  | vex2 (o : VSfu)
  /-- VLG2 (R383): LG2 per lane. -/
  | vlg2 (o : VSfu)
  /-- VRCP (R383): Reciprocal per lane. -/
  | vrcp (o : VSfu)
  /-- VRSQ (R383): Reciprocal square root per lane. -/
  | vrsq (o : VSfu)
  /-- VSQRT (R383): Square root per lane. -/
  | vsqrt (o : VSfu)
  /-- VFDIV (R383): FP32 division. -/
  | vfdiv (o : VSfu2)
  /-- VPERM (R385): Lane permute. -/
  | vperm (o : VPair)
  /-- VBCAST (R385): Lane broadcast. -/
  | vbcast (o : VPair)
  /-- VSCAN (R386): Prefix scan across lanes. -/
  | vscan (o : VScan)
  /-- VRED (R386): Reduction across lanes. -/
  | vred (o : VRed)
  /-- VTOPK (R388): Sorts the top k keys and payloads. -/
  | vtopk (o : VTopk)
  /-- VHIST (R389): Histogram counting in place. -/
  | vhist (o : VHist)
  /-- VDRAW (R392): Forms one draw record from the lanes' logits. -/
  | vdraw (o : VDraw)
  /-- DMERGE (R393): Merges draw records pairwise. -/
  | dmerge (o : DMerge)
  /-- WCLR (R390): Clears wa. -/
  | wclr (h : Hdr)
  /-- WADD (R390): Adds FP32 lanes into wa exactly. -/
  | wadd (o : VSrc)
  /-- WDOT (R390): Adds BF16 products into wa exactly. -/
  | wdot (o : VSrc2)
  /-- WRND (R390): Rounds wa once to FP32 or BF16. -/
  | wrnd (o : WRnd)
  /-- WGET (R391): Writes the image of wa to a vector register. -/
  | wget (o : VDst)
  /-- WSET (R391): Loads wa from a vector image. -/
  | wset (o : VSrc)
  /-- VLD (R397): Lane-wise die-memory load. -/
  | vld (o : Mem)
  /-- VST (R398): Lane-wise die-memory store. -/
  | vst (o : Mem)
  /-- VATOM (R400): Lane-wise atomic at the memory point. -/
  | vatom (o : Atom)
  /-- VLDS (R397): Scratchpad load. -/
  | vlds (o : Scr)
  /-- VSTS (R398): Scratchpad store. -/
  | vsts (o : Scr)
  /-- VATOMS (R400): Scratchpad atomic. -/
  | vatoms (o : ScrAtom)
  /-- TLD (R402): Loads tile rows from memory. -/
  | tld (o : TMem)
  /-- TST (R402): Stores tile rows to memory. -/
  | tst (o : TMem)
  /-- VPREF_L1 (R403): Prefetches lines into the L1. -/
  | vprefL1 (o : Pref)
  /-- VPREF_LLC (R403): Prefetches lines into the LLC. -/
  | vprefLlc (o : Pref)
  /-- BSET (R210): Translates an address into a translation register. -/
  | bset (o : BSet)
  /-- PHASE_BLK (R238): Publish and refresh at block scope. -/
  | phaseBlk (h : Hdr)
  /-- PHASE_DIE (R238): Publish and refresh at die scope. -/
  | phaseDie (h : Hdr)
  /-- CLAIM (R406): Asks to re-home an object range to the caller's die. -/
  | claim (o : Claim)
  /-- TCOPY (R409): Starts a tensor-record copy on a timeline counter. -/
  | tcopy (o : TCopy)
  /-- TWAIT (R413): Waits for a timeline number held in a register, then refreshes. -/
  | twait (o : TWait)
  /-- TWAIT_IMM (R413): Waits for a timeline number relative to those issued, then refreshes. -/
  | twaitImm (o : TWaitImm)
  /-- TLRD (R414): Reads a timeline counter word. -/
  | tlrd (o : TLrd)
  /-- TCSET (R420): Writes a tile configuration word. -/
  | tcset (o : TcSet)
  /-- TZERO (R421): Zeros tile rows. -/
  | tzero (o : TZero)
  /-- TMMA (R425): Dense tile matrix multiply-accumulate per quarter. -/
  | tmma (o : Tmma)
  /-- TMMA_SPARSE (R429): Seeded-sparse tile matrix multiply. -/
  | tmmaSparse (o : TmmaSparse)
  /-- TCONV (R430): Converts a tile between formats. -/
  | tconv (o : TConv)
  /-- TDRAW (R432): Draws one index from each row of a logit tile. -/
  | tdraw (o : TDraw)
  /-- TMOV_TV (R422): Moves a tile word column to a vector register. -/
  | tmovTv (o : TMov)
  /-- TMOV_VT (R422): Moves a vector register to a tile word column. -/
  | tmovVt (o : TMov)
  /-- XLOOK (R434): ERT lookup without hold. -/
  | xlook (o : XLook)
  /-- XLOOK_HOLD (R139): ERT lookup that takes holds and starts fetches on a miss. -/
  | xlookHold (o : XLook)
  /-- XDROP (R435): Drops holds. -/
  | xdrop (o : VSrc)
  /-- XPARK (R436): Parks the token records of missing lanes in wait queues. -/
  | xpark (o : XPark)
  /-- XFETCH (R437): Prefetches an Absent expert. -/
  | xfetch (o : XOp)
  /-- XPIN (R144): Pins an expert. -/
  | xpin (o : XOpD)
  /-- XUNPIN (R144): Unpins an expert. -/
  | xunpin (o : XOp)
  /-- XSTAT (R437): Reads entry words 0x00 and 0x08. -/
  | xstat (o : XOpD)
  /-- QRES (R444): Reserves n slots of a queue. -/
  | qres (o : QRes)
  /-- QPUT (R445): Writes an element to a granted sequence number. -/
  | qput (o : QPut)
  /-- QPUSH (R446): Reserves and fills one slot. -/
  | qpush (o : QElem)
  /-- QGET (R449): Dequeues the head. -/
  | qget (o : QElem)
  /-- QPEEK (R449): Peeks at the head. -/
  | qpeek (o : QPeek)
  /-- QCOUNT (R450): Counts outstanding and dequeueable slots. -/
  | qcount (o : QCount)
  /-- QSLEEP (R451): Sleeps until the head is dequeueable. -/
  | qsleep (o : QAll)
  /-- QWAKE (R452): Wakes consumer sleepers. -/
  | qwake (o : QAll)
  /-- QREL (R447): Releases a ticket on a plain queue. -/
  | qrel (o : QRel)
  /-- QREL_MRG (R448): Merge release of the die's marver entries. -/
  | qrelMrg (o : QCount)
  /-- QFENCE (R453): Flushes every flow used since the previous qfence. -/
  | qfence (h : Hdr)
  /-- QMERGE (R448): Combines a contribution into a marver entry. -/
  | qmerge (o : QMerge)
  /-- QSCATTER (R455): Starts the dispatch engine on a descriptor. -/
  | qscatter (o : QScatter)
  /-- QCURRD (R457): Reads a dispatch cursor word. -/
  | qcurrd (o : QCurRd)
  /-- QCURWR (R457): Writes a dispatch cursor word. -/
  | qcurwr (o : QCurWr)
  /-- QSYS_RES (R459): Privileged qres by PQID. -/
  | qsysRes (o : QRes)
  /-- QSYS_PUT (R459): Privileged qput by PQID. -/
  | qsysPut (o : QPut)
  /-- QSYS_PUSH (R459): Privileged qpush by PQID. -/
  | qsysPush (o : QElem)
  /-- QSYS_GET (R459): Privileged qget by PQID. -/
  | qsysGet (o : QElem)
  /-- QSYS_PEEK (R459): Privileged qpeek by PQID. -/
  | qsysPeek (o : QPeek)
  /-- QSYS_COUNT (R459): Privileged qcount by PQID. -/
  | qsysCount (o : QCount)
  /-- QSYS_SLEEP (R459): Privileged qsleep by PQID. -/
  | qsysSleep (o : QAll)
  /-- QSYS_WAKE (R459): Privileged qwake by PQID. -/
  | qsysWake (o : QAll)
  /-- QSYS_REL (R459): Privileged qrel by PQID. -/
  | qsysRel (o : QSysRel)
  /-- QSYS_FENCE (R459): Privileged qfence. -/
  | qsysFence (h : Hdr)
  /-- QSYS_MERGE (R459): Privileged qmerge by PQID. -/
  | qsysMerge (o : QMerge)
  /-- RESET (R20): A reset starts the lehr, which runs its wake stages in order; the boot ROM checks the firmware image. -/
  | reset
  /-- LEHR_STAGE_A_END (R20): After 300 µs the interposer regulators, clocks and routers are up, and stage B begins. -/
  | lehrStageAEnd
  /-- SOCKET_BRING_UP (R20): A socket finishes its rail ramp, PLL lock and reset release, and the next present socket begins. -/
  | socketBringUp
  /-- STAGE_C_WIPE_END (R20): The wipe of HBM, LLC and SRAM ends, and stage D cluster wakes begin. -/
  | stageCWipeEnd
  /-- CLUSTER_WAKE (R22): The lehr serves one cluster wake request, at least 2 µs after the previous one. -/
  | clusterWake
  /-- CLUSTER_WAKE_REQUEST (R22): The punty core asks the lehr queue to wake a gated cluster. Operands: die, idx. -/
  | clusterWakeRequest
  /-- CLUSTER_GATE (R22): The punty core gates an idle cluster after bring-up. Operands: die, idx. -/
  | clusterGate
  /-- HOST_CONFIG_REQUEST (R21): A host configuration request is answered, with Configuration Request Retry Status until stage D ends. Operands: off. -/
  | hostConfigRequest
  /-- DIEVF_REQ_WRITE (R19): A write to REQ sets the highest point the punty permits; it takes effect when the power and thermal limits allow. Operands: die, v. -/
  | dievfReqWrite
  /-- POWER_STEP_DOWN (R23): Every 100 µs while the average power exceeds 2,600 W, the die with the highest core power drops one point. Operands: v, words. -/
  | powerStepDown
  /-- POWER_STEP_UP (R23): Every 1 ms while the average stays below 2,470 W, a die is raised one point, in reverse order. Operands: v. -/
  | powerStepUp
  /-- THERMAL_THROTTLE (R24): TEMP reaches 95 °C and the die drops to P3. Operands: die, v. -/
  | thermalThrottle
  /-- THERMAL_RECOVER (R24): TEMP falls below 90 °C and the die returns to its other limits. Operands: die, v. -/
  | thermalRecover
  /-- THERMAL_TRIP (R24): A passenger reaches 110 °C; the rails are cut, THERMREC is recorded, and the trip acts as an uncontrolled reset. Operands: idx. -/
  | thermalTrip
  /-- THERMREC_WRITE (R88): A PF0 write of any value clears THERMREC. -/
  | thermrecWrite
  /-- HOME_FAILURE (R12): A member of a home fails, and its compute die goes offline. Operands: idx. -/
  | homeFailure
  /-- OBJECT_EVACUATE (R227): One object of an offline die finishes moving to another die or to the far tier, or is marked Lost. Operands: die. -/
  | objectEvacuate
  /-- QTT_SHOOTDOWN (R30): A queue translation shootdown completes once no operation translated through the old entry remains unissued. Operands: die, asid, idx. -/
  | qttShootdown
  /-- QUEUE_CREATE (R55): QPCMD CREATE checks the descriptor and makes a Free queue Active. Operands: die, port. -/
  | queueCreate
  /-- QUEUE_CLOSE (R55): QPCMD CLOSE moves an Active queue to Closing and wakes its reservers with CLOSED. Operands: die, port. -/
  | queueClose
  /-- QUEUE_DESTROY (R55): QPCMD DESTROY frees a drained Closing queue. Operands: die, port. -/
  | queueDestroy
  /-- QUEUE_FORCE (R55): QPCMD FORCE voids the outstanding slots, wakes every sleeper with CLOSED and frees the queue. Operands: die, port. -/
  | queueForce
  /-- QUEUE_RESERVE (R37): A RESERVE arrives at the home port and is granted whole, refused as FULL or CLOSED, or slept. Operands: flow. -/
  | queueReserve
  /-- QUEUE_WRITE (R39): A WRITE arrives at the home and is stored, discarded or refused by the state of its sequence number. Operands: flow. -/
  | queueWrite
  /-- QUEUE_PUSH (R446): A PUSH reserves one slot and fills it in one operation at the home. Operands: flow. -/
  | queuePush
  /-- QUEUE_DEQUEUE (R42): A DEQUEUE takes the element at H, or returns EMPTY or PENDING, or sleeps the consumer. Operands: flow. -/
  | queueDequeue
  /-- QUEUE_PEEK (R42): A peek returns the head's status and element without advancing H. Operands: flow. -/
  | queuePeek
  /-- QUEUE_COUNT (R450): A count returns T − H and the run of Filled or Void sequence numbers from H. Operands: flow. -/
  | queueCount
  /-- QUEUE_SLEEP (R451): A SLEEP takes a consumer sleeper entry, or returns at once when the head is dequeueable. Operands: flow. -/
  | queueSleep
  /-- QUEUE_WAKE (R452): A qwake at the home wakes the oldest consumer sleeper, or all of them, and returns the number woken. Operands: flow. -/
  | queueWake
  /-- SLEEPER_WITHDRAW (R53): A withdrawal from a pre-empted dispatch engine releases, or reports the fate of, a reserver sleeper entry. Operands: flow. -/
  | sleeperWithdraw
  /-- QUEUE_RELEASE (R40): A release of a plain-queue ticket, after its flush, voids every slot of the ticket that is still Granted. Operands: flow. -/
  | queueRelease
  /-- MERGE_RELEASE (R51): A merge release combines its carried contributions into the accumulators and increments ROUND. Operands: flow. -/
  | mergeRelease
  /-- MARVER_EVICTION_ARRIVAL (R51): An evicted marver contribution arrives at the home and combines into the open round without counting a release. Operands: flow. -/
  | marverEvictionArrival
  /-- ROUND_CLOSE (R51): When ROUND reaches F and K slots are free, the home fills K sequence numbers with the accumulators and resets them. Operands: die, port, idx. -/
  | roundClose
  /-- SLEEPER_PARK_RETRY (R46): A group parked at its core for want of a sleeper entry reissues its operation every 1,024 cycles. Operands: die, core, slot. -/
  | sleeperParkRetry
  /-- REPLY_RECEIVE (R73): A REPLY reaches the requesting die and delivers the result of the request it answers. Operands: flow. -/
  | replyReceive
  /-- WAKE_RECEIVE (R73): A WAKE reaches the requesting die, which ends the sleep or reissues a blocking dequeue. Operands: flow. -/
  | wakeReceive
  /-- LINK_TRAINING (R61): A link completes training, and the first link to train sets PKGID. Operands: link, pkg, v, w. -/
  | linkTraining
  /-- FABCFG_WRITE (R61): A write to FABCFG sets ENABLE and the timeouts. Operands: v. -/
  | fabcfgWrite
  /-- MESSAGE_ADMIT (R75): A waiting message is admitted by its target package's token bucket and sent on the up path with the least backlog. Operands: die, pkg. -/
  | messageAdmit
  /-- SWITCH_FORWARD (R78): The last-hop switch checks a cell against its access table and forwards it, or refuses it with DENIED. Operands: link. -/
  | switchForward
  /-- FRAME_RECEIVE (R80): A link frame is received and authenticated under its key slot, and its cells go to the reorder buffer. Operands: link. -/
  | frameReceive
  /-- AUTH_FAIL_LINK_DOWN (R82): After 16 authentication failures within 1 ms, the link goes down. Operands: link. -/
  | authFailLinkDown
  /-- ACK_SEND (R68): The endpoint returns a cumulative ACK after 64 messages or 2 µs. Operands: flow. -/
  | ackSend
  /-- ACK_RECEIVE (R69): An ACK frees the acknowledged messages from the retransmit buffer. Operands: flow. -/
  | ackReceive
  /-- RETRANSMIT_TIMEOUT (R69): A message with no ACK within RTO is resent on another path. Operands: flow. -/
  | retransmitTimeout
  /-- FLUSH_ARRIVAL (R71): A flush marker arrives; once all markers are present and delivery reaches the marker's FSEQ, the waiting action runs and FLUSHACK returns. Operands: flow. -/
  | flushArrival
  /-- FLUSHACK_RECEIVE (R72): A FLUSHACK completes a flush, and the release or qfence waiting on it goes on. Operands: flow. -/
  | flushackReceive
  /-- FLUSH_RETRANSMIT (R71): A marker with no FLUSHACK within RTO is resent on another path. Operands: flow. -/
  | flushRetransmit
  /-- RATE_TICK (R75): Every 10 µs with no echo, the rate limiter gains 8 units. Operands: die, pkg. -/
  | rateTick
  /-- UNREACHABLE_DECLARE (R85): After UNREACH ms, a target package is declared unreachable and its operations fault with HOMELOST. Operands: die, pkg. -/
  | unreachableDeclare
  /-- FABUNR_WRITE (R85): Writing one to a package bit clears its unreachable state, resets the rate limiter and sends FLOWRESET requests. Operands: idx, v. -/
  | fabunrWrite
  /-- FLOWRESET_REQUEST (R85): The destination discards the undelivered messages of the pair's flows, resets FSEQ and answers. Operands: flow. -/
  | flowresetRequest
  /-- FLOWRESET_ANSWER (R85): The source receives the answer and restarts the flows at FSEQ 0. Operands: flow. -/
  | flowresetAnswer
  /-- FLOWRESET_RETRY (R85): A FLOWRESET request with no answer within RTO is resent. Operands: flow. -/
  | flowresetRetry
  /-- KEY_INSTALL (R81): The management firmware installs a key in a link slot and resets that slot's counter. Operands: link, flag, flag2, v. -/
  | keyInstall
  /-- KEY_SWITCH (R81): At a frame boundary, the transmitter starts using the new key slot. Operands: link. -/
  | keySwitch
  /-- KEY_RETIRE (R81): After 1,024 consecutive frames under the new slot, the old slot is retired. Operands: link. -/
  | keyRetire
  /-- FRAME_COUNTER_EXHAUST (R81): A frame counter reaching 2^48 takes the link down until a new key is installed. Operands: link. -/
  | frameCounterExhaust
  /-- LINK_FAILURE (R84): A link or switch fails, its paths leave the up set, and its messages are resent on other paths. Operands: link. -/
  | linkFailure
  /-- FLNK_DISABLE_WRITE (R83): A write to DISABLE holds the link disabled or releases it. Operands: link, flag. -/
  | flnkDisableWrite
  /-- ACCESS_TABLE_WRITE (R79): Fabric management writes a last-hop access table entry, which applies to cells that arrive afterwards. Operands: link, pkg, idx, v. -/
  | accessTableWrite
  /-- LOCK_INTERFACE (R89): The TDISP interface moves to CONFIG_LOCKED, and its tenant key is generated. Operands: tenant. -/
  | lockInterface
  /-- START_INTERFACE (R89): The TDISP interface enters RUN. Operands: tenant. -/
  | startInterface
  /-- STOP_INTERFACE (R93): The interface's tenant is killed and wiped, and the interface returns to CONFIG_UNLOCKED. Operands: tenant. -/
  | stopInterface
  /-- GET_INTERFACE_REPORT (R99): Returns the TDISP interface report with its bindings and image digest. Operands: tenant. -/
  | getInterfaceReport
  /-- TENANT_WIPE (R102): The tenant's memory is overwritten with zeros and its key is erased; on completion STOP_INTERFACE completes. Operands: tenant. -/
  | tenantWipe
  /-- BINDING_WRITE (R94): A write to APCFG, WINCFG or the MSI-X table binds while unlocked and moves a locked interface to ERROR. Operands: tenant, off, v. -/
  | bindingWrite
  /-- APERTURE_DOORBELL (R91): A write to offset 0xFF8 starts a .try push of the aperture's element image. Operands: tenant, idx, flag. -/
  | apertureDoorbell
  /-- APERTURE_STATUS (R91): The aperture push completes and its status is written to offset 0xFF0. Operands: tenant, idx. -/
  | apertureStatus
  /-- WINDOW_ACCESS (R90): A host read or write through a memory window performs at the object's home, or completes with Unsupported Request. Operands: tenant, off, flag, idx, v, words. -/
  | windowAccess
  /-- ASIDNEW (R95): Creates an ASID with its tables, launch queues and expert control queues. Operands: tenant. -/
  | asidnew
  /-- ASIDFREE (R95): Forces the ASID's queues, releases its objects and frees it. Operands: tenant. -/
  | asidfree
  /-- OBJNEW (R95): Creates an object and returns its address. Operands: tenant. -/
  | objnew
  /-- OBJFREE (R95): Shoots down an object's translations and releases it. Operands: tenant. -/
  | objfree
  /-- QNEW (R95): Creates a queue from a 48-byte entry and returns its handle. Operands: tenant. -/
  | qnew
  /-- QFREE (R95): Retires a queue's QTT entries and forces the queue. Operands: tenant. -/
  | qfree
  /-- HANDLES (R95): Returns the handles of a die's launch queue and expert control queue. Operands: tenant. -/
  | handles
  /-- GET_VERSION (R98): SPDM request returning the supported versions. -/
  | getVersion
  /-- GET_CAPABILITIES (R98): SPDM request returning the responder's capabilities. -/
  | getCapabilities
  /-- NEGOTIATE_ALGORITHMS (R98): SPDM request that selects SHA-384, P-384 and AES-256-GCM. Operands: v, w, idx. -/
  | negotiateAlgorithms
  /-- GET_DIGESTS (R98): SPDM request returning the certificate chain digests. -/
  | getDigests
  /-- GET_CERTIFICATE (R98): SPDM request returning the identity chain of slot 0. Operands: idx. -/
  | getCertificate
  /-- CHALLENGE (R98): SPDM challenge answered with a dual signature. Operands: idx, v. -/
  | challenge
  /-- GET_MEASUREMENTS (R99): Returns the measurement digests, dual-signed, or Busy once the LMS key is exhausted. Operands: idx, flag. -/
  | getMeasurements
  /-- KEY_EXCHANGE (R98): Opens an SPDM session by ECDHE; a ninth session is refused. Operands: idx. -/
  | keyExchange
  /-- FINISH (R98): SPDM FINISH completes session establishment. Operands: idx, flag. -/
  | finish
  /-- KEY_UPDATE (R98): Updates the session keys. Operands: idx. -/
  | keyUpdate
  /-- END_SESSION (R98): Ends an SPDM session. Operands: idx. -/
  | endSession
  /-- KEY_PROG (R100): Programs an IDE stream key inside an SPDM session. Operands: idx, tenant. -/
  | keyProg
  /-- PROVISION (R105): Blank to Provisioned under a Peleili bundle; identity keys are generated and the owner keys installed. -/
  | provision
  /-- DEPLOY (R105): Provisioned to Deployed under an owner token. -/
  | deploy
  /-- UNDEPLOY (R105): Deployed to Provisioned under an owner token, with LIVE = 0. -/
  | undeploy
  /-- RETURN (R105): Moves the module to Returned and erases the identity and owner keys. -/
  | returnModule
  /-- FWSTAGE (R108): Verifies a new firmware image from host memory and writes it to flash for the next reset. -/
  | fwstage
  /-- MB_RESET (R106): The management RESET command resets the module. -/
  | mbReset
  /-- DIEOFF (R106): Takes a compute die offline and completes once evacuation ends. -/
  | dieoff
  /-- MBNONCE_READ (R106): Each read of MBNONCE returns a fresh nonce and invalidates earlier tokens. -/
  | mbnonceRead
  /-- TIER_QUOTA_WRITE (R131): A write to QC, QN or the ERT range of the selected tenant takes effect or sets REFUSED. Operands: off, v. -/
  | tierQuotaWrite
  /-- ATS_INVALIDATION (R222): The host invalidates a translation; copies using it stop at a chunk boundary and translate again. Operands: asid, addr. -/
  | atsInvalidation
  /-- PAGE_RESPONSE (R223): A PRI response resumes the stopped copy, or fails it and possibly every copy of the PASID. Operands: die, idx, reply. -/
  | pageResponse
  /-- FAR_TIER_TIMEOUT (R129): A far-tier read with no completion within 100 ms becomes a tier error. Operands: die, idx. -/
  | farTierTimeout
  /-- FAR_TIER_LINK_DOWN (R129): A far-tier port's link goes down, and its outstanding reads become tier errors. Operands: port. -/
  | farTierLinkDown
  /-- START_ELEMENT_CONSUME (R110): The punty dequeues a start element from a launch queue and starts its graph. Operands: die, asid. -/
  | startElementConsume
  /-- BLOCK_CLAIM (R161): A die's punty claims the next block number from the coordinator, which grants or refuses it under the limits. Operands: die, node. -/
  | blockClaim
  /-- DRR_BIND (R162): When a core can take a block, the punty selects a region queue by priority and deficit round-robin, and binds a block. Operands: die, core. -/
  | drrBind
  /-- PREEMPT_DECISION (R163): A waiting higher-priority launch makes the punty pre-empt the chosen lower-priority victim. Operands: die, node. -/
  | preemptDecision
  /-- BIND_RECORD_WRITE (R155): Firmware writes a bind record into an Empty slot; once a block's slots are Ready, the hardware checks it. Operands: die, core, slot, words. -/
  | bindRecordWrite
  /-- PREEMPT (R164): CORECMD PREEMPT moves a block's slots to Draining. Operands: die, core, slot. -/
  | preempt
  /-- KILLBLK (R158): CORECMD KILLBLK empties a block's slots without a save and posts KILLED. Operands: die, core, slot. -/
  | killblk
  /-- KILLGRP (R158): CORECMD KILLGRP kills one group, voiding its grants and releasing its sleeper entries. Operands: die, core, slot. -/
  | killgrp
  /-- RESUMEGRP (R158): CORECMD RESUMEGRP returns a Faulted group to Running at its frame's RPC. Operands: die, core, slot. -/
  | resumegrp
  /-- DRAIN_COMPLETE (R165): Once every group has stopped and its results, copies and dispatches have settled, the block enters Saving. Operands: die, core, slot. -/
  | drainComplete
  /-- SAVE_COMPLETE (R157): A block's save finishes, its slots become Empty, and SAVED is posted. Operands: die, core, slot. -/
  | saveComplete
  /-- BLOCK_RETIRE (R157): A Retiring block whose stores, engine operations and queue operations have completed empties its slots and posts RETIRED. Operands: die, core, slot. -/
  | blockRetire
  /-- EVENT_RING_HEAD_WRITE (R159): The firmware advances HEAD, freeing space for held events. Operands: die, v. -/
  | eventRingHeadWrite
  /-- RETIRED_EVENT (R160): The punty charges a RETIRED or KILLED block's core-cycles to USED and to its queue's deficit. Operands: die. -/
  | retiredEvent
  /-- FAULT_EVENT (R287): The punty applies the FPOL in force to a FAULT event and writes a notification record. Operands: die. -/
  | faultEvent
  /-- WATCHDOG_EXPIRY (R123): WDOG ms after ready, the launch's blocks are killed and it completes with WATCHDOG. Operands: node. -/
  | watchdogExpiry
  /-- GANGSTART (R125): A member captures its copy of the gang node and replies ACK, or NACK. Operands: node, pkg. -/
  | gangstart
  /-- GANG_ACK (R125): The coordinator receives a member's ACK or NACK. Operands: node, pkg, flag. -/
  | gangAck
  /-- GANG_TIMEOUT (R125): The gang timer expires with an ACK missing, and GANGABORT is broadcast. Operands: node. -/
  | gangTimeout
  /-- GANG_DONE (R125): The coordinator receives a member's DONE with its local status. Operands: node, pkg, v. -/
  | gangDone
  /-- GANGABORT (R125): A member kills its gang blocks, or never starts them. Operands: node. -/
  | gangabort
  /-- GANG_FINAL_STATUS (R125): A member receives the final status and completes its node with it. Operands: node, v. -/
  | gangFinalStatus
  /-- REGISTER (R149): The expert control command that registers an ERT entry. Operands: die, asid. -/
  | register
  /-- UNREGISTER (R149): The expert control command that unregisters an entry. Operands: die, asid. -/
  | unregister
  /-- SPLIT (R149): The expert control command that makes an entry a split part and starts its fetch. Operands: die, asid. -/
  | split
  /-- UNSPLIT (R149): The expert control command that evicts a split part and clears its split fields. Operands: die, asid. -/
  | unsplit
  /-- EVICT (R149): The expert control command that evicts a Resident entry. Operands: die, asid. -/
  | evict
  /-- POOL (R149): The expert control command that defines a frame pool. Operands: die, asid. -/
  | pool
  /-- FETCH_FRAME_TAKE (R136): A started fetch is admitted and takes a free frame, or picks a victim to evict. Operands: die, idx. -/
  | fetchFrameTake
  /-- EVICTION_DONE (R137): A victim's LLC lines are invalidated; it becomes Absent and its frame is free. Operands: die, idx. -/
  | evictionDone
  /-- FETCH_LANDING (R142): A fetch ends, writing its landing record and making the entry Resident or Absent with FERR. Operands: die, idx. -/
  | fetchLanding
  /-- RESULT_RETURN (R185): A variable-latency result, or its fault, arrives at the group. Operands: die, core, slot, idx, lanes. -/
  | resultReturn
  /-- FAULT_RESOLVE (R218): The punty resolves a parked fault; the instruction replays its unfinished lanes, or traps. Operands: die. -/
  | faultResolve
  /-- TRANSLATION_SHOOTDOWN (R213): A shootdown invalidates an object's TLB entries and translation registers. Operands: asid, addr. -/
  | translationShootdown
  /-- CLAIM_SERVE (R221): The home die's punty moves a claimed range to the caller's die and re-homes the object. Operands: die. -/
  | claimServe
  /-- CLUSTER_FUSE (R204): A cluster is fused or unfused after its L1s publish and invalidate. Operands: die, idx, flag. -/
  | clusterFuse
  /-- COPY_COMPLETE (R411): A copy completes with success or failure, and its timeline counter advances. Operands: die, idx. -/
  | copyComplete
  /-- DISPATCH_COMPLETE (R455): A qscatter dispatch completes, or fails, and its counter advances. Operands: die, idx. -/
  | dispatchComplete
  /-- SCRUB (R224): The background scrub of all HBM runs once every 24 hours. Operands: die, v. -/
  | scrub
  /-- UNCORRECTABLE_ERROR (R226): An uncorrectable error in a block's scratchpad, dirty L1 line or registers kills the block, or relaunches it under IDEMP. Operands: die, core, slot, addr, place. -/
  | uncorrectableError
  /-- SAMPLE_EXPIRY (R197): An armed core's countdown expires, and it samples the next eligible slot. Operands: die, core. -/
  | sampleExpiry
  /-- SMPCFG_WRITE (R195): A write to SMPCFG sets the period and ring size or toggles ENABLE. Operands: tenant, v, flag. -/
  | smpcfgWrite
  /-- FDRBASE_WRITE (R288): A write to FDRBASE turns the fault-domain ring on or off. Operands: tenant, v, flag. -/
  | fdrbaseWrite
  /-- DBGCTL_HALT_WRITE (R294): A write to HALT halts or resumes a die, or is refused. Operands: tenant, v, flag. -/
  | dbgctlHaltWrite
  /-- IMGLOAD_WRITE (R333): A write to IMGLOAD starts an image load. Operands: tenant, v, flag. -/
  | imgloadWrite
  /-- IMAGE_LOAD (R334): An image load finishes its steps and ends with its status. Operands: tenant. -/
  | imageLoad
  /-- REGISTER_WRITE (R5): A write to a register that has no row of its own, including W1C counters. Operands: space, off, v, and
  as the space needs them die, tenant, flag (the T bit) and idx (the bytes written). -/
  | registerWrite
  /-- FRAME_ALIGNMENT_LOSS (R80): A link receiver loses frame alignment, and the link starts retraining, with each transmitter sending the current counters of both key slots in clear. Operands: link. -/
  | frameAlignmentLoss
  /-- FAR_TIER_LINK_UP (R129): A CXL or NVMe far-tier port's link comes up again, and reads on it stop failing at once as tier errors. Operands: port. -/
  | farTierLinkUp
  /-- TILE_INSTRUCTION_RETIRE (R187): An accepted tile or matrix instruction completes and retires, writing its tile, clearing its scoreboard entries and ORing its row flags into $fflags or $iflags. Operands: die, core, slot, idx. -/
  | tileInstructionRetire
  /-- COPY_CHUNK (R411): The copy engine writes the next 256-byte chunk of an outstanding copy, or stops at that chunk boundary on a page request, a replayable fault or a failure. Operands: die, idx. -/
  | copyChunk
  /-- PUBLISH_LINE_ACCEPT (R235): An LLC slice accepts the published bytes of one 128-byte line in one indivisible step, placing them in coherence order. Operands: die, core, addr. -/
  | publishLineAccept
  /-- ATOMIC_PERFORM (R240): A die-memory atomic arrives at its location's LLC slice and performs its read-modify-write there in one indivisible step. Operands: die, core, slot, idx, lanes. -/
  | atomicPerform
  deriving DecidableEq, Repr

end Sys2Proof
end

