-- ==== Sys2Proof/WellFormed.lean ====
section
/-! DEFINITION. Which terms of the syntax have an encoding: the type sets, immediate limits and register limits of
R302, R311, R338 to R346, R371, R394, R415, R416 and R439. A word that encodes no well-formed instruction is a
reserved encoding. -/
namespace Sys2Proof

/-- The set I of R335. -/
def Ty.isI : Ty → Bool
  | .i8 | .i16 | .i32 | .n8 | .n16 | .n32 => true
  | _ => false

/-- I or `.b64` (scalar arithmetic, R352). -/
def Ty.isI64 (t : Ty) : Bool := t.isI || t == .b64

/-- I or `.b32` (vector arithmetic, R338). -/
def Ty.isI32 (t : Ty) : Bool := t.isI || t == .b32

def Ty.isF8 : Ty → Bool
  | .e4m3 | .e5m2 => true
  | _ => false

def Ty.isFH : Ty → Bool
  | .bf16 | .f16 => true
  | _ => false

/-- The types `vcvt` converts between (R382). -/
def Ty.isCvt (t : Ty) : Bool := t.isI || t == .f32 || t.isFH || t.isF8

/-- The access types of loads and stores (R341). -/
def Ty.isMem (t : Ty) : Bool := t.isI || t == .b32 || t == .f32 || t.isFH || t.isF8

/-- The operations of a scan or a reduction that a type accepts, and its RM (R386, R394; log 7: DEDUCED). -/
def Ty.scanOk (t : Ty) (op : XOper) (rm : Rm) : Bool :=
  (t.isI && rm == .rn) || (t == .f32 && (op == .add || op == .min || op == .max))

/-- An immediate whose unused bits hold what R311 asks. -/
def immOk (t : Ty) (imm : W32) : Bool :=
  match t with
  | .i8 => imm == (imm.setWidth 8).signExtend 32
  | .i16 => imm == (imm.setWidth 16).signExtend 32
  | .n8 => imm == (imm.setWidth 8).setWidth 32
  | .n16 => imm == (imm.setWidth 16).setWidth 32
  | _ => true

/-- A register name below a limit. -/
def regOk {n : Nat} (lim : Nat) (r : BitVec n) : Bool := decide (r.toNat < lim)

/-- A branch target's slot (R302, R308). -/
def slotOk (t : W3) : Bool := decide (t.toNat ≤ 4)

/-- NOV set requires VO zero (R307). -/
def novOk (nov : Bool) (vo : VReg) : Bool := !nov || vo == 0

/-- ESZ 5 to 7 are reserved, and a 256-byte element needs vN + 1 (R439, R441). -/
def elemOk (esz : W3) (v : VReg) : Bool := decide (esz.toNat < 4) || (esz == 4 && regOk 255 v)

/-- A vector register of a two-register form names a pair (R373). -/
def pairOk (x2 : Bool) (v : VReg) : Bool := !x2 || regOk 255 v

def VBin.regsOk (o : VBin) : Bool := pairOk o.x2 o.d && pairOk o.x2 o.a && pairOk o.x2 o.b
def VImm.regsOk (o : VImm) : Bool := pairOk o.x2 o.d && pairOk o.x2 o.a
def VTern.regsOk (o : VTern) : Bool := pairOk o.x2 o.d && pairOk o.x2 o.a && pairOk o.x2 o.b && pairOk o.x2 o.c
def VTernImm.regsOk (o : VTernImm) : Bool := pairOk o.x2 o.d && pairOk o.x2 o.a && pairOk o.x2 o.b
def VUn.regsOk (o : VUn) : Bool := pairOk o.x2 o.d && pairOk o.x2 o.a
def VSel.regsOk (o : VSel) : Bool := pairOk o.x2 o.d && pairOk o.x2 o.a && pairOk o.x2 o.b
def VFBin.regsOk (o : VFBin) : Bool := pairOk o.x2 o.d && pairOk o.x2 o.a && pairOk o.x2 o.b
def VFImm.regsOk (o : VFImm) : Bool := pairOk o.x2 o.d && pairOk o.x2 o.a
def VFTern.regsOk (o : VFTern) : Bool := pairOk o.x2 o.d && pairOk o.x2 o.a && pairOk o.x2 o.b && pairOk o.x2 o.c
def VFTernImm.regsOk (o : VFTernImm) : Bool := pairOk o.x2 o.d && pairOk o.x2 o.a && pairOk o.x2 o.b
def Vcvt.regsOk (o : Vcvt) : Bool := pairOk o.x2 o.d && pairOk o.x2 o.a

/-- A special register that has a value for each lane (R178). -/
def Spr.perLane : Spr → Bool
  | .lane | .quarter | .fflags | .iflags => true
  | _ => false

/-- The types of each atomic (R342). -/
def AtomOp.tyOk (op : AtomOp) (t : Ty) : Bool :=
  match op with
  | .add | .min | .max => t == .i32 || t == .n32
  | .and | .or | .xor | .exch | .cas => t == .b32
  | .fadd => t == .f32

/-- The fields of a dense `tmma` (R416, R423). -/
def Tmma.wf (o : Tmma) : Bool :=
  (!o.qd || (o.tb == 0 && o.sa == 0)) &&
  (if o.tya.isF8 && o.tyb.isF8 then !o.qd || regOk 255 o.vs
   else ((o.tya == .bf16 && o.tyb == .bf16) || (o.tya == .i8 && o.tyb == .i8)) && o.sa == 0 && (o.qd || o.vs == 0))

/-- The instructions that have an encoding; an event of the device has no operands to check. -/
def Instr.wf : Instr → Bool
  | .reset => true
  | .lehrStageAEnd => true
  | .socketBringUp => true
  | .stageCWipeEnd => true
  | .clusterWake => true
  | .clusterWakeRequest => true
  | .clusterGate => true
  | .hostConfigRequest => true
  | .dievfReqWrite => true
  | .powerStepDown => true
  | .powerStepUp => true
  | .thermalThrottle => true
  | .thermalRecover => true
  | .thermalTrip => true
  | .thermrecWrite => true
  | .homeFailure => true
  | .objectEvacuate => true
  | .qttShootdown => true
  | .queueCreate => true
  | .queueClose => true
  | .queueDestroy => true
  | .queueForce => true
  | .queueReserve => true
  | .queueWrite => true
  | .queuePush => true
  | .queueDequeue => true
  | .queuePeek => true
  | .queueCount => true
  | .queueSleep => true
  | .queueWake => true
  | .sleeperWithdraw => true
  | .queueRelease => true
  | .mergeRelease => true
  | .marverEvictionArrival => true
  | .roundClose => true
  | .sleeperParkRetry => true
  | .replyReceive => true
  | .wakeReceive => true
  | .linkTraining => true
  | .fabcfgWrite => true
  | .messageAdmit => true
  | .switchForward => true
  | .frameReceive => true
  | .authFailLinkDown => true
  | .ackSend => true
  | .ackReceive => true
  | .retransmitTimeout => true
  | .flushArrival => true
  | .flushackReceive => true
  | .flushRetransmit => true
  | .rateTick => true
  | .unreachableDeclare => true
  | .fabunrWrite => true
  | .flowresetRequest => true
  | .flowresetAnswer => true
  | .flowresetRetry => true
  | .keyInstall => true
  | .keySwitch => true
  | .keyRetire => true
  | .frameCounterExhaust => true
  | .linkFailure => true
  | .flnkDisableWrite => true
  | .accessTableWrite => true
  | .lockInterface => true
  | .startInterface => true
  | .stopInterface => true
  | .getInterfaceReport => true
  | .tenantWipe => true
  | .bindingWrite => true
  | .apertureDoorbell => true
  | .apertureStatus => true
  | .windowAccess => true
  | .asidnew => true
  | .asidfree => true
  | .objnew => true
  | .objfree => true
  | .qnew => true
  | .qfree => true
  | .handles => true
  | .getVersion => true
  | .getCapabilities => true
  | .negotiateAlgorithms => true
  | .getDigests => true
  | .getCertificate => true
  | .challenge => true
  | .getMeasurements => true
  | .keyExchange => true
  | .finish => true
  | .keyUpdate => true
  | .endSession => true
  | .keyProg => true
  | .provision => true
  | .deploy => true
  | .undeploy => true
  | .returnModule => true
  | .fwstage => true
  | .mbReset => true
  | .dieoff => true
  | .mbnonceRead => true
  | .tierQuotaWrite => true
  | .atsInvalidation => true
  | .pageResponse => true
  | .farTierTimeout => true
  | .farTierLinkDown => true
  | .startElementConsume => true
  | .blockClaim => true
  | .drrBind => true
  | .preemptDecision => true
  | .bindRecordWrite => true
  | .preempt => true
  | .killblk => true
  | .killgrp => true
  | .resumegrp => true
  | .drainComplete => true
  | .saveComplete => true
  | .blockRetire => true
  | .eventRingHeadWrite => true
  | .retiredEvent => true
  | .faultEvent => true
  | .watchdogExpiry => true
  | .gangstart => true
  | .gangAck => true
  | .gangTimeout => true
  | .gangDone => true
  | .gangabort => true
  | .gangFinalStatus => true
  | .register => true
  | .unregister => true
  | .split => true
  | .unsplit => true
  | .evict => true
  | .pool => true
  | .fetchFrameTake => true
  | .evictionDone => true
  | .fetchLanding => true
  | .resultReturn => true
  | .faultResolve => true
  | .translationShootdown => true
  | .claimServe => true
  | .clusterFuse => true
  | .copyComplete => true
  | .dispatchComplete => true
  | .scrub => true
  | .uncorrectableError => true
  | .sampleExpiry => true
  | .smpcfgWrite => true
  | .fdrbaseWrite => true
  | .dbgctlHaltWrite => true
  | .imgloadWrite => true
  | .imageLoad => true
  | .registerWrite => true
  | .nop _ => true
  | .sadd o => o.ty.isI64
  | .saddImm o => o.ty.isI64 && immOk o.ty o.imm
  | .ssub o => o.ty.isI64
  | .ssubImm o => o.ty.isI64 && immOk o.ty o.imm
  | .smul o => o.ty.isI64
  | .smulImm o => o.ty.isI64 && immOk o.ty o.imm
  | .smulh o => o.ty.isI64
  | .smulhImm o => o.ty.isI64 && immOk o.ty o.imm
  | .sdiv o => o.ty.isI
  | .sdivImm o => o.ty.isI && immOk o.ty o.imm
  | .srem o => o.ty.isI
  | .sremImm o => o.ty.isI && immOk o.ty o.imm
  | .smin o => o.ty.isI
  | .sminImm o => o.ty.isI && immOk o.ty o.imm
  | .smax o => o.ty.isI
  | .smaxImm o => o.ty.isI && immOk o.ty o.imm
  | .sand o => o.ty == .b64
  | .sandImm o => o.ty == .b64
  | .sor o => o.ty == .b64
  | .sorImm o => o.ty == .b64
  | .sxor o => o.ty == .b64
  | .sxorImm o => o.ty == .b64
  | .sshl o => o.ty == .b64
  | .sshlImm o => o.ty == .b64 && decide (o.imm.toNat ≤ 63)
  | .sshr o => o.ty == .b64
  | .sshrImm o => o.ty == .b64 && decide (o.imm.toNat ≤ 63)
  | .ssra o => o.ty == .b64
  | .ssraImm o => o.ty == .b64 && decide (o.imm.toNat ≤ 63)
  | .srotl o => o.ty == .b64
  | .srotlImm o => o.ty == .b64 && decide (o.imm.toNat ≤ 63)
  | .sclz _ => true
  | .spopc _ => true
  | .ssel _ => true
  | .sselImm _ => true
  | .scmp o => o.ty.isI && o.cond != .un
  | .scmpImm o => o.ty.isI && o.cond != .un && immOk o.ty o.imm
  | .smov _ => true
  | .smovImm64 _ => true
  | .sofs o => o.ty.isI
  | .sofsImm o => o.ty.isI && immOk o.ty o.imm
  | .mand _ => true
  | .mor _ => true
  | .mxor _ => true
  | .mandn _ => true
  | .mnot _ => true
  | .mmov _ => true
  | .mmovImm64 _ => true
  | .mrdem _ => true
  | .mwrem _ => true
  | .mpopc _ => true
  | .mffs _ => true
  | .mfroms _ => true
  | .mtos _ => true
  | .br o => o.cond != some .un && (o.cond.isSome || o.a == 0) && slotOk o.tslot
  | .brmz o => slotOk o.tslot
  | .brmnz o => slotOk o.tslot
  | .call o => slotOk o.tslot
  | .ret _ => true
  | .jmp _ => true
  | .srd o => (o.spr.perLane || regOk 64 o.d) && (o.spr == .trap || o.idx == 0)
  | .swr o => o.spr.perLane || regOk 64 o.a
  | .safept _ => true
  | .exit _ => true
  | .sbwait _ => true
  | .sbmark _ => true
  | .trap _ => true
  | .tret _ => true
  | .tretReg _ => true
  | .brk _ => true
  | .vadd o => o.ty.isI32 && (!o.sat || o.ty.isI) && o.regsOk
  | .vaddImm o => o.ty.isI32 && (!o.sat || o.ty.isI) && o.regsOk && immOk o.ty o.imm
  | .vsub o => o.ty.isI32 && (!o.sat || o.ty.isI) && o.regsOk
  | .vsubImm o => o.ty.isI32 && (!o.sat || o.ty.isI) && o.regsOk && immOk o.ty o.imm
  | .vmul o => o.ty.isI32 && (!o.sat || o.ty.isI) && o.regsOk
  | .vmulImm o => o.ty.isI32 && (!o.sat || o.ty.isI) && o.regsOk && immOk o.ty o.imm
  | .vmulh o => o.ty.isI32 && !o.sat && o.regsOk
  | .vmulhImm o => o.ty.isI32 && !o.sat && o.regsOk && immOk o.ty o.imm
  | .vmad o => o.ty.isI && o.regsOk
  | .vmadImm o => o.ty.isI && o.regsOk && immOk o.ty o.imm
  | .vdiv o => o.ty.isI && !o.sat && o.regsOk
  | .vdivImm o => o.ty.isI && !o.sat && o.regsOk && immOk o.ty o.imm
  | .vrem o => o.ty.isI && !o.sat && o.regsOk
  | .vremImm o => o.ty.isI && !o.sat && o.regsOk && immOk o.ty o.imm
  | .vmin o => o.ty.isI && !o.sat && o.regsOk
  | .vminImm o => o.ty.isI && !o.sat && o.regsOk && immOk o.ty o.imm
  | .vmax o => o.ty.isI && !o.sat && o.regsOk
  | .vmaxImm o => o.ty.isI && !o.sat && o.regsOk && immOk o.ty o.imm
  | .vabs o => o.ty.isI && o.regsOk
  | .vneg o => o.ty.isI && o.regsOk
  | .vand o => o.ty == .b32 && !o.sat && o.regsOk
  | .vandImm o => o.ty == .b32 && !o.sat && o.regsOk
  | .vor o => o.ty == .b32 && !o.sat && o.regsOk
  | .vorImm o => o.ty == .b32 && !o.sat && o.regsOk
  | .vxor o => o.ty == .b32 && !o.sat && o.regsOk
  | .vxorImm o => o.ty == .b32 && !o.sat && o.regsOk
  | .vnot o => o.ty == .b32 && !o.sat && o.regsOk
  | .vshl o => o.ty.isI32 && !o.sat && o.regsOk
  | .vshlImm o => o.ty.isI32 && !o.sat && o.regsOk && decide (o.imm.toNat ≤ 31)
  | .vshr o => o.ty.isI32 && !o.sat && o.regsOk
  | .vshrImm o => o.ty.isI32 && !o.sat && o.regsOk && decide (o.imm.toNat ≤ 31)
  | .vsra o => o.ty.isI32 && !o.sat && o.regsOk
  | .vsraImm o => o.ty.isI32 && !o.sat && o.regsOk && decide (o.imm.toNat ≤ 31)
  | .vclz o => o.ty == .b32 && !o.sat && o.regsOk
  | .vpopc o => o.ty == .b32 && !o.sat && o.regsOk
  | .vsel o => o.regsOk
  | .vcmp o => o.ty.isI && o.cond != .un
  | .vcmpImm o => o.ty.isI && o.cond != .un && immOk o.ty o.imm
  | .vmov o => o.ty == .b32 && !o.sat && o.regsOk
  | .vmovs _ => true
  | .vfadd o => o.regsOk
  | .vfaddImm o => o.regsOk
  | .vfsub o => o.regsOk
  | .vfsubImm o => o.regsOk
  | .vfmul o => o.regsOk
  | .vfmulImm o => o.regsOk
  | .vffma o => o.regsOk
  | .vffmaImm o => o.regsOk
  | .vfmin o => o.rm == .rn && !o.sat && o.regsOk
  | .vfminImm o => o.rm == .rn && !o.sat && o.regsOk
  | .vfmax o => o.rm == .rn && !o.sat && o.regsOk
  | .vfmaxImm o => o.rm == .rn && !o.sat && o.regsOk
  | .vfabs o => o.ty == .f32 && !o.sat && o.regsOk
  | .vfneg o => o.ty == .f32 && !o.sat && o.regsOk
  | .vfcmp o => o.ty == .f32
  | .vfcmpImm o => o.ty == .f32
  | .vcvt o => o.dt.isCvt && o.st.isCvt && o.dt != o.st && o.regsOk
  | .vex2 _ => true
  | .vlg2 _ => true
  | .vrcp _ => true
  | .vrsq _ => true
  | .vsqrt _ => true
  | .vfdiv _ => true
  | .vperm _ => true
  | .vbcast _ => true
  | .vscan o => o.ty.scanOk o.op o.rm
  | .vred o => o.ty.scanOk o.op o.rm
  | .vtopk o => (o.ty.isI || o.ty == .f32) && decide (1 ≤ o.k.toNat) && decide (o.k.toNat ≤ 32) && regOk 255 o.d
  | .vhist _ => true
  | .vdraw o => regOk 63 o.b
  | .dmerge o => regOk 63 o.c
  | .wclr _ => true
  | .wadd _ => true
  | .wdot _ => true
  | .wrnd _ => true
  | .wget _ => true
  | .wset _ => true
  | .vld o => o.ty.isMem && novOk o.nov o.vo
  | .vst o => o.ty.isMem && novOk o.nov o.vo
  | .vatom o => o.op.tyOk o.ty && novOk o.nov o.vo && (!o.nr || (o.op != .cas && o.d2 == 0))
  | .vlds o => o.ty.isMem && novOk o.nov o.vo
  | .vsts o => o.ty.isMem && novOk o.nov o.vo
  | .vatoms o => o.op.tyOk o.ty && novOk o.nov o.vo && (!o.nr || (o.op != .cas && o.d2 == 0))
  | .tld o => novOk o.nov o.vo
  | .tst o => novOk o.nov o.vo
  | .vprefL1 o => novOk o.nov o.vo
  | .vprefLlc o => novOk o.nov o.vo
  | .bset _ => true
  | .phaseBlk _ => true
  | .phaseDie _ => true
  | .claim _ => true
  | .tcopy _ => true
  | .twait _ => true
  | .twaitImm _ => true
  | .tlrd _ => true
  | .tcset _ => true
  | .tzero _ => true
  | .tmma o => o.wf
  | .tmmaSparse o => o.tya.isF8 && o.tyb.isF8 && regOk 7 o.ta && regOk 255 o.vs && regOk 63 o.sa
  | .tconv _ => true
  | .tdraw o => regOk 63 o.sa
  | .tmovTv _ => true
  | .tmovVt _ => true
  | .xlook o => regOk 255 o.v
  | .xlookHold o => regOk 255 o.v
  | .xdrop o => regOk 255 o.a
  | .xpark o => regOk 251 o.v
  | .xfetch _ => true
  | .xpin _ => true
  | .xunpin _ => true
  | .xstat o => regOk 63 o.d
  | .qres o => regOk 63 o.d && (if o.reg then o.n == 0 else o.a == 0 && decide (o.n.toNat ≤ 64))
  | .qput o => elemOk o.esz o.v && (if o.reg then o.idx == 0 else o.b == 0)
  | .qpush o => elemOk o.esz o.v
  | .qget o => elemOk o.esz o.v
  | .qpeek o => elemOk o.esz o.v
  | .qcount _ => true
  | .qsleep _ => true
  | .qwake _ => true
  | .qrel _ => true
  | .qrelMrg _ => true
  | .qfence _ => true
  | .qmerge o => elemOk o.esz o.v && (if o.reg then o.key == 0 else o.a == 0)
  | .qscatter _ => true
  | .qcurrd o => decide (o.w.toNat ≤ 16)
  | .qcurwr o => decide (o.w.toNat ≤ 16)
  | .qsysRes o => regOk 63 o.d && (if o.reg then o.n == 0 else o.a == 0 && decide (o.n.toNat ≤ 64))
  | .qsysPut o => elemOk o.esz o.v && (if o.reg then o.idx == 0 else o.b == 0)
  | .qsysPush o => elemOk o.esz o.v
  | .qsysGet o => elemOk o.esz o.v
  | .qsysPeek o => elemOk o.esz o.v
  | .qsysCount _ => true
  | .qsysSleep _ => true
  | .qsysWake _ => true
  | .qsysRel o => !o.mrg || o.a == 0
  | .qsysFence _ => true
  | .qsysMerge o => elemOk o.esz o.v && (if o.reg then o.key == 0 else o.a == 0)
  | .frameAlignmentLoss => true
  | .farTierLinkUp => true
  | .tileInstructionRetire => true
  | .copyChunk => true
  | .publishLineAccept => true
  | .atomicPerform => true

end Sys2Proof
end

