-- ==== Sys2Proof/Decode.lean ====
section
/-! DEFINITION. The decoder and the encoder: the formats of R301 to R310, the opcode map of R337 to R347, and the
codes of the enumerated fields. -/
namespace Sys2Proof

/-- The fields of format 0 (R301, R304). -/
structure F0 where
  s : Bool := false
  g : MReg := 0
  op : W8 := 0
  d : BitVec 8 := 0
  a : BitVec 8 := 0
  b : BitVec 8 := 0
  c : BitVec 8 := 0
  sub : BitVec 8 := 0
  ty : BitVec 4 := 0
  rm : BitVec 2 := 0
  sat : Bool := false
  w2 : Bool := false
  mx : BitVec 8 := 0
  deriving DecidableEq, Repr

def F0.pack (r : F0) : W96 :=
  BitVec.ofBool r.s ++ r.g ++ 0#3 ++ r.op ++ r.d ++ r.a ++ r.b ++ r.c ++ r.sub ++ r.ty ++ r.rm ++ BitVec.ofBool r.sat ++ BitVec.ofBool r.w2 ++ r.mx ++ 0#24

def F0.unpack (w : W96) : F0 where
  s := w.getLsbD 95
  g := w.extractLsb' 91 4
  op := w.extractLsb' 80 8
  d := w.extractLsb' 72 8
  a := w.extractLsb' 64 8
  b := w.extractLsb' 56 8
  c := w.extractLsb' 48 8
  sub := w.extractLsb' 40 8
  ty := w.extractLsb' 36 4
  rm := w.extractLsb' 34 2
  sat := w.getLsbD 33
  w2 := w.getLsbD 32
  mx := w.extractLsb' 24 8

/-- The fields of format 1 (R301, R305). -/
structure F1 where
  s : Bool := false
  g : MReg := 0
  op : W8 := 0
  d : BitVec 8 := 0
  a : BitVec 8 := 0
  sub : BitVec 8 := 0
  ty : BitVec 4 := 0
  rm : BitVec 2 := 0
  sat : Bool := false
  w2 : Bool := false
  mx : BitVec 8 := 0
  b : BitVec 8 := 0
  imm : BitVec 32 := 0
  deriving DecidableEq, Repr

def F1.pack (r : F1) : W96 :=
  BitVec.ofBool r.s ++ r.g ++ 1#3 ++ r.op ++ r.d ++ r.a ++ r.sub ++ r.ty ++ r.rm ++ BitVec.ofBool r.sat ++ BitVec.ofBool r.w2 ++ r.mx ++ r.b ++ r.imm

def F1.unpack (w : W96) : F1 where
  s := w.getLsbD 95
  g := w.extractLsb' 91 4
  op := w.extractLsb' 80 8
  d := w.extractLsb' 72 8
  a := w.extractLsb' 64 8
  sub := w.extractLsb' 56 8
  ty := w.extractLsb' 52 4
  rm := w.extractLsb' 50 2
  sat := w.getLsbD 49
  w2 := w.getLsbD 48
  mx := w.extractLsb' 40 8
  b := w.extractLsb' 32 8
  imm := w.extractLsb' 0 32

/-- The fields of format 2 (R301, R306). -/
structure F2 where
  s : Bool := false
  g : MReg := 0
  op : W8 := 0
  d : BitVec 8 := 0
  sub : BitVec 8 := 0
  imm : BitVec 64 := 0
  deriving DecidableEq, Repr

def F2.pack (r : F2) : W96 :=
  BitVec.ofBool r.s ++ r.g ++ 2#3 ++ r.op ++ r.d ++ r.sub ++ r.imm

def F2.unpack (w : W96) : F2 where
  s := w.getLsbD 95
  g := w.extractLsb' 91 4
  op := w.extractLsb' 80 8
  d := w.extractLsb' 72 8
  sub := w.extractLsb' 64 8
  imm := w.extractLsb' 0 64

/-- The fields of format 3 (R301, R307). -/
structure F3 where
  s : Bool := false
  g : MReg := 0
  op : W8 := 0
  d : BitVec 8 := 0
  br : BitVec 8 := 0
  vo : BitVec 8 := 0
  sub : BitVec 8 := 0
  ty : BitVec 4 := 0
  nov : Bool := false
  d2 : BitVec 8 := 0
  imm : BitVec 32 := 0
  deriving DecidableEq, Repr

def F3.pack (r : F3) : W96 :=
  BitVec.ofBool r.s ++ r.g ++ 3#3 ++ r.op ++ r.d ++ r.br ++ r.vo ++ r.sub ++ r.ty ++ BitVec.ofBool r.nov ++ 0#3 ++ r.d2 ++ r.imm

def F3.unpack (w : W96) : F3 where
  s := w.getLsbD 95
  g := w.extractLsb' 91 4
  op := w.extractLsb' 80 8
  d := w.extractLsb' 72 8
  br := w.extractLsb' 64 8
  vo := w.extractLsb' 56 8
  sub := w.extractLsb' 48 8
  ty := w.extractLsb' 44 4
  nov := w.getLsbD 43
  d2 := w.extractLsb' 32 8
  imm := w.extractLsb' 0 32

/-- The fields of format 4 (R301, R308). -/
structure F4 where
  s : Bool := false
  g : MReg := 0
  op : W8 := 0
  a : BitVec 8 := 0
  b : BitVec 8 := 0
  sub : BitVec 8 := 0
  cond : BitVec 4 := 0
  disp : BitVec 29 := 0
  tslot : BitVec 3 := 0
  deriving DecidableEq, Repr

def F4.pack (r : F4) : W96 :=
  BitVec.ofBool r.s ++ r.g ++ 4#3 ++ r.op ++ r.a ++ r.b ++ r.sub ++ r.cond ++ 0#20 ++ r.disp ++ r.tslot

def F4.unpack (w : W96) : F4 where
  s := w.getLsbD 95
  g := w.extractLsb' 91 4
  op := w.extractLsb' 80 8
  a := w.extractLsb' 72 8
  b := w.extractLsb' 64 8
  sub := w.extractLsb' 56 8
  cond := w.extractLsb' 52 4
  disp := w.extractLsb' 3 29
  tslot := w.extractLsb' 0 3

/-- The fields of format 5 (R301, R309). -/
structure F5 where
  s : Bool := false
  g : MReg := 0
  op : W8 := 0
  td : BitVec 8 := 0
  ta : BitVec 8 := 0
  tb : BitVec 8 := 0
  vs : BitVec 8 := 0
  sa : BitVec 8 := 0
  sb : BitVec 8 := 0
  sub : BitVec 8 := 0
  tya : BitVec 4 := 0
  tyb : BitVec 4 := 0
  rm : BitVec 2 := 0
  sat : Bool := false
  mx : BitVec 8 := 0
  deriving DecidableEq, Repr

def F5.pack (r : F5) : W96 :=
  BitVec.ofBool r.s ++ r.g ++ 5#3 ++ r.op ++ r.td ++ r.ta ++ r.tb ++ r.vs ++ r.sa ++ r.sb ++ r.sub ++ r.tya ++ r.tyb ++ r.rm ++ BitVec.ofBool r.sat ++ 0#5 ++ r.mx

def F5.unpack (w : W96) : F5 where
  s := w.getLsbD 95
  g := w.extractLsb' 91 4
  op := w.extractLsb' 80 8
  td := w.extractLsb' 72 8
  ta := w.extractLsb' 64 8
  tb := w.extractLsb' 56 8
  vs := w.extractLsb' 48 8
  sa := w.extractLsb' 40 8
  sb := w.extractLsb' 32 8
  sub := w.extractLsb' 24 8
  tya := w.extractLsb' 20 4
  tyb := w.extractLsb' 16 4
  rm := w.extractLsb' 14 2
  sat := w.getLsbD 13
  mx := w.extractLsb' 0 8

/-- The fields of format 6 (R301, R310). -/
structure F6 where
  s : Bool := false
  g : MReg := 0
  op : W8 := 0
  d : BitVec 8 := 0
  qh : BitVec 8 := 0
  a : BitVec 8 := 0
  b : BitVec 8 := 0
  v : BitVec 8 := 0
  sub : BitVec 8 := 0
  try_ : Bool := false
  wall : Bool := false
  tl : BitVec 3 := 0
  imm : BitVec 24 := 0
  deriving DecidableEq, Repr

def F6.pack (r : F6) : W96 :=
  BitVec.ofBool r.s ++ r.g ++ 6#3 ++ r.op ++ r.d ++ r.qh ++ r.a ++ r.b ++ r.v ++ r.sub ++ BitVec.ofBool r.try_ ++ BitVec.ofBool r.wall ++ r.tl ++ 0#3 ++ r.imm

def F6.unpack (w : W96) : F6 where
  s := w.getLsbD 95
  g := w.extractLsb' 91 4
  op := w.extractLsb' 80 8
  d := w.extractLsb' 72 8
  qh := w.extractLsb' 64 8
  a := w.extractLsb' 56 8
  b := w.extractLsb' 48 8
  v := w.extractLsb' 40 8
  sub := w.extractLsb' 32 8
  try_ := w.getLsbD 31
  wall := w.getLsbD 30
  tl := w.extractLsb' 27 3
  imm := w.extractLsb' 0 24

/-- The fields of format 7 (R301, R310). -/
structure F7 where
  s : Bool := false
  g : MReg := 0
  op : W8 := 0
  d : BitVec 8 := 0
  a : BitVec 8 := 0
  sub : BitVec 8 := 0
  spr : BitVec 8 := 0
  idx : BitVec 8 := 0
  imm : BitVec 40 := 0
  deriving DecidableEq, Repr

def F7.pack (r : F7) : W96 :=
  BitVec.ofBool r.s ++ r.g ++ 7#3 ++ r.op ++ r.d ++ r.a ++ r.sub ++ r.spr ++ r.idx ++ r.imm

def F7.unpack (w : W96) : F7 where
  s := w.getLsbD 95
  g := w.extractLsb' 91 4
  op := w.extractLsb' 80 8
  d := w.extractLsb' 72 8
  a := w.extractLsb' 64 8
  sub := w.extractLsb' 56 8
  spr := w.extractLsb' 48 8
  idx := w.extractLsb' 40 8
  imm := w.extractLsb' 0 40

/-! ### Codes of the enumerated fields (R254, R303, R312, R342, R356, R386) -/

def Ty.code : Ty → BitVec 4
  | .i8 => 0
  | .i16 => 1
  | .i32 => 2
  | .i64 => 3
  | .n8 => 4
  | .n16 => 5
  | .n32 => 6
  | .n64 => 7
  | .b32 => 8
  | .b64 => 9
  | .f32 => 10
  | .bf16 => 11
  | .f16 => 12
  | .e4m3 => 13
  | .e5m2 => 14

def Ty.ofCode (c : BitVec 4) : Option Ty :=
  match c.toNat with
  | 0 => some .i8
  | 1 => some .i16
  | 2 => some .i32
  | 3 => some .i64
  | 4 => some .n8
  | 5 => some .n16
  | 6 => some .n32
  | 7 => some .n64
  | 8 => some .b32
  | 9 => some .b64
  | 10 => some .f32
  | 11 => some .bf16
  | 12 => some .f16
  | 13 => some .e4m3
  | 14 => some .e5m2
  | _ => none

def Cond.code : Cond → BitVec 4
  | .eq => 1
  | .ne => 2
  | .lt => 3
  | .le => 4
  | .gt => 5
  | .ge => 6
  | .un => 7

def Cond.ofCode (c : BitVec 4) : Option Cond :=
  match c.toNat with
  | 1 => some .eq
  | 2 => some .ne
  | 3 => some .lt
  | 4 => some .le
  | 5 => some .gt
  | 6 => some .ge
  | 7 => some .un
  | _ => none

def Spr.code : Spr → BitVec 8
  | .lane => 0
  | .quarter => 1
  | .group => 2
  | .block => 3
  | .core => 4
  | .die => 5
  | .pkg => 6
  | .clock => 7
  | .fflags => 8
  | .iflags => 9
  | .trap => 10
  | .safe => 11

def Spr.ofCode (c : BitVec 8) : Option Spr :=
  match c.toNat with
  | 0 => some .lane
  | 1 => some .quarter
  | 2 => some .group
  | 3 => some .block
  | 4 => some .core
  | 5 => some .die
  | 6 => some .pkg
  | 7 => some .clock
  | 8 => some .fflags
  | 9 => some .iflags
  | 10 => some .trap
  | 11 => some .safe
  | _ => none

def AtomOp.code : AtomOp → BitVec 4
  | .add => 0
  | .and => 1
  | .or => 2
  | .xor => 3
  | .min => 4
  | .max => 5
  | .exch => 6
  | .cas => 7
  | .fadd => 8

def AtomOp.ofCode (c : BitVec 4) : Option AtomOp :=
  match c.toNat with
  | 0 => some .add
  | 1 => some .and
  | 2 => some .or
  | 3 => some .xor
  | 4 => some .min
  | 5 => some .max
  | 6 => some .exch
  | 7 => some .cas
  | 8 => some .fadd
  | _ => none

def XOper.code : XOper → BitVec 4
  | .add => 0
  | .min => 1
  | .max => 2
  | .and => 3
  | .or => 4
  | .xor => 5

def XOper.ofCode (c : BitVec 4) : Option XOper :=
  match c.toNat with
  | 0 => some .add
  | 1 => some .min
  | 2 => some .max
  | 3 => some .and
  | 4 => some .or
  | 5 => some .xor
  | _ => none

def Rm.code : Rm → BitVec 2
  | .rn => 0
  | .rz => 1
  | .ru => 2
  | .rd => 3

def Rm.ofCode (c : BitVec 2) : Rm :=
  match c.toNat with
  | 0 => .rn
  | 1 => .rz
  | 2 => .ru
  | _ => .rd

/-- COND of `br`: code 0 is no condition (R356). -/
def Cond.optCode : Option Cond → W4
  | none => 0
  | some c => c.code

def Cond.optOfCode (c : W4) : Option (Option Cond) :=
  if c = 0 then some none else (Cond.ofCode c).map some

/-! ### Operand forms: the fields that each form's encoding uses, and reading them back -/

def encSBin (sub : W8) (o : SBin) : W96 :=
  F0.pack { s := o.sw, ty := o.ty.code, d := o.d.setWidth 8, a := o.a.setWidth 8, b := o.b.setWidth 8, sub := sub }

def decSBin (r : F0) : Option SBin :=
  (Ty.ofCode r.ty).map fun ty => { sw := r.s, ty := ty, d := r.d.setWidth 6, a := r.a.setWidth 6, b := r.b.setWidth 6 }

def encSImm (sub : W8) (o : SImm) : W96 :=
  F1.pack { s := o.sw, ty := o.ty.code, d := o.d.setWidth 8, a := o.a.setWidth 8, imm := o.imm, sub := sub }

def decSImm (r : F1) : Option SImm :=
  (Ty.ofCode r.ty).map fun ty => { sw := r.s, ty := ty, d := r.d.setWidth 6, a := r.a.setWidth 6, imm := r.imm }

def encSUn (sub : W8) (o : SUn) : W96 :=
  F0.pack { s := o.sw, ty := Ty.code .b64, d := o.d.setWidth 8, a := o.a.setWidth 8, sub := sub }

def decSUn (r : F0) : Option SUn :=
  some { sw := r.s, d := r.d.setWidth 6, a := r.a.setWidth 6 }

def encSSel (o : SSel) : W96 :=
  F0.pack { s := o.sw, ty := Ty.code .b64, d := o.d.setWidth 8, a := o.a.setWidth 8, b := o.b.setWidth 8, c := o.c.setWidth 8, sub := 18 }

def decSSel (r : F0) : Option SSel :=
  some { sw := r.s, d := r.d.setWidth 6, a := r.a.setWidth 6, b := r.b.setWidth 6, c := r.c.setWidth 6 }

def encSSelImm (o : SSelImm) : W96 :=
  F1.pack { s := o.sw, ty := Ty.code .b64, d := o.d.setWidth 8, a := o.a.setWidth 8, b := o.b.setWidth 8, imm := o.imm, sub := 18 }

def decSSelImm (r : F1) : Option SSelImm :=
  some { sw := r.s, d := r.d.setWidth 6, a := r.a.setWidth 6, b := r.b.setWidth 6, imm := r.imm }

def encSCmp (o : SCmp) : W96 :=
  F0.pack { s := o.sw, ty := o.ty.code, mx := o.cond.code.setWidth 8, d := o.d.setWidth 8, a := o.a.setWidth 8, b := o.b.setWidth 8, sub := 19 }

def decSCmp (r : F0) : Option SCmp :=
  (Ty.ofCode r.ty).bind fun ty => (Cond.ofCode (r.mx.setWidth 4)).map fun cond => { sw := r.s, ty := ty, cond := cond, d := r.d.setWidth 6, a := r.a.setWidth 6, b := r.b.setWidth 6 }

def encSCmpImm (o : SCmpImm) : W96 :=
  F1.pack { s := o.sw, ty := o.ty.code, mx := o.cond.code.setWidth 8, d := o.d.setWidth 8, a := o.a.setWidth 8, imm := o.imm, sub := 19 }

def decSCmpImm (r : F1) : Option SCmpImm :=
  (Ty.ofCode r.ty).bind fun ty => (Cond.ofCode (r.mx.setWidth 4)).map fun cond => { sw := r.s, ty := ty, cond := cond, d := r.d.setWidth 6, a := r.a.setWidth 6, imm := r.imm }

def encSLong (o : SLong) : W96 :=
  F2.pack { s := o.sw, d := o.d.setWidth 8, imm := o.imm }

def decSLong (r : F2) : Option SLong :=
  some { sw := r.s, d := r.d.setWidth 6, imm := r.imm }

def encMLong (o : MLong) : W96 :=
  F2.pack { s := o.sw, d := o.d.setWidth 8, imm := o.imm.setWidth 64, sub := 1 }

def decMLong (r : F2) : Option MLong :=
  some { sw := r.s, d := r.d.setWidth 4, imm := r.imm.setWidth 32 }

def encMBin (sub : W8) (o : MBin) : W96 :=
  F0.pack { s := o.sw, d := o.d.setWidth 8, a := o.a.setWidth 8, b := o.b.setWidth 8, op := 1, sub := sub }

def decMBin (r : F0) : Option MBin :=
  some { sw := r.s, d := r.d.setWidth 4, a := r.a.setWidth 4, b := r.b.setWidth 4 }

def encMUn (sub : W8) (o : MUn) : W96 :=
  F0.pack { s := o.sw, d := o.d.setWidth 8, a := o.a.setWidth 8, op := 1, sub := sub }

def decMUn (r : F0) : Option MUn :=
  some { sw := r.s, d := r.d.setWidth 4, a := r.a.setWidth 4 }

def encMDst (o : MDst) : W96 :=
  F0.pack { s := o.sw, d := o.d.setWidth 8, op := 1, sub := 6 }

def decMDst (r : F0) : Option MDst :=
  some { sw := r.s, d := r.d.setWidth 4 }

def encMSrc (o : MSrc) : W96 :=
  F0.pack { s := o.sw, a := o.a.setWidth 8, op := 1, sub := 7 }

def decMSrc (r : F0) : Option MSrc :=
  some { sw := r.s, a := r.a.setWidth 4 }

def encMToS (sub : W8) (o : MToS) : W96 :=
  F0.pack { s := o.sw, d := o.d.setWidth 8, a := o.a.setWidth 8, op := 1, sub := sub }

def decMToS (r : F0) : Option MToS :=
  some { sw := r.s, d := r.d.setWidth 6, a := r.a.setWidth 4 }

def encSToM (o : SToM) : W96 :=
  F0.pack { s := o.sw, d := o.d.setWidth 8, a := o.a.setWidth 8, op := 1, sub := 10 }

def decSToM (r : F0) : Option SToM :=
  some { sw := r.s, d := r.d.setWidth 4, a := r.a.setWidth 6 }

def encVBin (sub : W8) (o : VBin) : W96 :=
  F0.pack { s := o.h.sw, g := o.h.g, ty := o.ty.code, d := o.d, a := o.a, b := o.b, sat := o.sat, w2 := o.x2, op := 2, sub := sub }

def decVBin (r : F0) : Option VBin :=
  (Ty.ofCode r.ty).map fun ty => { h := ⟨r.s, r.g⟩, ty := ty, d := r.d, a := r.a, b := r.b, sat := r.sat, x2 := r.w2 }

def encVImm (sub : W8) (o : VImm) : W96 :=
  F1.pack { s := o.h.sw, g := o.h.g, ty := o.ty.code, d := o.d, a := o.a, imm := o.imm, sat := o.sat, w2 := o.x2, op := 2, sub := sub }

def decVImm (r : F1) : Option VImm :=
  (Ty.ofCode r.ty).map fun ty => { h := ⟨r.s, r.g⟩, ty := ty, d := r.d, a := r.a, imm := r.imm, sat := r.sat, x2 := r.w2 }

def encVTern (o : VTern) : W96 :=
  F0.pack { s := o.h.sw, g := o.h.g, ty := o.ty.code, d := o.d, a := o.a, b := o.b, c := o.c, sat := o.sat, w2 := o.x2, op := 2, sub := 4 }

def decVTern (r : F0) : Option VTern :=
  (Ty.ofCode r.ty).map fun ty => { h := ⟨r.s, r.g⟩, ty := ty, d := r.d, a := r.a, b := r.b, c := r.c, sat := r.sat, x2 := r.w2 }

def encVTernImm (o : VTernImm) : W96 :=
  F1.pack { s := o.h.sw, g := o.h.g, ty := o.ty.code, d := o.d, a := o.a, b := o.b, imm := o.imm, sat := o.sat, w2 := o.x2, op := 2, sub := 4 }

def decVTernImm (r : F1) : Option VTernImm :=
  (Ty.ofCode r.ty).map fun ty => { h := ⟨r.s, r.g⟩, ty := ty, d := r.d, a := r.a, b := r.b, imm := r.imm, sat := r.sat, x2 := r.w2 }

def encVUn (op sub : W8) (o : VUn) : W96 :=
  F0.pack { s := o.h.sw, g := o.h.g, ty := o.ty.code, d := o.d, a := o.a, sat := o.sat, w2 := o.x2, op := op, sub := sub }

def decVUn (r : F0) : Option VUn :=
  (Ty.ofCode r.ty).map fun ty => { h := ⟨r.s, r.g⟩, ty := ty, d := r.d, a := r.a, sat := r.sat, x2 := r.w2 }

def encVSel (o : VSel) : W96 :=
  F0.pack { s := o.h.sw, g := o.h.g, ty := Ty.code .b32, w2 := o.x2, d := o.d, a := o.a, b := o.b, c := o.m.setWidth 8, op := 2, sub := 20 }

def decVSel (r : F0) : Option VSel :=
  some { h := ⟨r.s, r.g⟩, x2 := r.w2, d := r.d, a := r.a, b := r.b, m := r.c.setWidth 4 }

def encVCmp (op sub : W8) (o : VCmp) : W96 :=
  F0.pack { s := o.h.sw, g := o.h.g, ty := o.ty.code, mx := o.cond.code.setWidth 8, d := o.d.setWidth 8, a := o.a, b := o.b, op := op, sub := sub }

def decVCmp (r : F0) : Option VCmp :=
  (Ty.ofCode r.ty).bind fun ty => (Cond.ofCode (r.mx.setWidth 4)).map fun cond => { h := ⟨r.s, r.g⟩, ty := ty, cond := cond, d := r.d.setWidth 4, a := r.a, b := r.b }

def encVCmpImm (op sub : W8) (o : VCmpImm) : W96 :=
  F1.pack { s := o.h.sw, g := o.h.g, ty := o.ty.code, mx := o.cond.code.setWidth 8, d := o.d.setWidth 8, a := o.a, imm := o.imm, op := op, sub := sub }

def decVCmpImm (r : F1) : Option VCmpImm :=
  (Ty.ofCode r.ty).bind fun ty => (Cond.ofCode (r.mx.setWidth 4)).map fun cond => { h := ⟨r.s, r.g⟩, ty := ty, cond := cond, d := r.d.setWidth 4, a := r.a, imm := r.imm }

def encVMovS (o : VMovS) : W96 :=
  F0.pack { s := o.h.sw, g := o.h.g, ty := Ty.code .b32, d := o.d, a := o.a.setWidth 8, op := 2, sub := 23 }

def decVMovS (r : F0) : Option VMovS :=
  some { h := ⟨r.s, r.g⟩, d := r.d, a := r.a.setWidth 6 }

def encVFBin (sub : W8) (o : VFBin) : W96 :=
  F0.pack { s := o.h.sw, g := o.h.g, d := o.d, a := o.a, b := o.b, ty := Ty.code .f32, sat := o.sat, w2 := o.x2, rm := o.rm.code, op := 3, sub := sub }

def decVFBin (r : F0) : Option VFBin :=
  some { h := ⟨r.s, r.g⟩, d := r.d, a := r.a, b := r.b, sat := r.sat, x2 := r.w2, rm := Rm.ofCode r.rm }

def encVFImm (sub : W8) (o : VFImm) : W96 :=
  F1.pack { s := o.h.sw, g := o.h.g, d := o.d, a := o.a, imm := o.imm, ty := Ty.code .f32, sat := o.sat, w2 := o.x2, rm := o.rm.code, op := 3, sub := sub }

def decVFImm (r : F1) : Option VFImm :=
  some { h := ⟨r.s, r.g⟩, d := r.d, a := r.a, imm := r.imm, sat := r.sat, x2 := r.w2, rm := Rm.ofCode r.rm }

def encVFTern (o : VFTern) : W96 :=
  F0.pack { s := o.h.sw, g := o.h.g, d := o.d, a := o.a, b := o.b, c := o.c, ty := Ty.code .f32, sat := o.sat, w2 := o.x2, rm := o.rm.code, op := 3, sub := 3 }

def decVFTern (r : F0) : Option VFTern :=
  some { h := ⟨r.s, r.g⟩, d := r.d, a := r.a, b := r.b, c := r.c, sat := r.sat, x2 := r.w2, rm := Rm.ofCode r.rm }

def encVFTernImm (o : VFTernImm) : W96 :=
  F1.pack { s := o.h.sw, g := o.h.g, d := o.d, a := o.a, b := o.b, imm := o.imm, ty := Ty.code .f32, sat := o.sat, w2 := o.x2, rm := o.rm.code, op := 3, sub := 3 }

def decVFTernImm (r : F1) : Option VFTernImm :=
  some { h := ⟨r.s, r.g⟩, d := r.d, a := r.a, b := r.b, imm := r.imm, sat := r.sat, x2 := r.w2, rm := Rm.ofCode r.rm }

def encVcvt (o : Vcvt) : W96 :=
  F0.pack { s := o.h.sw, g := o.h.g, ty := o.dt.code, mx := o.st.code.setWidth 8, d := o.d, a := o.a, sat := o.sat, w2 := o.x2, rm := o.rm.code, op := 4 }

def decVcvt (r : F0) : Option Vcvt :=
  (Ty.ofCode r.ty).bind fun dt => (Ty.ofCode (r.mx.setWidth 4)).map fun st => { h := ⟨r.s, r.g⟩, dt := dt, st := st, d := r.d, a := r.a, sat := r.sat, x2 := r.w2, rm := Rm.ofCode r.rm }

def encVSfu (sub : W8) (o : VSfu) : W96 :=
  F0.pack { s := o.h.sw, g := o.h.g, ty := Ty.code .f32, d := o.d, a := o.a, rm := o.rm.code, op := 5, sub := sub }

def decVSfu (r : F0) : Option VSfu :=
  some { h := ⟨r.s, r.g⟩, d := r.d, a := r.a, rm := Rm.ofCode r.rm }

def encVSfu2 (o : VSfu2) : W96 :=
  F0.pack { s := o.h.sw, g := o.h.g, ty := Ty.code .f32, d := o.d, a := o.a, b := o.b, rm := o.rm.code, op := 5, sub := 5 }

def decVSfu2 (r : F0) : Option VSfu2 :=
  some { h := ⟨r.s, r.g⟩, d := r.d, a := r.a, b := r.b, rm := Rm.ofCode r.rm }

def encVPair (sub : W8) (o : VPair) : W96 :=
  F0.pack { s := o.h.sw, g := o.h.g, ty := Ty.code .b32, d := o.d, a := o.a, b := o.b, op := 6, sub := sub }

def decVPair (r : F0) : Option VPair :=
  some { h := ⟨r.s, r.g⟩, d := r.d, a := r.a, b := r.b }

def encVScan (o : VScan) : W96 :=
  F0.pack { s := o.h.sw, g := o.h.g, ty := o.ty.code, mx := 0#2 ++ BitVec.ofBool o.excl ++ BitVec.ofBool o.idn ++ o.op.code, d := o.d, a := o.a, rm := o.rm.code, op := 6, sub := 2 }

def decVScan (r : F0) : Option VScan :=
  (Ty.ofCode r.ty).bind fun ty => (XOper.ofCode (r.mx.setWidth 4)).map fun op => { h := ⟨r.s, r.g⟩, ty := ty, op := op, excl := r.mx.getLsbD 5, idn := r.mx.getLsbD 4, d := r.d, a := r.a, rm := Rm.ofCode r.rm }

def encVRed (o : VRed) : W96 :=
  F0.pack { s := o.h.sw, g := o.h.g, ty := o.ty.code, mx := 0#3 ++ BitVec.ofBool o.idn ++ o.op.code, d := o.d, a := o.a, rm := o.rm.code, op := 6, sub := 3 }

def decVRed (r : F0) : Option VRed :=
  (Ty.ofCode r.ty).bind fun ty => (XOper.ofCode (r.mx.setWidth 4)).map fun op => { h := ⟨r.s, r.g⟩, ty := ty, op := op, idn := r.mx.getLsbD 4, d := r.d, a := r.a, rm := Rm.ofCode r.rm }

def encVTopk (o : VTopk) : W96 :=
  F0.pack { s := o.h.sw, g := o.h.g, ty := o.ty.code, mx := o.k.setWidth 8, d := o.d, a := o.a, b := o.b, op := 6, sub := 4 }

def decVTopk (r : F0) : Option VTopk :=
  (Ty.ofCode r.ty).map fun ty => { h := ⟨r.s, r.g⟩, ty := ty, k := r.mx.setWidth 6, d := r.d, a := r.a, b := r.b }

def encVHist (o : VHist) : W96 :=
  F0.pack { s := o.h.sw, g := o.h.g, ty := Ty.code .b32, mx := o.sh.setWidth 8, d := o.d, a := o.a, op := 6, sub := 5 }

def decVHist (r : F0) : Option VHist :=
  some { h := ⟨r.s, r.g⟩, sh := r.mx.setWidth 5, d := r.d, a := r.a }

def encVDraw (o : VDraw) : W96 :=
  F0.pack { s := o.h.sw, g := o.h.g, ty := Ty.code .f32, d := o.d, a := o.a, b := o.b.setWidth 8, c := o.c.setWidth 8, op := 7 }

def decVDraw (r : F0) : Option VDraw :=
  some { h := ⟨r.s, r.g⟩, d := r.d, a := r.a, b := r.b.setWidth 6, c := r.c.setWidth 6 }

def encDMerge (o : DMerge) : W96 :=
  F0.pack { s := o.h.sw, g := o.h.g, d := o.d, a := o.a, b := o.b, c := o.c.setWidth 8, op := 7, sub := 1 }

def decDMerge (r : F0) : Option DMerge :=
  some { h := ⟨r.s, r.g⟩, d := r.d, a := r.a, b := r.b, c := r.c.setWidth 6 }

def encVSrcW (sub : W8) (ty : BitVec 4) (o : VSrc) : W96 :=
  F0.pack { s := o.h.sw, g := o.h.g, ty := ty, a := o.a, op := 8, sub := sub }

def decVSrcW (r : F0) : Option VSrc :=
  some { h := ⟨r.s, r.g⟩, a := r.a }

def encVSrc2 (o : VSrc2) : W96 :=
  F0.pack { s := o.h.sw, g := o.h.g, ty := Ty.code .bf16, a := o.a, b := o.b, op := 8, sub := 2 }

def decVSrc2 (r : F0) : Option VSrc2 :=
  some { h := ⟨r.s, r.g⟩, a := r.a, b := r.b }

def encWRnd (o : WRnd) : W96 :=
  F0.pack { s := o.h.sw, g := o.h.g, ty := bif o.bf then Ty.code .bf16 else Ty.code .f32, sat := o.sat, d := o.d, rm := o.rm.code, op := 8, sub := 3 }

def decWRnd (r : F0) : Option WRnd :=
  some { h := ⟨r.s, r.g⟩, bf := r.ty == Ty.code .bf16, sat := r.sat, d := r.d, rm := Rm.ofCode r.rm }

def encVDst (o : VDst) : W96 :=
  F0.pack { s := o.h.sw, g := o.h.g, d := o.d, op := 8, sub := 4 }

def decVDst (r : F0) : Option VDst :=
  some { h := ⟨r.s, r.g⟩, d := r.d }

def encMem (op : W8) (o : Mem) : W96 :=
  F3.pack { s := o.h.sw, g := o.h.g, ty := o.ty.code, d := o.d, br := o.br.setWidth 8, vo := o.vo, nov := o.nov, imm := o.imm, op := op }

def decMem (r : F3) : Option Mem :=
  (Ty.ofCode r.ty).map fun ty => { h := ⟨r.s, r.g⟩, ty := ty, d := r.d, br := r.br.setWidth 4, vo := r.vo, nov := r.nov, imm := r.imm }

def encScr (op : W8) (o : Scr) : W96 :=
  F3.pack { s := o.h.sw, g := o.h.g, ty := o.ty.code, d := o.d, vo := o.vo, nov := o.nov, imm := o.imm, op := op }

def decScr (r : F3) : Option Scr :=
  (Ty.ofCode r.ty).map fun ty => { h := ⟨r.s, r.g⟩, ty := ty, d := r.d, vo := r.vo, nov := r.nov, imm := r.imm }

def encAtom (o : Atom) : W96 :=
  F3.pack { s := o.h.sw, g := o.h.g, ty := o.ty.code, d := o.d, br := o.br.setWidth 8, d2 := o.d2, vo := o.vo, nov := o.nov, imm := o.imm, sub := BitVec.ofBool o.nr ++ 0#3 ++ o.op.code, op := 2 }

def decAtom (r : F3) : Option Atom :=
  (Ty.ofCode r.ty).bind fun ty => (AtomOp.ofCode (r.sub.setWidth 4)).map fun op => { h := ⟨r.s, r.g⟩, ty := ty, d := r.d, br := r.br.setWidth 4, d2 := r.d2, vo := r.vo, nov := r.nov, imm := r.imm, op := op, nr := r.sub.getLsbD 7 }

def encScrAtom (o : ScrAtom) : W96 :=
  F3.pack { s := o.h.sw, g := o.h.g, ty := o.ty.code, d := o.d, d2 := o.d2, vo := o.vo, nov := o.nov, imm := o.imm, sub := BitVec.ofBool o.nr ++ 0#3 ++ o.op.code, op := 5 }

def decScrAtom (r : F3) : Option ScrAtom :=
  (Ty.ofCode r.ty).bind fun ty => (AtomOp.ofCode (r.sub.setWidth 4)).map fun op => { h := ⟨r.s, r.g⟩, ty := ty, d := r.d, d2 := r.d2, vo := r.vo, nov := r.nov, imm := r.imm, op := op, nr := r.sub.getLsbD 7 }

def encTMem (op : W8) (o : TMem) : W96 :=
  F3.pack { s := o.h.sw, g := o.h.g, d := o.d.setWidth 8, br := o.br.setWidth 8, vo := o.vo, nov := o.nov, imm := o.imm, op := op }

def decTMem (r : F3) : Option TMem :=
  some { h := ⟨r.s, r.g⟩, d := r.d.setWidth 3, br := r.br.setWidth 4, vo := r.vo, nov := r.nov, imm := r.imm }

def encPref (sub : W8) (o : Pref) : W96 :=
  F3.pack { s := o.h.sw, g := o.h.g, br := o.br.setWidth 8, vo := o.vo, nov := o.nov, imm := o.imm, op := 8, sub := sub }

def decPref (r : F3) : Option Pref :=
  some { h := ⟨r.s, r.g⟩, br := r.br.setWidth 4, vo := r.vo, nov := r.nov, imm := r.imm }

def encBSet (o : BSet) : W96 :=
  F3.pack { s := o.sw, br := o.b.setWidth 8, d := o.a.setWidth 8, op := 9 }

def decBSet (r : F3) : Option BSet :=
  some { sw := r.s, b := r.br.setWidth 4, a := r.d.setWidth 6 }

def encBr (o : Br) : W96 :=
  F4.pack { s := o.sw, cond := Cond.optCode o.cond, a := o.a.setWidth 8, disp := o.disp, tslot := o.tslot }

def decBr (r : F4) : Option Br :=
  (Cond.optOfCode r.cond).map fun cond => { sw := r.s, cond := cond, a := r.a.setWidth 6, disp := r.disp, tslot := r.tslot }

def encBrM (sub : W8) (o : BrM) : W96 :=
  F4.pack { s := o.sw, a := o.a.setWidth 8, disp := o.disp, tslot := o.tslot, sub := sub }

def decBrM (r : F4) : Option BrM :=
  some { sw := r.s, a := r.a.setWidth 4, disp := r.disp, tslot := r.tslot }

def encCall (o : Call) : W96 :=
  F4.pack { s := o.sw, b := o.b.setWidth 8, disp := o.disp, tslot := o.tslot, sub := 3 }

def decCall (r : F4) : Option Call :=
  some { sw := r.s, b := r.b.setWidth 6, disp := r.disp, tslot := r.tslot }

def encSSrc4 (sub : W8) (o : SSrc) : W96 :=
  F4.pack { s := o.sw, a := o.a.setWidth 8, sub := sub }

def decSSrc4 (r : F4) : Option SSrc :=
  some { sw := r.s, a := r.a.setWidth 6 }

def encTcSet (o : TcSet) : W96 :=
  F5.pack { s := o.sw, td := o.td.setWidth 8, sa := o.sa.setWidth 8 }

def decTcSet (r : F5) : Option TcSet :=
  some { sw := r.s, td := r.td.setWidth 3, sa := r.sa.setWidth 6 }

def encTZero (o : TZero) : W96 :=
  F5.pack { s := o.h.sw, g := o.h.g, td := o.td.setWidth 8, op := 1 }

def decTZero (r : F5) : Option TZero :=
  some { h := ⟨r.s, r.g⟩, td := r.td.setWidth 3 }

def encTmma (o : Tmma) : W96 :=
  F5.pack { s := o.h.sw, g := o.h.g, tya := o.tya.code, tyb := o.tyb.code, mx := 0#6 ++ BitVec.ofBool o.z ++ BitVec.ofBool o.qd, td := o.td.setWidth 8, ta := o.ta.setWidth 8, tb := o.tb.setWidth 8, vs := o.vs, sa := o.sa.setWidth 8, op := 2 }

def decTmma (r : F5) : Option Tmma :=
  (Ty.ofCode r.tya).bind fun tya => (Ty.ofCode r.tyb).map fun tyb => { h := ⟨r.s, r.g⟩, tya := tya, tyb := tyb, z := r.mx.getLsbD 1, qd := r.mx.getLsbD 0, td := r.td.setWidth 3, ta := r.ta.setWidth 3, tb := r.tb.setWidth 3, vs := r.vs, sa := r.sa.setWidth 6 }

def encTmmaSparse (o : TmmaSparse) : W96 :=
  F5.pack { s := o.h.sw, g := o.h.g, tya := o.tya.code, tyb := o.tyb.code, mx := 0#6 ++ BitVec.ofBool o.z ++ 0#1, td := o.td.setWidth 8, ta := o.ta.setWidth 8, tb := o.tb.setWidth 8, vs := o.vs, sa := o.sa.setWidth 8, sb := o.sb.setWidth 8, op := 2, sub := 1 }

def decTmmaSparse (r : F5) : Option TmmaSparse :=
  (Ty.ofCode r.tya).bind fun tya => (Ty.ofCode r.tyb).map fun tyb => { h := ⟨r.s, r.g⟩, tya := tya, tyb := tyb, z := r.mx.getLsbD 1, td := r.td.setWidth 3, ta := r.ta.setWidth 3, tb := r.tb.setWidth 3, vs := r.vs, sa := r.sa.setWidth 6, sb := r.sb.setWidth 6 }

def encTConv (o : TConv) : W96 :=
  F5.pack { s := o.h.sw, g := o.h.g, rm := o.rm.code, sat := o.sat, td := o.td.setWidth 8, ta := o.ta.setWidth 8, op := 3 }

def decTConv (r : F5) : Option TConv :=
  some { h := ⟨r.s, r.g⟩, rm := Rm.ofCode r.rm, sat := r.sat, td := r.td.setWidth 3, ta := r.ta.setWidth 3 }

def encTDraw (o : TDraw) : W96 :=
  F5.pack { s := o.h.sw, g := o.h.g, td := o.td.setWidth 8, ta := o.ta.setWidth 8, vs := o.vs, sa := o.sa.setWidth 8, sb := o.sb.setWidth 8, op := 4 }

def decTDraw (r : F5) : Option TDraw :=
  some { h := ⟨r.s, r.g⟩, td := r.td.setWidth 3, ta := r.ta.setWidth 3, vs := r.vs, sa := r.sa.setWidth 6, sb := r.sb.setWidth 6 }

def encTMovTv (o : TMov) : W96 :=
  F5.pack { s := o.h.sw, g := o.h.g, vs := o.v, ta := o.t.setWidth 8, mx := o.w.setWidth 8, op := 5 }

def decTMovTv (r : F5) : Option TMov :=
  some { h := ⟨r.s, r.g⟩, v := r.vs, t := r.ta.setWidth 3, w := r.mx.setWidth 5 }

def encTMovVt (o : TMov) : W96 :=
  F5.pack { s := o.h.sw, g := o.h.g, ta := o.v, td := o.t.setWidth 8, mx := o.w.setWidth 8, op := 5, sub := 1 }

def decTMovVt (r : F5) : Option TMov :=
  some { h := ⟨r.s, r.g⟩, v := r.ta, t := r.td.setWidth 3, w := r.mx.setWidth 5 }

def encQRes (op : W8) (o : QRes) : W96 :=
  F6.pack { s := o.h.sw, g := o.h.g, try_ := o.try_, a := o.a.setWidth 8, imm := BitVec.ofBool o.reg ++ 0#16 ++ o.n, d := o.d.setWidth 8, qh := o.qh.setWidth 8, op := op }

def decQRes (r : F6) : Option QRes :=
  some { h := ⟨r.s, r.g⟩, try_ := r.try_, reg := r.imm.getLsbD 23, a := r.a.setWidth 6, n := r.imm.setWidth 7, d := r.d.setWidth 6, qh := r.qh.setWidth 6 }

def encQPut (op : W8) (o : QPut) : W96 :=
  F6.pack { s := o.h.sw, g := o.h.g, a := o.a.setWidth 8, v := o.v, b := o.b.setWidth 8, imm := BitVec.ofBool o.reg ++ o.esz ++ 0#14 ++ o.idx, d := o.d.setWidth 8, qh := o.qh.setWidth 8, op := op, sub := 1 }

def decQPut (r : F6) : Option QPut :=
  some { h := ⟨r.s, r.g⟩, a := r.a.setWidth 6, v := r.v, esz := r.imm.extractLsb' 20 3, reg := r.imm.getLsbD 23, b := r.b.setWidth 6, idx := r.imm.setWidth 6, d := r.d.setWidth 6, qh := r.qh.setWidth 6 }

def encQElem (op sub : W8) (o : QElem) : W96 :=
  F6.pack { s := o.h.sw, g := o.h.g, try_ := o.try_, v := o.v, imm := 0#1 ++ o.esz ++ 0#20, d := o.d.setWidth 8, qh := o.qh.setWidth 8, op := op, sub := sub }

def decQElem (r : F6) : Option QElem :=
  some { h := ⟨r.s, r.g⟩, try_ := r.try_, v := r.v, esz := r.imm.extractLsb' 20 3, d := r.d.setWidth 6, qh := r.qh.setWidth 6 }

def encQPeek (op : W8) (o : QPeek) : W96 :=
  F6.pack { s := o.h.sw, g := o.h.g, v := o.v, imm := 0#1 ++ o.esz ++ 0#20, d := o.d.setWidth 8, qh := o.qh.setWidth 8, op := op, sub := 4 }

def decQPeek (r : F6) : Option QPeek :=
  some { h := ⟨r.s, r.g⟩, v := r.v, esz := r.imm.extractLsb' 20 3, d := r.d.setWidth 6, qh := r.qh.setWidth 6 }

def encQCount (op : W8) (o : QCount) : W96 :=
  F6.pack { s := o.h.sw, g := o.h.g, d := o.d.setWidth 8, qh := o.qh.setWidth 8, op := op, sub := 5 }

def decQCount (r : F6) : Option QCount :=
  some { h := ⟨r.s, r.g⟩, d := r.d.setWidth 6, qh := r.qh.setWidth 6 }

def encQRelMrg (o : QCount) : W96 :=
  F6.pack { s := o.h.sw, g := o.h.g, imm := 1, d := o.d.setWidth 8, qh := o.qh.setWidth 8, sub := 8 }

def decQRelMrg (r : F6) : Option QCount :=
  some { h := ⟨r.s, r.g⟩, d := r.d.setWidth 6, qh := r.qh.setWidth 6 }

def encQAll (op sub : W8) (o : QAll) : W96 :=
  F6.pack { s := o.h.sw, g := o.h.g, wall := o.all, d := o.d.setWidth 8, qh := o.qh.setWidth 8, op := op, sub := sub }

def decQAll (r : F6) : Option QAll :=
  some { h := ⟨r.s, r.g⟩, all := r.wall, d := r.d.setWidth 6, qh := r.qh.setWidth 6 }

def encQRel (o : QRel) : W96 :=
  F6.pack { s := o.h.sw, g := o.h.g, a := o.a.setWidth 8, d := o.d.setWidth 8, qh := o.qh.setWidth 8, sub := 8 }

def decQRel (r : F6) : Option QRel :=
  some { h := ⟨r.s, r.g⟩, a := r.a.setWidth 6, d := r.d.setWidth 6, qh := r.qh.setWidth 6 }

def encQSysRel (o : QSysRel) : W96 :=
  F6.pack { s := o.h.sw, g := o.h.g, a := o.a.setWidth 8, imm := 0#23 ++ BitVec.ofBool o.mrg, d := o.d.setWidth 8, qh := o.qh.setWidth 8, op := 3, sub := 8 }

def decQSysRel (r : F6) : Option QSysRel :=
  some { h := ⟨r.s, r.g⟩, a := r.a.setWidth 6, mrg := r.imm.getLsbD 0, d := r.d.setWidth 6, qh := r.qh.setWidth 6 }

def encQMerge (op : W8) (o : QMerge) : W96 :=
  F6.pack { s := o.h.sw, g := o.h.g, qh := o.qh.setWidth 8, v := o.v, a := o.a.setWidth 8, imm := BitVec.ofBool o.reg ++ o.esz ++ 0#12 ++ o.key, op := op, sub := 10 }

def decQMerge (r : F6) : Option QMerge :=
  some { h := ⟨r.s, r.g⟩, qh := r.qh.setWidth 6, v := r.v, esz := r.imm.extractLsb' 20 3, reg := r.imm.getLsbD 23, a := r.a.setWidth 6, key := r.imm.setWidth 8 }

def encQScatter (o : QScatter) : W96 :=
  F6.pack { s := o.h.sw, g := o.h.g, tl := o.tl, imm := 0#23 ++ BitVec.ofBool o.cont, d := o.d.setWidth 8, qh := o.qh.setWidth 8, sub := 11 }

def decQScatter (r : F6) : Option QScatter :=
  some { h := ⟨r.s, r.g⟩, tl := r.tl, cont := r.imm.getLsbD 0, d := r.d.setWidth 6, qh := r.qh.setWidth 6 }

def encQCurRd (o : QCurRd) : W96 :=
  F6.pack { s := o.h.sw, g := o.h.g, d := o.d.setWidth 8, imm := o.w.setWidth 24, sub := 12 }

def decQCurRd (r : F6) : Option QCurRd :=
  some { h := ⟨r.s, r.g⟩, d := r.d.setWidth 6, w := r.imm.setWidth 5 }

def encQCurWr (o : QCurWr) : W96 :=
  F6.pack { s := o.h.sw, g := o.h.g, a := o.a.setWidth 8, imm := o.w.setWidth 24, sub := 13 }

def decQCurWr (r : F6) : Option QCurWr :=
  some { h := ⟨r.s, r.g⟩, a := r.a.setWidth 6, w := r.imm.setWidth 5 }

def encTCopy (o : TCopy) : W96 :=
  F6.pack { s := o.h.sw, g := o.h.g, tl := o.tl, d := o.d.setWidth 8, qh := o.qh.setWidth 8, op := 1 }

def decTCopy (r : F6) : Option TCopy :=
  some { h := ⟨r.s, r.g⟩, tl := r.tl, d := r.d.setWidth 6, qh := r.qh.setWidth 6 }

def encTWait (o : TWait) : W96 :=
  F6.pack { s := o.h.sw, g := o.h.g, tl := o.tl, a := o.a.setWidth 8, op := 1, sub := 1 }

def decTWait (r : F6) : Option TWait :=
  some { h := ⟨r.s, r.g⟩, tl := r.tl, a := r.a.setWidth 6 }

def encTWaitImm (o : TWaitImm) : W96 :=
  F6.pack { s := o.h.sw, g := o.h.g, tl := o.tl, imm := o.imm.setWidth 24, op := 1, sub := 2 }

def decTWaitImm (r : F6) : Option TWaitImm :=
  some { h := ⟨r.s, r.g⟩, tl := r.tl, imm := r.imm.setWidth 7 }

def encTLrd (o : TLrd) : W96 :=
  F6.pack { s := o.h.sw, g := o.h.g, tl := o.tl, d := o.d.setWidth 8, op := 1, sub := 3 }

def decTLrd (r : F6) : Option TLrd :=
  some { h := ⟨r.s, r.g⟩, tl := r.tl, d := r.d.setWidth 6 }

def encXLook (sub : W8) (o : XLook) : W96 :=
  F6.pack { s := o.h.sw, g := o.h.g, d := o.d, v := o.v, op := 2, sub := sub }

def decXLook (r : F6) : Option XLook :=
  some { h := ⟨r.s, r.g⟩, d := r.d, v := r.v }

def encXDrop (o : VSrc) : W96 :=
  F6.pack { s := o.h.sw, g := o.h.g, v := o.a, op := 2, sub := 2 }

def decXDrop (r : F6) : Option VSrc :=
  some { h := ⟨r.s, r.g⟩, a := r.v }

def encXPark (o : XPark) : W96 :=
  F6.pack { s := o.h.sw, g := o.h.g, d := o.d.setWidth 8, v := o.v, op := 2, sub := 3 }

def decXPark (r : F6) : Option XPark :=
  some { h := ⟨r.s, r.g⟩, d := r.d.setWidth 6, v := r.v }

def encXOp (sub : W8) (o : XOp) : W96 :=
  F6.pack { s := o.h.sw, g := o.h.g, a := o.a.setWidth 8, b := o.b.setWidth 8, op := 2, sub := sub }

def decXOp (r : F6) : Option XOp :=
  some { h := ⟨r.s, r.g⟩, a := r.a.setWidth 6, b := r.b.setWidth 6 }

def encXOpD (sub : W8) (o : XOpD) : W96 :=
  F6.pack { s := o.h.sw, g := o.h.g, d := o.d.setWidth 8, a := o.a.setWidth 8, b := o.b.setWidth 8, op := 2, sub := sub }

def decXOpD (r : F6) : Option XOpD :=
  some { h := ⟨r.s, r.g⟩, d := r.d.setWidth 6, a := r.a.setWidth 6, b := r.b.setWidth 6 }

def encClaim (o : Claim) : W96 :=
  F6.pack { s := o.h.sw, g := o.h.g, d := o.d.setWidth 8, a := o.a.setWidth 8, b := o.b.setWidth 8, op := 4 }

def decClaim (r : F6) : Option Claim :=
  some { h := ⟨r.s, r.g⟩, d := r.d.setWidth 6, a := r.a.setWidth 6, b := r.b.setWidth 6 }

def encSrd (o : Srd) : W96 :=
  F7.pack { s := o.sw, d := o.d, spr := o.spr.code, idx := o.idx.setWidth 8 }

def decSrd (r : F7) : Option Srd :=
  (Spr.ofCode r.spr).map fun spr => { sw := r.s, spr := spr, idx := r.idx.setWidth 5, d := r.d }

def encSwr (o : Swr) : W96 :=
  F7.pack { s := o.sw, a := o.a, spr := o.spr.code, sub := 1 }

def decSwr (r : F7) : Option Swr :=
  (Spr.ofCode r.spr).map fun spr => { sw := r.s, spr := spr, a := r.a }

def encSafept (o : Safept) : W96 :=
  F7.pack { s := o.sw, imm := o.idx.setWidth 40, op := 1 }

def decSafept (r : F7) : Option Safept :=
  some { sw := r.s, idx := r.imm.setWidth 16 }

def encBar (sub : W8) (o : Bar) : W96 :=
  F7.pack { s := o.sw, imm := 0#27 ++ o.c ++ 0#4 ++ o.k, op := 1, sub := sub }

def decBar (r : F7) : Option Bar :=
  some { sw := r.s, k := r.imm.setWidth 4, c := r.imm.extractLsb' 8 5 }

def encTrapCode (o : TrapCode) : W96 :=
  F7.pack { s := o.sw, imm := o.code.setWidth 40, op := 1, sub := 4 }

def decTrapCode (r : F7) : Option TrapCode :=
  some { sw := r.s, code := r.imm.setWidth 8 }

def encSSrc7 (o : SSrc) : W96 :=
  F7.pack { s := o.sw, a := o.a.setWidth 8, op := 1, sub := 6 }

def decSSrc7 (r : F7) : Option SSrc :=
  some { sw := r.s, a := r.a.setWidth 6 }

/-! ### The opcode map (R337 to R347) -/

def cand00 (r : F0) : Option Instr :=
  match r.sub.toNat with
  | 0x00 => some (.nop r.s)
  | 0x01 => (decSBin r).map .sadd
  | 0x02 => (decSBin r).map .ssub
  | 0x03 => (decSBin r).map .smul
  | 0x04 => (decSBin r).map .smulh
  | 0x05 => (decSBin r).map .sdiv
  | 0x06 => (decSBin r).map .srem
  | 0x07 => (decSBin r).map .smin
  | 0x08 => (decSBin r).map .smax
  | 0x09 => (decSBin r).map .sand
  | 0x0A => (decSBin r).map .sor
  | 0x0B => (decSBin r).map .sxor
  | 0x0C => (decSBin r).map .sshl
  | 0x0D => (decSBin r).map .sshr
  | 0x0E => (decSBin r).map .ssra
  | 0x0F => (decSBin r).map .srotl
  | 0x10 => (decSUn r).map .sclz
  | 0x11 => (decSUn r).map .spopc
  | 0x12 => (decSSel r).map .ssel
  | 0x13 => (decSCmp r).map .scmp
  | 0x14 => (decSUn r).map .smov
  | 0x15 => (decSBin r).map .sofs
  | _ => none

def cand01 (r : F0) : Option Instr :=
  match r.sub.toNat with
  | 0x00 => (decMBin r).map .mand
  | 0x01 => (decMBin r).map .mor
  | 0x02 => (decMBin r).map .mxor
  | 0x03 => (decMBin r).map .mandn
  | 0x04 => (decMUn r).map .mnot
  | 0x05 => (decMUn r).map .mmov
  | 0x06 => (decMDst r).map .mrdem
  | 0x07 => (decMSrc r).map .mwrem
  | 0x08 => (decMToS r).map .mpopc
  | 0x09 => (decMToS r).map .mffs
  | 0x0A => (decSToM r).map .mfroms
  | 0x0B => (decMToS r).map .mtos
  | _ => none

def cand02 (r : F0) : Option Instr :=
  match r.sub.toNat with
  | 0x00 => (decVBin r).map .vadd
  | 0x01 => (decVBin r).map .vsub
  | 0x02 => (decVBin r).map .vmul
  | 0x03 => (decVBin r).map .vmulh
  | 0x04 => (decVTern r).map .vmad
  | 0x05 => (decVBin r).map .vdiv
  | 0x06 => (decVBin r).map .vrem
  | 0x07 => (decVBin r).map .vmin
  | 0x08 => (decVBin r).map .vmax
  | 0x09 => (decVUn r).map .vabs
  | 0x0A => (decVUn r).map .vneg
  | 0x0B => (decVBin r).map .vand
  | 0x0C => (decVBin r).map .vor
  | 0x0D => (decVBin r).map .vxor
  | 0x0E => (decVUn r).map .vnot
  | 0x0F => (decVBin r).map .vshl
  | 0x10 => (decVBin r).map .vshr
  | 0x11 => (decVBin r).map .vsra
  | 0x12 => (decVUn r).map .vclz
  | 0x13 => (decVUn r).map .vpopc
  | 0x14 => (decVSel r).map .vsel
  | 0x15 => (decVCmp r).map .vcmp
  | 0x16 => (decVUn r).map .vmov
  | 0x17 => (decVMovS r).map .vmovs
  | _ => none

def cand03 (r : F0) : Option Instr :=
  match r.sub.toNat with
  | 0x00 => (decVFBin r).map .vfadd
  | 0x01 => (decVFBin r).map .vfsub
  | 0x02 => (decVFBin r).map .vfmul
  | 0x03 => (decVFTern r).map .vffma
  | 0x04 => (decVFBin r).map .vfmin
  | 0x05 => (decVFBin r).map .vfmax
  | 0x06 => (decVUn r).map .vfabs
  | 0x07 => (decVUn r).map .vfneg
  | 0x08 => (decVCmp r).map .vfcmp
  | _ => none

def cand04 (r : F0) : Option Instr :=
  match r.sub.toNat with
  | 0x00 => (decVcvt r).map .vcvt
  | _ => none

def cand05 (r : F0) : Option Instr :=
  match r.sub.toNat with
  | 0x00 => (decVSfu r).map .vex2
  | 0x01 => (decVSfu r).map .vlg2
  | 0x02 => (decVSfu r).map .vrcp
  | 0x03 => (decVSfu r).map .vrsq
  | 0x04 => (decVSfu r).map .vsqrt
  | 0x05 => (decVSfu2 r).map .vfdiv
  | _ => none

def cand06 (r : F0) : Option Instr :=
  match r.sub.toNat with
  | 0x00 => (decVPair r).map .vperm
  | 0x01 => (decVPair r).map .vbcast
  | 0x02 => (decVScan r).map .vscan
  | 0x03 => (decVRed r).map .vred
  | 0x04 => (decVTopk r).map .vtopk
  | 0x05 => (decVHist r).map .vhist
  | _ => none

def cand07 (r : F0) : Option Instr :=
  match r.sub.toNat with
  | 0x00 => (decVDraw r).map .vdraw
  | 0x01 => (decDMerge r).map .dmerge
  | _ => none

def cand08 (r : F0) : Option Instr :=
  match r.sub.toNat with
  | 0x00 => some (.wclr ⟨r.s, r.g⟩)
  | 0x01 => (decVSrcW r).map .wadd
  | 0x02 => (decVSrc2 r).map .wdot
  | 0x03 => (decWRnd r).map .wrnd
  | 0x04 => (decVDst r).map .wget
  | 0x05 => (decVSrcW r).map .wset
  | _ => none

def cand0 (r : F0) : Option Instr :=
  match r.op.toNat with
  | 0x00 => cand00 r
  | 0x01 => cand01 r
  | 0x02 => cand02 r
  | 0x03 => cand03 r
  | 0x04 => cand04 r
  | 0x05 => cand05 r
  | 0x06 => cand06 r
  | 0x07 => cand07 r
  | 0x08 => cand08 r
  | _ => none

def cand10 (r : F1) : Option Instr :=
  match r.sub.toNat with
  | 0x01 => (decSImm r).map .saddImm
  | 0x02 => (decSImm r).map .ssubImm
  | 0x03 => (decSImm r).map .smulImm
  | 0x04 => (decSImm r).map .smulhImm
  | 0x05 => (decSImm r).map .sdivImm
  | 0x06 => (decSImm r).map .sremImm
  | 0x07 => (decSImm r).map .sminImm
  | 0x08 => (decSImm r).map .smaxImm
  | 0x09 => (decSImm r).map .sandImm
  | 0x0A => (decSImm r).map .sorImm
  | 0x0B => (decSImm r).map .sxorImm
  | 0x0C => (decSImm r).map .sshlImm
  | 0x0D => (decSImm r).map .sshrImm
  | 0x0E => (decSImm r).map .ssraImm
  | 0x0F => (decSImm r).map .srotlImm
  | 0x12 => (decSSelImm r).map .sselImm
  | 0x13 => (decSCmpImm r).map .scmpImm
  | 0x15 => (decSImm r).map .sofsImm
  | _ => none

def cand12 (r : F1) : Option Instr :=
  match r.sub.toNat with
  | 0x00 => (decVImm r).map .vaddImm
  | 0x01 => (decVImm r).map .vsubImm
  | 0x02 => (decVImm r).map .vmulImm
  | 0x03 => (decVImm r).map .vmulhImm
  | 0x04 => (decVTernImm r).map .vmadImm
  | 0x05 => (decVImm r).map .vdivImm
  | 0x06 => (decVImm r).map .vremImm
  | 0x07 => (decVImm r).map .vminImm
  | 0x08 => (decVImm r).map .vmaxImm
  | 0x0B => (decVImm r).map .vandImm
  | 0x0C => (decVImm r).map .vorImm
  | 0x0D => (decVImm r).map .vxorImm
  | 0x0F => (decVImm r).map .vshlImm
  | 0x10 => (decVImm r).map .vshrImm
  | 0x11 => (decVImm r).map .vsraImm
  | 0x15 => (decVCmpImm r).map .vcmpImm
  | _ => none

def cand13 (r : F1) : Option Instr :=
  match r.sub.toNat with
  | 0x00 => (decVFImm r).map .vfaddImm
  | 0x01 => (decVFImm r).map .vfsubImm
  | 0x02 => (decVFImm r).map .vfmulImm
  | 0x03 => (decVFTernImm r).map .vffmaImm
  | 0x04 => (decVFImm r).map .vfminImm
  | 0x05 => (decVFImm r).map .vfmaxImm
  | 0x08 => (decVCmpImm r).map .vfcmpImm
  | _ => none

def cand1 (r : F1) : Option Instr :=
  match r.op.toNat with
  | 0x00 => cand10 r
  | 0x02 => cand12 r
  | 0x03 => cand13 r
  | _ => none

def cand20 (r : F2) : Option Instr :=
  match r.sub.toNat with
  | 0x00 => (decSLong r).map .smovImm64
  | 0x01 => (decMLong r).map .mmovImm64
  | _ => none

def cand2 (r : F2) : Option Instr :=
  match r.op.toNat with
  | 0x00 => cand20 r
  | _ => none

def cand30 (r : F3) : Option Instr :=
  match r.sub.toNat with
  | 0x00 => (decMem r).map .vld
  | _ => none

def cand31 (r : F3) : Option Instr :=
  match r.sub.toNat with
  | 0x00 => (decMem r).map .vst
  | _ => none

def cand32 (r : F3) : Option Instr :=
  (decAtom r).map .vatom

def cand33 (r : F3) : Option Instr :=
  match r.sub.toNat with
  | 0x00 => (decScr r).map .vlds
  | _ => none

def cand34 (r : F3) : Option Instr :=
  match r.sub.toNat with
  | 0x00 => (decScr r).map .vsts
  | _ => none

def cand35 (r : F3) : Option Instr :=
  (decScrAtom r).map .vatoms

def cand36 (r : F3) : Option Instr :=
  match r.sub.toNat with
  | 0x00 => (decTMem r).map .tld
  | _ => none

def cand37 (r : F3) : Option Instr :=
  match r.sub.toNat with
  | 0x00 => (decTMem r).map .tst
  | _ => none

def cand38 (r : F3) : Option Instr :=
  match r.sub.toNat with
  | 0x00 => (decPref r).map .vprefL1
  | 0x01 => (decPref r).map .vprefLlc
  | _ => none

def cand39 (r : F3) : Option Instr :=
  match r.sub.toNat with
  | 0x00 => (decBSet r).map .bset
  | _ => none

def cand3A (r : F3) : Option Instr :=
  match r.sub.toNat with
  | 0x00 => some (.phaseBlk ⟨r.s, r.g⟩)
  | 0x01 => some (.phaseDie ⟨r.s, r.g⟩)
  | _ => none

def cand3 (r : F3) : Option Instr :=
  match r.op.toNat with
  | 0x00 => cand30 r
  | 0x01 => cand31 r
  | 0x02 => cand32 r
  | 0x03 => cand33 r
  | 0x04 => cand34 r
  | 0x05 => cand35 r
  | 0x06 => cand36 r
  | 0x07 => cand37 r
  | 0x08 => cand38 r
  | 0x09 => cand39 r
  | 0x0A => cand3A r
  | _ => none

def cand40 (r : F4) : Option Instr :=
  match r.sub.toNat with
  | 0x00 => (decBr r).map .br
  | 0x01 => (decBrM r).map .brmz
  | 0x02 => (decBrM r).map .brmnz
  | 0x03 => (decCall r).map .call
  | 0x04 => (decSSrc4 r).map .ret
  | 0x05 => (decSSrc4 r).map .jmp
  | _ => none

def cand4 (r : F4) : Option Instr :=
  match r.op.toNat with
  | 0x00 => cand40 r
  | _ => none

def cand50 (r : F5) : Option Instr :=
  match r.sub.toNat with
  | 0x00 => (decTcSet r).map .tcset
  | _ => none

def cand51 (r : F5) : Option Instr :=
  match r.sub.toNat with
  | 0x00 => (decTZero r).map .tzero
  | _ => none

def cand52 (r : F5) : Option Instr :=
  match r.sub.toNat with
  | 0x00 => (decTmma r).map .tmma
  | 0x01 => (decTmmaSparse r).map .tmmaSparse
  | _ => none

def cand53 (r : F5) : Option Instr :=
  match r.sub.toNat with
  | 0x00 => (decTConv r).map .tconv
  | _ => none

def cand54 (r : F5) : Option Instr :=
  match r.sub.toNat with
  | 0x00 => (decTDraw r).map .tdraw
  | _ => none

def cand55 (r : F5) : Option Instr :=
  match r.sub.toNat with
  | 0x00 => (decTMovTv r).map .tmovTv
  | 0x01 => (decTMovVt r).map .tmovVt
  | _ => none

def cand5 (r : F5) : Option Instr :=
  match r.op.toNat with
  | 0x00 => cand50 r
  | 0x01 => cand51 r
  | 0x02 => cand52 r
  | 0x03 => cand53 r
  | 0x04 => cand54 r
  | 0x05 => cand55 r
  | _ => none

def cand60 (r : F6) : Option Instr :=
  match r.sub.toNat with
  | 0x00 => (decQRes r).map .qres
  | 0x01 => (decQPut r).map .qput
  | 0x02 => (decQElem r).map .qpush
  | 0x03 => (decQElem r).map .qget
  | 0x04 => (decQPeek r).map .qpeek
  | 0x05 => (decQCount r).map .qcount
  | 0x06 => (decQAll r).map .qsleep
  | 0x07 => (decQAll r).map .qwake
  | 0x08 => if r.imm = 1 then (decQRelMrg r).map .qrelMrg else (decQRel r).map .qrel
  | 0x09 => some (.qfence ⟨r.s, r.g⟩)
  | 0x0A => (decQMerge r).map .qmerge
  | 0x0B => (decQScatter r).map .qscatter
  | 0x0C => (decQCurRd r).map .qcurrd
  | 0x0D => (decQCurWr r).map .qcurwr
  | _ => none

def cand61 (r : F6) : Option Instr :=
  match r.sub.toNat with
  | 0x00 => (decTCopy r).map .tcopy
  | 0x01 => (decTWait r).map .twait
  | 0x02 => (decTWaitImm r).map .twaitImm
  | 0x03 => (decTLrd r).map .tlrd
  | _ => none

def cand62 (r : F6) : Option Instr :=
  match r.sub.toNat with
  | 0x00 => (decXLook r).map .xlook
  | 0x01 => (decXLook r).map .xlookHold
  | 0x02 => (decXDrop r).map .xdrop
  | 0x03 => (decXPark r).map .xpark
  | 0x04 => (decXOp r).map .xfetch
  | 0x05 => (decXOpD r).map .xpin
  | 0x06 => (decXOp r).map .xunpin
  | 0x07 => (decXOpD r).map .xstat
  | _ => none

def cand63 (r : F6) : Option Instr :=
  match r.sub.toNat with
  | 0x00 => (decQRes r).map .qsysRes
  | 0x01 => (decQPut r).map .qsysPut
  | 0x02 => (decQElem r).map .qsysPush
  | 0x03 => (decQElem r).map .qsysGet
  | 0x04 => (decQPeek r).map .qsysPeek
  | 0x05 => (decQCount r).map .qsysCount
  | 0x06 => (decQAll r).map .qsysSleep
  | 0x07 => (decQAll r).map .qsysWake
  | 0x08 => (decQSysRel r).map .qsysRel
  | 0x09 => some (.qsysFence ⟨r.s, r.g⟩)
  | 0x0A => (decQMerge r).map .qsysMerge
  | _ => none

def cand64 (r : F6) : Option Instr :=
  match r.sub.toNat with
  | 0x00 => (decClaim r).map .claim
  | _ => none

def cand6 (r : F6) : Option Instr :=
  match r.op.toNat with
  | 0x00 => cand60 r
  | 0x01 => cand61 r
  | 0x02 => cand62 r
  | 0x03 => cand63 r
  | 0x04 => cand64 r
  | _ => none

def cand70 (r : F7) : Option Instr :=
  match r.sub.toNat with
  | 0x00 => (decSrd r).map .srd
  | 0x01 => (decSwr r).map .swr
  | _ => none

def cand71 (r : F7) : Option Instr :=
  match r.sub.toNat with
  | 0x00 => (decSafept r).map .safept
  | 0x01 => some (.exit r.s)
  | 0x02 => (decBar r).map .sbwait
  | 0x03 => (decBar r).map .sbmark
  | 0x04 => (decTrapCode r).map .trap
  | 0x05 => some (.tret r.s)
  | 0x06 => (decSSrc7 r).map .tretReg
  | 0x07 => some (.brk r.s)
  | _ => none

def cand7 (r : F7) : Option Instr :=
  match r.op.toNat with
  | 0x00 => cand70 r
  | 0x01 => cand71 r
  | _ => none

/-- The instruction that the format, the opcode and the subop of a word name, with the operands its fields hold;
fields that the instruction does not use are not looked at here. -/
def candidate (w : W96) : Option Instr :=
  match (w.extractLsb' 88 3).toNat with
  | 0 => cand0 (F0.unpack w)
  | 1 => cand1 (F1.unpack w)
  | 2 => cand2 (F2.unpack w)
  | 3 => cand3 (F3.unpack w)
  | 4 => cand4 (F4.unpack w)
  | 5 => cand5 (F5.unpack w)
  | 6 => cand6 (F6.unpack w)
  | _ => cand7 (F7.unpack w)

/-- The word of an instruction; an event of the device has none. -/
def encode : Instr → Option W96
  | .reset => none
  | .lehrStageAEnd => none
  | .socketBringUp => none
  | .stageCWipeEnd => none
  | .clusterWake => none
  | .clusterWakeRequest => none
  | .clusterGate => none
  | .hostConfigRequest => none
  | .dievfReqWrite => none
  | .powerStepDown => none
  | .powerStepUp => none
  | .thermalThrottle => none
  | .thermalRecover => none
  | .thermalTrip => none
  | .thermrecWrite => none
  | .homeFailure => none
  | .objectEvacuate => none
  | .qttShootdown => none
  | .queueCreate => none
  | .queueClose => none
  | .queueDestroy => none
  | .queueForce => none
  | .queueReserve => none
  | .queueWrite => none
  | .queuePush => none
  | .queueDequeue => none
  | .queuePeek => none
  | .queueCount => none
  | .queueSleep => none
  | .queueWake => none
  | .sleeperWithdraw => none
  | .queueRelease => none
  | .mergeRelease => none
  | .marverEvictionArrival => none
  | .roundClose => none
  | .sleeperParkRetry => none
  | .replyReceive => none
  | .wakeReceive => none
  | .linkTraining => none
  | .fabcfgWrite => none
  | .messageAdmit => none
  | .switchForward => none
  | .frameReceive => none
  | .authFailLinkDown => none
  | .ackSend => none
  | .ackReceive => none
  | .retransmitTimeout => none
  | .flushArrival => none
  | .flushackReceive => none
  | .flushRetransmit => none
  | .rateTick => none
  | .unreachableDeclare => none
  | .fabunrWrite => none
  | .flowresetRequest => none
  | .flowresetAnswer => none
  | .flowresetRetry => none
  | .keyInstall => none
  | .keySwitch => none
  | .keyRetire => none
  | .frameCounterExhaust => none
  | .linkFailure => none
  | .flnkDisableWrite => none
  | .accessTableWrite => none
  | .lockInterface => none
  | .startInterface => none
  | .stopInterface => none
  | .getInterfaceReport => none
  | .tenantWipe => none
  | .bindingWrite => none
  | .apertureDoorbell => none
  | .apertureStatus => none
  | .windowAccess => none
  | .asidnew => none
  | .asidfree => none
  | .objnew => none
  | .objfree => none
  | .qnew => none
  | .qfree => none
  | .handles => none
  | .getVersion => none
  | .getCapabilities => none
  | .negotiateAlgorithms => none
  | .getDigests => none
  | .getCertificate => none
  | .challenge => none
  | .getMeasurements => none
  | .keyExchange => none
  | .finish => none
  | .keyUpdate => none
  | .endSession => none
  | .keyProg => none
  | .provision => none
  | .deploy => none
  | .undeploy => none
  | .returnModule => none
  | .fwstage => none
  | .mbReset => none
  | .dieoff => none
  | .mbnonceRead => none
  | .tierQuotaWrite => none
  | .atsInvalidation => none
  | .pageResponse => none
  | .farTierTimeout => none
  | .farTierLinkDown => none
  | .startElementConsume => none
  | .blockClaim => none
  | .drrBind => none
  | .preemptDecision => none
  | .bindRecordWrite => none
  | .preempt => none
  | .killblk => none
  | .killgrp => none
  | .resumegrp => none
  | .drainComplete => none
  | .saveComplete => none
  | .blockRetire => none
  | .eventRingHeadWrite => none
  | .retiredEvent => none
  | .faultEvent => none
  | .watchdogExpiry => none
  | .gangstart => none
  | .gangAck => none
  | .gangTimeout => none
  | .gangDone => none
  | .gangabort => none
  | .gangFinalStatus => none
  | .register => none
  | .unregister => none
  | .split => none
  | .unsplit => none
  | .evict => none
  | .pool => none
  | .fetchFrameTake => none
  | .evictionDone => none
  | .fetchLanding => none
  | .resultReturn => none
  | .faultResolve => none
  | .translationShootdown => none
  | .claimServe => none
  | .clusterFuse => none
  | .copyComplete => none
  | .dispatchComplete => none
  | .scrub => none
  | .uncorrectableError => none
  | .sampleExpiry => none
  | .smpcfgWrite => none
  | .fdrbaseWrite => none
  | .dbgctlHaltWrite => none
  | .imgloadWrite => none
  | .imageLoad => none
  | .registerWrite => none
  | .nop sw => some (F0.pack { s := sw })
  | .sadd o => some (encSBin 0x01 o)
  | .saddImm o => some (encSImm 0x01 o)
  | .ssub o => some (encSBin 0x02 o)
  | .ssubImm o => some (encSImm 0x02 o)
  | .smul o => some (encSBin 0x03 o)
  | .smulImm o => some (encSImm 0x03 o)
  | .smulh o => some (encSBin 0x04 o)
  | .smulhImm o => some (encSImm 0x04 o)
  | .sdiv o => some (encSBin 0x05 o)
  | .sdivImm o => some (encSImm 0x05 o)
  | .srem o => some (encSBin 0x06 o)
  | .sremImm o => some (encSImm 0x06 o)
  | .smin o => some (encSBin 0x07 o)
  | .sminImm o => some (encSImm 0x07 o)
  | .smax o => some (encSBin 0x08 o)
  | .smaxImm o => some (encSImm 0x08 o)
  | .sand o => some (encSBin 0x09 o)
  | .sandImm o => some (encSImm 0x09 o)
  | .sor o => some (encSBin 0x0A o)
  | .sorImm o => some (encSImm 0x0A o)
  | .sxor o => some (encSBin 0x0B o)
  | .sxorImm o => some (encSImm 0x0B o)
  | .sshl o => some (encSBin 0x0C o)
  | .sshlImm o => some (encSImm 0x0C o)
  | .sshr o => some (encSBin 0x0D o)
  | .sshrImm o => some (encSImm 0x0D o)
  | .ssra o => some (encSBin 0x0E o)
  | .ssraImm o => some (encSImm 0x0E o)
  | .srotl o => some (encSBin 0x0F o)
  | .srotlImm o => some (encSImm 0x0F o)
  | .sclz o => some (encSUn 0x10 o)
  | .spopc o => some (encSUn 0x11 o)
  | .ssel o => some (encSSel o)
  | .sselImm o => some (encSSelImm o)
  | .scmp o => some (encSCmp o)
  | .scmpImm o => some (encSCmpImm o)
  | .smov o => some (encSUn 0x14 o)
  | .smovImm64 o => some (encSLong o)
  | .sofs o => some (encSBin 0x15 o)
  | .sofsImm o => some (encSImm 0x15 o)
  | .mand o => some (encMBin 0x00 o)
  | .mor o => some (encMBin 0x01 o)
  | .mxor o => some (encMBin 0x02 o)
  | .mandn o => some (encMBin 0x03 o)
  | .mnot o => some (encMUn 0x04 o)
  | .mmov o => some (encMUn 0x05 o)
  | .mmovImm64 o => some (encMLong o)
  | .mrdem o => some (encMDst o)
  | .mwrem o => some (encMSrc o)
  | .mpopc o => some (encMToS 0x08 o)
  | .mffs o => some (encMToS 0x09 o)
  | .mfroms o => some (encSToM o)
  | .mtos o => some (encMToS 0x0B o)
  | .br o => some (encBr o)
  | .brmz o => some (encBrM 0x01 o)
  | .brmnz o => some (encBrM 0x02 o)
  | .call o => some (encCall o)
  | .ret o => some (encSSrc4 0x04 o)
  | .jmp o => some (encSSrc4 0x05 o)
  | .srd o => some (encSrd o)
  | .swr o => some (encSwr o)
  | .safept o => some (encSafept o)
  | .exit sw => some (F7.pack { s := sw, op := 1, sub := 1 })
  | .sbwait o => some (encBar 0x02 o)
  | .sbmark o => some (encBar 0x03 o)
  | .trap o => some (encTrapCode o)
  | .tret sw => some (F7.pack { s := sw, op := 1, sub := 5 })
  | .tretReg o => some (encSSrc7 o)
  | .brk sw => some (F7.pack { s := sw, op := 1, sub := 7 })
  | .vadd o => some (encVBin 0x00 o)
  | .vaddImm o => some (encVImm 0x00 o)
  | .vsub o => some (encVBin 0x01 o)
  | .vsubImm o => some (encVImm 0x01 o)
  | .vmul o => some (encVBin 0x02 o)
  | .vmulImm o => some (encVImm 0x02 o)
  | .vmulh o => some (encVBin 0x03 o)
  | .vmulhImm o => some (encVImm 0x03 o)
  | .vmad o => some (encVTern o)
  | .vmadImm o => some (encVTernImm o)
  | .vdiv o => some (encVBin 0x05 o)
  | .vdivImm o => some (encVImm 0x05 o)
  | .vrem o => some (encVBin 0x06 o)
  | .vremImm o => some (encVImm 0x06 o)
  | .vmin o => some (encVBin 0x07 o)
  | .vminImm o => some (encVImm 0x07 o)
  | .vmax o => some (encVBin 0x08 o)
  | .vmaxImm o => some (encVImm 0x08 o)
  | .vabs o => some (encVUn 0x02 0x09 o)
  | .vneg o => some (encVUn 0x02 0x0A o)
  | .vand o => some (encVBin 0x0B o)
  | .vandImm o => some (encVImm 0x0B o)
  | .vor o => some (encVBin 0x0C o)
  | .vorImm o => some (encVImm 0x0C o)
  | .vxor o => some (encVBin 0x0D o)
  | .vxorImm o => some (encVImm 0x0D o)
  | .vnot o => some (encVUn 0x02 0x0E o)
  | .vshl o => some (encVBin 0x0F o)
  | .vshlImm o => some (encVImm 0x0F o)
  | .vshr o => some (encVBin 0x10 o)
  | .vshrImm o => some (encVImm 0x10 o)
  | .vsra o => some (encVBin 0x11 o)
  | .vsraImm o => some (encVImm 0x11 o)
  | .vclz o => some (encVUn 0x02 0x12 o)
  | .vpopc o => some (encVUn 0x02 0x13 o)
  | .vsel o => some (encVSel o)
  | .vcmp o => some (encVCmp 0x02 0x15 o)
  | .vcmpImm o => some (encVCmpImm 0x02 0x15 o)
  | .vmov o => some (encVUn 0x02 0x16 o)
  | .vmovs o => some (encVMovS o)
  | .vfadd o => some (encVFBin 0x00 o)
  | .vfaddImm o => some (encVFImm 0x00 o)
  | .vfsub o => some (encVFBin 0x01 o)
  | .vfsubImm o => some (encVFImm 0x01 o)
  | .vfmul o => some (encVFBin 0x02 o)
  | .vfmulImm o => some (encVFImm 0x02 o)
  | .vffma o => some (encVFTern o)
  | .vffmaImm o => some (encVFTernImm o)
  | .vfmin o => some (encVFBin 0x04 o)
  | .vfminImm o => some (encVFImm 0x04 o)
  | .vfmax o => some (encVFBin 0x05 o)
  | .vfmaxImm o => some (encVFImm 0x05 o)
  | .vfabs o => some (encVUn 0x03 0x06 o)
  | .vfneg o => some (encVUn 0x03 0x07 o)
  | .vfcmp o => some (encVCmp 0x03 0x08 o)
  | .vfcmpImm o => some (encVCmpImm 0x03 0x08 o)
  | .vcvt o => some (encVcvt o)
  | .vex2 o => some (encVSfu 0x00 o)
  | .vlg2 o => some (encVSfu 0x01 o)
  | .vrcp o => some (encVSfu 0x02 o)
  | .vrsq o => some (encVSfu 0x03 o)
  | .vsqrt o => some (encVSfu 0x04 o)
  | .vfdiv o => some (encVSfu2 o)
  | .vperm o => some (encVPair 0x00 o)
  | .vbcast o => some (encVPair 0x01 o)
  | .vscan o => some (encVScan o)
  | .vred o => some (encVRed o)
  | .vtopk o => some (encVTopk o)
  | .vhist o => some (encVHist o)
  | .vdraw o => some (encVDraw o)
  | .dmerge o => some (encDMerge o)
  | .wclr h => some (F0.pack { s := h.sw, g := h.g, op := 8 })
  | .wadd o => some (encVSrcW 0x01 (Ty.code .f32) o)
  | .wdot o => some (encVSrc2 o)
  | .wrnd o => some (encWRnd o)
  | .wget o => some (encVDst o)
  | .wset o => some (encVSrcW 0x05 0 o)
  | .vld o => some (encMem 0x00 o)
  | .vst o => some (encMem 0x01 o)
  | .vatom o => some (encAtom o)
  | .vlds o => some (encScr 0x03 o)
  | .vsts o => some (encScr 0x04 o)
  | .vatoms o => some (encScrAtom o)
  | .tld o => some (encTMem 0x06 o)
  | .tst o => some (encTMem 0x07 o)
  | .vprefL1 o => some (encPref 0x00 o)
  | .vprefLlc o => some (encPref 0x01 o)
  | .bset o => some (encBSet o)
  | .phaseBlk h => some (F3.pack { s := h.sw, g := h.g, op := 10 })
  | .phaseDie h => some (F3.pack { s := h.sw, g := h.g, op := 10, sub := 1 })
  | .claim o => some (encClaim o)
  | .tcopy o => some (encTCopy o)
  | .twait o => some (encTWait o)
  | .twaitImm o => some (encTWaitImm o)
  | .tlrd o => some (encTLrd o)
  | .tcset o => some (encTcSet o)
  | .tzero o => some (encTZero o)
  | .tmma o => some (encTmma o)
  | .tmmaSparse o => some (encTmmaSparse o)
  | .tconv o => some (encTConv o)
  | .tdraw o => some (encTDraw o)
  | .tmovTv o => some (encTMovTv o)
  | .tmovVt o => some (encTMovVt o)
  | .xlook o => some (encXLook 0x00 o)
  | .xlookHold o => some (encXLook 0x01 o)
  | .xdrop o => some (encXDrop o)
  | .xpark o => some (encXPark o)
  | .xfetch o => some (encXOp 0x04 o)
  | .xpin o => some (encXOpD 0x05 o)
  | .xunpin o => some (encXOp 0x06 o)
  | .xstat o => some (encXOpD 0x07 o)
  | .qres o => some (encQRes 0x00 o)
  | .qput o => some (encQPut 0x00 o)
  | .qpush o => some (encQElem 0x00 0x02 o)
  | .qget o => some (encQElem 0x00 0x03 o)
  | .qpeek o => some (encQPeek 0x00 o)
  | .qcount o => some (encQCount 0x00 o)
  | .qsleep o => some (encQAll 0x00 0x06 o)
  | .qwake o => some (encQAll 0x00 0x07 o)
  | .qrel o => some (encQRel o)
  | .qrelMrg o => some (encQRelMrg o)
  | .qfence h => some (F6.pack { s := h.sw, g := h.g, sub := 9 })
  | .qmerge o => some (encQMerge 0x00 o)
  | .qscatter o => some (encQScatter o)
  | .qcurrd o => some (encQCurRd o)
  | .qcurwr o => some (encQCurWr o)
  | .qsysRes o => some (encQRes 0x03 o)
  | .qsysPut o => some (encQPut 0x03 o)
  | .qsysPush o => some (encQElem 0x03 0x02 o)
  | .qsysGet o => some (encQElem 0x03 0x03 o)
  | .qsysPeek o => some (encQPeek 0x03 o)
  | .qsysCount o => some (encQCount 0x03 o)
  | .qsysSleep o => some (encQAll 0x03 0x06 o)
  | .qsysWake o => some (encQAll 0x03 0x07 o)
  | .qsysRel o => some (encQSysRel o)
  | .qsysFence h => some (F6.pack { s := h.sw, g := h.g, op := 3, sub := 9 })
  | .qsysMerge o => some (encQMerge 0x03 o)
  | .frameAlignmentLoss => none
  | .farTierLinkUp => none
  | .tileInstructionRetire => none
  | .copyChunk => none
  | .publishLineAccept => none
  | .atomicPerform => none

/-- Why a word is no instruction (R302, R348). -/
inductive Reject
  /-- The format, OP and SUB name no operation, or a type, condition or register code has no meaning. -/
  | unassigned
  /-- A reserved field is nonzero, or a field holds a value the instruction does not accept. -/
  | reserved
  deriving DecidableEq, Repr

/-- The decoder: a word is an instruction exactly when it is the encoding of a well-formed instruction (R302). -/
def decode (w : W96) : Except Reject Instr :=
  match candidate w with
  | none => .error .unassigned
  | some i => if i.wf && encode i == some w then .ok i else .error .reserved

/-- The word in 12 bytes, little-endian (R2, R296). -/
def wordOfBytes (bs : List W8) : W96 :=
  bs.foldr (fun b w => (w <<< 8) ||| b.setWidth 96) 0

/-- The instruction of a row of spec/opcode_table.json whose bits are `w`; the bits above `nbits` are zero. -/
def decodeTableWord (nbits w : Nat) : Option Instr :=
  match decode (wordOfBytes ((List.range 12).map fun k => BitVec.ofNat 8 (w % 2 ^ nbits / 2 ^ (8 * k)))) with
  | .ok i => some i
  | .error _ => none

end Sys2Proof
end

