-- ==== Sys2Proof/Machine/State.lean ====
section
/-! DEFINITION. The state of the machine as plain data: groups and blocks, cores, queues, the fabric, the engines of a
die, the firmware's launch state, the tenant interfaces and the module's management, with the reset state. -/
namespace Sys2Proof.Machine

/-- Memory: bytes at rising addresses; an address that is not listed reads zero, and no listed byte is zero (log 4: DESIGN CHOICE). -/
abbrev Mem := List Host.Cell

/-! ### Queue operations, messages and homes (R26 to R58, R63 to R73) -/

/-- Who waits for the answer to a request: a group's operation by its context, a row of a dispatch, the landing slot of a
fetch, an aperture, or the firmware that reports a completion (R120). -/
inductive Requester
  | group (ctx : Nat) (op : Nat)
  | dispatch (die : Nat) (disp : Nat)
  | fetch (die : Nat) (id : Nat)
  | aperture (tenant : Nat) (k : Nat)
  | notice (die : Nat)
  | none
  deriving DecidableEq, Repr

/-- The message types of R64 that queue operations, flushes and acknowledgements use. -/
inductive MsgType
  | write | reserve | push | dequeue | merge | release | sleep | flush | reply | wake | flushAck | ack | flowReset
  deriving DecidableEq, Repr

/-- A message (R63, R64). `mode` is ARG [1:0] of a DEQUEUE and of a SLEEP, `code` is bits [83:78] of an answer, `num` a
flush number or the request's FSEQ that an answer names, and `entry` a sleeper entry. `ctx` names who asks. `parts` are
the contributions that a merge release brings with it (R50), and `by_` the contexts whose contributions a message carries. -/
structure Msg where
  flow : Flow := {}
  typ : MsgType
  port : W4 := 0
  queue : W16 := 0
  tenant : W6 := 0
  fseq : W16 := 0
  try_ : Bool := false
  n : Nat := 0
  mode : Nat := 0
  seq : BitVec 48 := 0
  ticket : W64 := 0
  key : W8 := 0
  esz : Option W3 := none
  data : List W8 := []
  code : W8 := 0
  num : Nat := 0
  entry : Nat := 0
  withdraw : Bool := false
  echo : Bool := false
  mrg : Bool := false
  parts : List (W8 × List W8) := []
  by_ : List Nat := []
  ctx : Requester := .none
  /-- The device tenant sends it, so that its TENANT is the DEVTEN of its leaving (R103). -/
  dev : Bool := false
  /-- The ASID and the QTT index through which its operation was translated (R30). -/
  via : Option (BitVec 12 × Nat) := none
  deriving DecidableEq, Repr

/-- What a queue instruction asks for (R439). -/
inductive QKind
  | res | put | push | get | peek | count | sleep | wake | rel | relMrg | merge | fence
  deriving DecidableEq, Repr

/-- Where a queue operation stands: held back at the source (R238, R453), sent, asleep at its home on an entry, or
parked at its core until a clock value (R46). -/
inductive QState
  | held
  | sent (flow : Flow)
  | asleep (flow : Flow) (port : W4) (entry : Nat)
  | parked (until_ : Nat)
  deriving DecidableEq, Repr

/-- A queue operation of a group with the operands captured at issue (R439, R441). -/
structure QOp where
  kind : QKind
  pqid : W32 := 0
  handle : W32 := 0
  tenant : W6 := 0
  d : SReg := 0
  v : VReg := 0
  esz : W3 := 0
  try_ : Bool := false
  all : Bool := false
  n : Nat := 0
  seq : BitVec 48 := 0
  ticket : W64 := 0
  key : W8 := 0
  data : List W8 := []
  /-- The flush that a release waits for (R72). -/
  num : Nat := 0
  lanes : W32 := 0
  st : QState := .held
  /-- The status, the sequence number and the ticket of a wake that came while the group was saved (R47). -/
  woken : Option (W8 × W64 × W64) := none
  deriving DecidableEq, Repr

/-- A sequence number of a queue between H and T (R39). -/
inductive QSlot
  | granted (owner : Requester)
  | filled (data : List W8)
  | void
  deriving DecidableEq, Repr

/-- STATE of a queue descriptor (R34). -/
inductive QLife
  | free | active | closing | lost
  deriving DecidableEq, Repr

/-- A queue: its descriptor (R34), its slots and data, its accumulators and combine count, the releases held while a
round waits for space, and the refusals that wait for a release of their source (R51, R52, R448). -/
structure Queue where
  state : QLife := .free
  esize : W3 := 0
  kind : W3 := 0
  wakeAll : Bool := false
  sys : Bool := false
  tenant : W6 := 0
  asid : BitVec 12 := 0
  spillN : Nat := 0
  winM1 : Nat := 0
  winOff : Nat := 0
  spillBase : W64 := 0
  head : BitVec 48 := 0
  tail : BitVec 48 := 0
  keysM1 : W8 := 0
  fanin : Nat := 0
  round : Nat := 0
  coinKey : W64 := 0
  ctrBase : W64 := 0
  /-- The words whose reserved fields were last written nonzero (R3, R55). -/
  rsv : W8 := 0
  slots : Tbl QSlot := []
  acc : Tbl (List W8) := []
  combines : Nat := 0
  heldRel : List Msg := []
  refused : List (Flow × W8) := []
  deriving DecidableEq, Repr

/-- What a sleeper waits to do (R44, R73). -/
inductive SleepKind
  | reserve (n : Nat)
  | push (data : List W8)
  | dequeue
  | sleep
  deriving DecidableEq, Repr

/-- A sleeper entry (R44), in the order the sleepers slept; `woken` holds the status and the ticket or the sequence number
of a wake that its context has not yet taken (R47). Operation 0 of a context stands for one that a save has ended and that
the context has yet to issue again (R458). -/
structure Sleeper where
  entry : Nat
  queue : Nat
  who : Requester
  flow : Flow
  kind : SleepKind
  all : Bool
  woken : Option (W8 × W64) := none
  deriving DecidableEq, Repr

/-- A marver entry (R50): the queue, the key, the value, the combines since it was allocated, and the contexts that have
contributed. -/
structure MarEntry where
  pqid : W32
  tenant : W6
  key : W8
  kind : W3
  data : List W8
  combines : Nat
  by_ : List Nat := []
  /-- The contributions are the device tenant's (R103). -/
  dev : Bool := false
  deriving DecidableEq, Repr

/-- RESULT of QPCMD (R54). -/
inductive QpResult
  | done | busy | descError | poolExhausted | wrongState
  deriving DecidableEq, Repr

/-- A queue port: QPCMD, QPCNT, the sleeper entries, and the marver with its most recently used entry first. -/
structure Port where
  result : QpResult := .done
  op : W4 := 0
  queue : W16 := 0
  slpovf : W16 := 0
  stale : W16 := 0
  voids : W16 := 0
  late : W16 := 0
  sleepers : List Sleeper := []
  marver : List MarEntry := []
  deriving DecidableEq, Repr

/-! ### The fabric (R59 to R85) -/

/-- A message that its source keeps until an ACK covers it (R69). -/
structure Unacked where
  msg : Msg
  link : Nat
  sentAt : Nat
  firstAt : Nat
  deriving DecidableEq, Repr

/-- A request that awaits its REPLY (R69, R73): who asked, and where it went. -/
structure Asked where
  fseq : W16
  who : Requester
  typ : MsgType
  port : W4 := 0
  queue : W16 := 0
  tenant : W6 := 0
  entry : Nat := 0
  dev : Bool := false
  deriving DecidableEq, Repr

/-- A flush that has not returned FLUSHACK (R71); it has no paths before its markers are admitted (R75). -/
structure FlushOut where
  num : Nat
  fseq : W16
  tenant : W6
  paths : List Nat
  sentAt : Nat
  dev : Bool := false
  deriving DecidableEq, Repr

/-- The markers of a flush that a destination has gathered (R71). -/
structure FlushIn where
  num : Nat
  fseq : W16
  total : Nat
  paths : List Nat
  done : Bool
  deriving DecidableEq, Repr

/-- A cell (R63): its header and its payload, both little-endian. -/
structure Cell where
  hdr : BitVec 128
  payload : BitVec 512
  deriving DecidableEq, Repr

/-- A flow as its source and its destination keep it. A flow inside the package uses only `next`, `arrived`, `answers` and
the flushes (R62). -/
structure FlowState where
  /-- Source: next FSEQ, messages without an ACK, requests without an answer, flushes without FLUSHACK, and whether a
  FLOWRESET answer is awaited since a time. -/
  next : W16 := 0
  unacked : List Unacked := []
  answers : List Asked := []
  flushes : List FlushOut := []
  nextFlush : W16 := 0
  resetAt : Option Nat := none
  held : List Msg := []
  /-- The queues, by port and number, whose switch has refused a MERGE: the next merge release from here returns it (R78, R448). -/
  refusedMerge : List (W4 × W16) := []
  /-- Destination: next FSEQ to deliver, cells kept for reassembly, delivered messages that have not yet performed,
  gathered flush markers, messages delivered since the last ACK and when the first of them was, and the echoes owed. -/
  expect : W16 := 0
  reorder : List (W16 × Tbl Cell) := []
  arrived : List Msg := []
  gathered : List FlushIn := []
  toAck : Nat := 0
  ackSince : Option Nat := none
  echo : Nat := 0
  /-- The flow has been reset, and when the last request for it came: a repeated request is told so from a new one (R85, log 116: DEDUCED:
  DEDUCED). -/
  wasReset : Bool := false
  resetSeen : Nat := 0
  deriving DecidableEq, Repr

/-- A link frame (R65, R80): the key slot that its cells name in clear, the key, the nonce and the additional data under which it
was sealed (log 20: DESIGN CHOICE), and its four cells. A run stands for so many frames of IDLE cells one after another, the first
under that nonce. -/
structure LFrame where
  slot : Bool
  key : W64
  nonce : BitVec 96
  aad : BitVec 32
  cells : List Cell
  run : Nat := 1
  deriving DecidableEq, Repr

/-- LSTATE of a link (R83). -/
inductive LinkState
  | down | training | up | disabled
  deriving DecidableEq, Repr

/-- A key slot of one direction of a link (R80). -/
structure KeySlot where
  key : Option W64 := none
  ctr : Nat := 0
  deriving DecidableEq, Repr

/-- A link: FLNK (R83), its key slots, the cells that wait to be sent on it, its last-hop switch, and the frames on their way to
this package. -/
structure Link where
  state : LinkState := .down
  disable : Bool := false
  autherr : W16 := 0
  downs : W16 := 0
  malf : W16 := 0
  tx0 : KeySlot := {}
  tx1 : KeySlot := {}
  rx0 : KeySlot := {}
  rx1 : KeySlot := {}
  txKey : Bool := false
  /-- Consecutive frames received under the slot named, and sent under the slot in use; the slots whose new key is to replace
  the other's (R81). -/
  rxRun : Bool × Nat := (false, 0)
  txRun : Nat := 0
  rxNew : Option Bool := none
  txNew : Option Bool := none
  /-- Times of recent authentication failures (R82). -/
  fails : List Nat := []
  exhausted : Bool := false
  rx : List LFrame := []
  /-- The output backlog (R67), and the bytes of a frame slot that has begun, in each direction (R60). -/
  tx : List Cell := []
  txBytes : Nat := 0
  swBytes : Nat := 0
  /-- The switch: cells that have reached it, its output queue to this package, its transmitter's key slots, and the malformed
  cells that it has dropped (R64, R74). -/
  atSwitch : List Cell := []
  swOut : List Cell := []
  sw0 : KeySlot := {}
  sw1 : KeySlot := {}
  swKey : Bool := false
  swDrops : Nat := 0
  /-- The last-hop access tables of the link's switch: port × 1,024 + entry (R77). -/
  access : Tbl W64 := []
  deriving DecidableEq, Repr

/-- The rate limiter of a source die for a target package (R75), with the messages that wait for it. Times are in
nanoseconds; `tokens` counts quarters of a byte. -/
structure Limiter where
  units : Nat := 512
  lastCut : Option Nat := none
  /-- The echoes since the last tick. -/
  echoes : List Nat := []
  tokens : Int := 16384
  tokensAt : Nat := 0
  tickAt : Nat := 0
  waiting : List Msg := []
  unreachable : Bool := false
  deriving DecidableEq, Repr

/-! ### Slots, groups and blocks (R154, R175, R178) -/

/-- SSTATE of a bind record (R154). -/
inductive SState
  | empty | ready | running | draining | saving | faulted | done | retiring
  deriving DecidableEq, Repr

/-- A bind record (R154); `rsv` marks the words whose reserved fields were last written nonzero (R155). -/
structure Bind where
  sstate : SState := .empty
  resume : Bool := false
  fuse : Bool := false
  gidx : W4 := 0
  gcntm1 : W4 := 0
  lead : W4 := 0
  prio : W3 := 0
  asid : BitVec 12 := 0
  tenant : W6 := 0
  parlen : W6 := 0
  sregs : BitVec 7 := 0
  kernel : W64 := 0
  save : W64 := 0
  block : W32 := 0
  vbase16 : BitVec 7 := 0
  vreg16 : BitVec 5 := 0
  tbase : W6 := 0
  tiles : W4 := 0
  scr4k : BitVec 7 := 0
  sbase4k : W6 := 0
  cyc : Nat := 0
  node : W64 := 0
  rsv : W8 := 0
  deriving DecidableEq, Repr

/-- A translation register (R209). -/
structure TransReg where
  obj : BitVec 20 := 0
  base : BitVec 44 := 0
  pfn : BitVec 28 := 0
  lim : BitVec 20 := 0
  key : BitVec 7 := 0
  set : Bool := false
  a : Bool := false
  w : Bool := false
  r : Bool := false
  v : Bool := false
  deriving DecidableEq, Repr

/-- The wide accumulator: a 320-bit two's-complement value and its flags (R264). -/
structure Wide where
  val : BitVec 320 := 0
  nan : Bool := false
  pinf : Bool := false
  ninf : Bool := false
  deriving DecidableEq, Repr

/-- The trap frame (R282): words 0 to 6; the others read zero. -/
structure Frame where
  trapw : W64 := 0
  fpc : W64 := 0
  rpc : W64 := 0
  more : Bool := false
  em : W32 := 0
  arg0 : W64 := 0
  arg1 : W64 := 0
  bcount : BitVec 14 := 0
  deriving DecidableEq, Repr

/-- A trap to be taken (R279, R281, R282). -/
structure Trap where
  cause : W8
  code : W8 := 0
  precise : Bool := true
  lanes : W32 := 0
  fpc : W64 := 0
  rpc : W64 := 0
  arg0 : W64 := 0
  arg1 : W64 := 0
  more : Bool := false
  deriving DecidableEq, Repr

/-- A write of a vector register that a result brings, in the lanes of `mask` that are still to be written. -/
structure VWrite where
  reg : VReg
  mask : W32
  val : Vec
  deriving DecidableEq, Repr

/-- The result of an outstanding operation: register writes, sticky flags, or a fault (R185, R186). -/
structure Result where
  vw : List VWrite := []
  sw : List (SReg × W64) := []
  ff : Lanes 8 := Vector.replicate 32 0
  iff : Lanes 8 := Vector.replicate 32 0
  fault : Option Trap := none
  deriving DecidableEq, Repr

/-- What a lane of a memory instruction accesses: its offset in the object, the address it translated to, the bytes it
stores or the operand of its atomic, and the compare value. -/
structure LaneOp where
  lane : Nat
  off : Nat
  addr : Nat := 0
  data : List W8 := []
  cmp : W32 := 0
  deriving DecidableEq, Repr

/-- A memory instruction as captured at issue (R185, R218). -/
inductive MemKind
  | load (ty : Ty) (d : VReg)
  | store (width : Nat)
  | atom (op : AtomOp) (ty : Ty) (ret : Option VReg)
  | tload (t : TReg) (width : Nat)
  deriving DecidableEq, Repr

/-- The lanes of a memory instruction; `scr` says that it addresses the scratchpad. -/
structure MemOp where
  kind : MemKind
  scr : Bool := false
  obj : Nat := 0
  lanes : List LaneOp := []
  /-- Old values that performed atomics have read, lane and value. -/
  got : List (Nat × W32) := []
  deriving DecidableEq, Repr

/-- An expert instruction on its way to the ERT controller (R433). -/
inductive XKind
  | look (hold : Bool) (d : VReg)
  | drop
  | park (d : SReg)
  | fetch
  | pin (d : SReg)
  | unpin
  | stat (d : SReg)
  deriving DecidableEq, Repr

/-- What a lane of an expert instruction names (R433). -/
structure XLane where
  lane : Nat
  idx : W16
  eid : W32
  word : W32 := 0
  token : W32 := 0
  gate : W32 := 0
  user : W32 := 0
  deriving DecidableEq, Repr

/-- An outstanding variable-latency operation of a group (R185). -/
inductive OpKind
  /-- Only its result is still to come. -/
  | wait
  | mem (m : MemOp)
  | expert (k : XKind) (lanes : List XLane) (act : W32)
  | claim (d : SReg) (addr : W64) (len : W64)
  | tlrd (d : SReg) (tl : W3)
  | qcurrd (d : SReg) (w : Nat)
  | queue (q : QOp)
  deriving DecidableEq, Repr

/-- An outstanding operation: the order of its issue, its instruction's pc, the switch marker, and its result once it
has performed. -/
structure Outst where
  id : Nat
  fpc : W64
  op : OpKind
  res : Option Result := none
  deriving DecidableEq, Repr

/-- An accepted tile instruction with the operands read at issue (R187, R418). -/
inductive TileKind
  | load (m : MemOp)
  | zero (t : TReg) (mask : W32)
  | mma (o : Tmma) (mask : W32) (scales : Vec) (desc : Vec) (sb : W32)
  | sparse (o : TmmaSparse) (mask : W32) (s0 s1 : Vec) (seed : W64) (sb : W32) (base : W64)
  | conv (o : TConv) (mask : W32)
  | draw (o : TDraw) (mask : W32) (temps : Vec) (key : W64) (ofs : W32) (base : W64)
  | movTv (o : TMov) (mask : W32)
  | movVt (o : TMov) (mask : W32) (val : Vec)
  deriving DecidableEq, Repr

/-- An entry of the tile scoreboard (R188): the tiles that an unfinished instruction reads and writes. -/
structure TileOp where
  id : Nat
  fpc : W64
  reads : List Nat
  writes : List Nat
  engine : Bool
  kind : TileKind
  deriving DecidableEq, Repr

/-- A group parked on a translation fault (R217): the unfinished lanes of a captured memory instruction, or `none` for
an instruction that issues again whole (`bset`, `tcopy`, `qscatter`). -/
structure Park where
  op : Option MemOp
  id : Nat
  sw : Bool
  pageObj : Nat
  pageOff : Nat
  deriving DecidableEq, Repr

/-- What a trap that comes in the middle of an instruction leaves for the return to it (log 92: DEDUCED): the instruction's
pc, the barrier it waits at, the number its `twait` waits for, or its unfinished lanes (R168, R193, R413); `opened` says that the
barrier has released meanwhile. -/
structure Aside where
  pc : W64
  barrier : Option W4 := none
  twait : Option (W3 × BitVec 40) := none
  replay : Option W32 := none
  opened : Bool := false
  deriving DecidableEq, Repr

/-- Why the group's next instruction did not issue when it was last tried (R198). -/
inductive Stall
  | none | resource | tile | interlock | barrier | fetch
  deriving DecidableEq, Repr

/-- A phase instruction whose steps are not complete (R238): its place in the issue order, its scope, and the publish
it waits for once its step 2 has begun. -/
structure Phase where
  id : Nat
  die : Bool
  ticket : Option Nat := none
  deriving DecidableEq, Repr

/-- An outstanding `qfence`: its pc and active set, and the flushes that have not returned (R453). -/
structure Fence where
  fpc : W64
  lanes : W32
  waits : List (Flow × Nat)
  deriving DecidableEq, Repr

/-- One slot of a core: its bind record and the group it holds. -/
structure Slot where
  /-- The name of the context the slot holds (R47). -/
  ctx : Nat := 0
  bind : Bind := {}
  pc : W64 := 0
  em : W32 := 0
  v : Tbl Vec := []
  s : Tbl W64 := []
  m : Tbl W32 := []
  t : Mem := []
  tc : Tbl W64 := []
  b : Tbl TransReg := []
  wa : Wide := {}
  fflags : Lanes 8 := Vector.replicate 32 0
  iflags : Lanes 8 := Vector.replicate 32 0
  frame : Frame := {}
  inHandler : Bool := false
  held : Option Trap := none
  count : Nat := 0
  /-- The die's clock when the group last issued. -/
  last : Option Nat := none
  /-- The instruction last issued carried the switch marker (R185). -/
  marked : Bool := false
  outst : List Outst := []
  board : List TileOp := []
  /-- The deferred fault that the group will take once its results have returned (R280), with its place in the issue order. -/
  dfault : Option (Nat × Trap) := none
  /-- A fault that waits for room in the event ring (R159): the trap and the inner `$trap` of a double fault. -/
  pend : Option (Trap × Option W64) := none
  /-- The inner `$trap` of the double fault that faulted the slot (R285). -/
  inner : Option W64 := none
  /-- The slot is Faulted, also while its block drains (R157, R164). -/
  faulted : Bool := false
  barrier : Option W4 := none
  twait : Option (W3 × BitVec 40) := none
  fpark : Option Park := none
  /-- The unfinished lanes of an instruction that a restored group issues again (R168). -/
  replay : Option W32 := none
  aside : Option Aside := none
  exiting : Bool := false
  /-- A Draining group has stopped (R164); `safe` holds the live-register index of a safe point. -/
  stopped : Bool := false
  safe : Option W16 := none
  /-- The stop is a sleep: the first of the stops of R164 was that an operation of the group slept. -/
  sleepStop : Bool := false
  stall : Stall := .none
  phase : Option Phase := none
  /-- Lines that a publish of the group still has to carry, with the publish they belong to (R235). -/
  pubs : List (Nat × Nat) := []
  /-- An outstanding `qfence`, and the flows used since the last one (R453). -/
  fence : Option Fence := none
  flows : List Flow := []
  /-- Operations asleep at their homes that a restored group has yet to issue again (R458, log 13: DEDUCED). -/
  slept : List QOp := []
  /-- The dispatch cursor of R53: words 0 to 16. -/
  cursor : Tbl W64 := []
  deriving DecidableEq, Repr

/-- A named barrier (R193). -/
structure Barrier where
  exp : Nat := 0
  arr : W16 := 0
  deriving DecidableEq, Repr

/-- What a block keeps with its lead slot (R138, R160, R189, R193). -/
structure Block where
  tl : Tbl W64 := []
  /-- Numbers of operations that completed above VAL, for each counter (R190). -/
  fin : List (Nat × Nat) := []
  bars : Tbl Barrier := []
  holds : List W16 := []
  carry : Nat := 0
  /-- Groups killed by KILLGRP (R158). -/
  killed : W16 := 0
  /-- The block has been killed, and its slots wait for room for its event in the ring (R159). -/
  dead : Bool := false
  deriving DecidableEq, Repr

/-- The sampling unit of a core, armed for a tenant (R197). -/
structure Sampling where
  countdown : Nat := 0
  /-- The expiries whose samples are still to be taken, by the die's clock. -/
  due : List Nat := []
  lastSlot : Option W4 := none
  deriving DecidableEq, Repr

/-- A core: its cluster's state, its L1 and its matrix engine (R153, R174, R203). -/
structure Core where
  awake : Bool := false
  fused : Bool := false
  /-- Performed, unpublished stored bytes in the order they performed: address, byte, slot (R234). -/
  dirty : List (Nat × W8 × Nat) := []
  /-- The bytes, each with a slot, for which the slot has refreshed at block scope after a group of its block stored there later
  than it has itself: address and slot (R237). -/
  yields : List (Nat × Nat) := []
  /-- For each byte, the oldest value at its memory point that a read on the core may still return (R236). -/
  snap : Mem := []
  /-- Accepted matrix instructions in order of acceptance: slot and operation (R174). -/
  engine : List (Nat × Nat) := []
  samp : Tbl Sampling := []
  /-- The cycle of the die's clock in which the core last tried its groups, and what it issued then: the slot, whether a
  pair, and the pc (R169, R170). -/
  cycle : Option Nat := none
  issued : Option (Nat × Bool × W64) := none
  /-- Bit errors that the next fetches of a line by the core meet: the ASID, the line, and how many fetches in a row fail
  (R292). -/
  flaws : List (Nat × W64 × Nat) := []
  deriving DecidableEq, Repr

/-! ### Memory objects (R205 to R208) -/

/-- STATE and KIND of an object descriptor (R206). -/
inductive ObjState
  | invalid | valid | moving | lost
  deriving DecidableEq, Repr

inductive ObjKind
  | die | host | far
  deriving DecidableEq, Repr

/-- An extent record (R208): the run's first page in the object, its granule in 4 KiB pages and its presence, its length in granules and
its first physical page. -/
structure Extent where
  offpg : Nat
  gran : Nat
  p : Bool
  z : Bool
  ngm1 : Nat
  pfn : Nat
  deriving DecidableEq, Repr

/-- An object descriptor (R206) with the extent records its EXTBASE names. -/
structure Obj where
  state : ObjState := .invalid
  kind : ObjKind := .die
  x : Bool := false
  a : Bool := false
  w : Bool := false
  r : Bool := false
  key : Nat := 0
  home : Nat := 0
  bound : Nat := 0
  extbase : W64 := 0
  exts : List Extent := []
  /-- The copies of a code object in the homes of the other online dies (R314). -/
  copies : Tbl (List Extent) := []
  /-- An evacuation made it a far-tier object, so a claim brings it back (R227). -/
  evac : Bool := false
  deriving DecidableEq, Repr

/-- A QTT entry (R28). `left` has the dies whose shootdown of a retired entry is still to complete (R30). -/
structure Qtte where
  gen : W16 := 0
  rights : W6 := 0
  valid : Bool := false
  pqid : W32 := 0
  left : W8 := 0
  deriving DecidableEq, Repr

/-- A device address space (R94, R95): whether it exists, its queues of each die, the refusal of page requests (R223),
and the graphs of the images loaded into it with the images' digests, by which a gang member finds its node (R125). -/
structure Asid where
  inUse : Bool := false
  launchQ : Tbl W32 := []
  ctrlQ : Tbl W32 := []
  priRefused : Bool := false
  graphs : List (W64 × BitVec 384) := []
  deriving DecidableEq, Repr

/-! ### Engines of a die (R141, R410, R454) -/

/-- Why an outstanding copy does not write its next chunk (R410, R411). -/
inductive CopyStop
  | none | page | fault | saved
  deriving DecidableEq, Repr

/-- The memories that a copy reads, as they stood at its start. -/
structure Before where
  mem : Mem := []
  scr : Mem := []
  far : Mem := []
  host : Mem := []
  deriving DecidableEq, Repr

/-- An outstanding copy: who issued it, its captured record, its cursor (R412), and the publish it waits for. -/
structure Copy where
  id : Nat
  slot : Nat
  lead : Nat
  asid : BitVec 12
  record : List W8
  tl : W3
  num : BitVec 40
  done : Nat := 0
  stat : Nat := 0
  code : W8 := 0
  prq : Bool := false
  gate : Nat := 0
  stop : CopyStop := .none
  /-- The record has been checked, and the memories stood so when it was: a source byte that changes meanwhile may be read
  as its old or its new value (R243, R408). -/
  started : Bool := false
  pre : Before := {}
  /-- The source object as it stood at the start: only where it still lies is the old value of a byte its own. -/
  from_ : Obj := {}
  /-- The bytes written so far, to die memory, or to the scratchpad when the flag is set: the last entry of a byte is what the
  copy wrote there, and an earlier one what a store had put there in the meantime (R245). -/
  wrote : List (Bool × Nat × W8) := []
  /-- The host's answer to the page request of a saved copy (R223). -/
  resp : Option PageReply := none
  deriving DecidableEq, Repr

/-- An outstanding dispatch (R53, R455): its descriptor, its translated targets, and the row that is on its way. -/
structure Dispatch where
  id : Nat
  slot : Nat
  lead : Nat
  asid : BitVec 12
  tenant : W6
  tl : W3
  num : BitVec 40
  esz : W3
  topk : Nat
  ntok : Nat
  rows : W64
  rowstr : Nat
  route : W64
  targets : List W32
  /-- The handles from which the targets were translated (R30). -/
  handles : List W32
  gate : Nat := 0
  /-- The target of the row on its way. -/
  pushing : Option Nat := none
  /-- The flow, port and sleeper entry of a push that sleeps, and whether its withdrawal has been sent (R53). -/
  asleep : Option (Flow × W4 × Nat) := none
  withdrawn : Bool := false
  /-- A push that found no free sleeper entry waits to be sent again (R46), or a read waits for the punty firmware (R217). -/
  parked : Bool := false
  /-- The dispatch has stopped for a save (R53, R165). -/
  stopped : Bool := false
  /-- The dispatch has ended: with a failure or not. -/
  finished : Option Bool := none
  deriving DecidableEq, Repr

/-- A fault record for the punty firmware (R217): a parked group, or a stopped copy or dispatch, and the page it wants. -/
structure FaultRec where
  id : Nat
  slot : Option Nat := none
  copy : Option Nat := none
  disp : Option Nat := none
  asid : BitVec 12
  obj : Nat
  off : Nat
  deriving DecidableEq, Repr

/-- How far a claim has come (R221): it waits to be served, or its object is Moving. -/
inductive ClaimStep
  | wait | moving
  deriving DecidableEq, Repr

/-- A claim waiting or in progress (R220, R221). -/
structure ClaimReq where
  slot : Nat
  op : Nat
  asid : BitVec 12
  obj : Nat
  lo : Nat
  hi : Nat
  dest : Nat
  lanes : W32
  step : ClaimStep := .wait
  deriving DecidableEq, Repr

/-- STATE of an ERT entry (R133). -/
inductive ErtState
  | absent | fetching | resident | pinned | evicting | split
  deriving DecidableEq, Repr

/-- An ERT entry (R133), with the pin recorded for its landing (R144). -/
structure Ert where
  eid : W32 := 0
  state : ErtState := .absent
  wovf : Bool := false
  valid : Bool := false
  ferr : Bool := false
  wait : Nat := 0
  tenant : W6 := 0
  asid : BitVec 12 := 0
  pool : W4 := 0
  use : W16 := 0
  frame : W16 := 0
  src : W64 := 0
  size : W32 := 0
  wq : W32 := 0
  lastuse : W64 := 0
  pdies : W8 := 0
  part : W3 := 0
  npm1 : W3 := 0
  cq : W32 := 0
  cqn : W8 := 0
  /-- The split fields are set (R145). -/
  parted : Bool := false
  /-- Where the far-tier object of SRC lay when the entry was registered (R141). -/
  srcBase : W64 := 0
  /-- That object has been freed or has moved since (R141). -/
  srcGone : Bool := false
  pin : Bool := false
  /-- A pin recorded while the entry was Evicting starts its fetch once it is Absent (R144). -/
  refetch : Bool := false
  /-- The completion word of an EVICT or UNSPLIT that has not finished (R149). -/
  compl : Option W64 := none
  deriving DecidableEq, Repr

/-- A frame pool (R135). -/
structure Pool where
  asid : BitVec 12
  base : W64
  fsize : Nat
  nf : Nat
  free : List Nat
  deriving DecidableEq, Repr

/-- How far a started fetch has gone (R141): its landing slot is being reserved, or found no sleeper entry to wait on; it
waits for the engine; in the engine it waits for a frame, or for the eviction of its victim; or it copies. -/
inductive FetchStep
  | reserve | parked | ready | noFrame | evicting | copying
  deriving DecidableEq, Repr

/-- A started fetch, in the order of start (R141, R143). -/
structure Fetch where
  id : Nat
  idx : Nat
  demand : Bool
  seq : BitVec 48 := 0
  step : FetchStep := .reserve
  deriving DecidableEq, Repr

/-! ### The firmware's launch state (R109 to R125, R161, R162) -/

/-- KIND of a region control block (R112). -/
inductive NodeKind
  | interior | launch | fence
  deriving DecidableEq, Repr

inductive NodeState
  | waiting | ready | complete
  deriving DecidableEq, Repr

/-- The gang part of a launch (R125): the coordinating package, the other members, those that have acknowledged and
reported, the status with which the gang was aborted, the end of the timer, the status of the local part once it is over, and
the final status once it is known. -/
structure Gang where
  home : Nat
  others : List Nat := []
  acked : List Nat := []
  reported : List Nat := []
  aborted : Option Nat := none
  deadline : Nat := 0
  told : Option Nat := none
  final : Option Nat := none
  deriving DecidableEq, Repr

/-- A node of a running graph: its place in the tree, its limits, its resolved fields (R113, R116), and its progress. -/
structure Node where
  addr : W64
  kind : NodeKind
  parent : Option Nat := none
  ovr : W8 := 0
  budget : W64 := 0
  maxcore : Nat := 0
  used : Nat := 0
  prio : W3 := 0
  diemask : W8 := 0
  fdom : BitVec 12 := 0
  fpol : BitVec 2 := 0
  fvec : W6 := 0
  persist : Bool := false
  idemp : Bool := false
  l1fuse : Bool := false
  wdog : W16 := 0
  trapv : W64 := 0
  compl : W64 := 0
  cvv : Bool := false
  cvec : W6 := 0
  nqv : Bool := false
  nq : W32 := 0
  kernel : W64 := 0
  param : W64 := 0
  countW : W64 := 0
  cntind : Bool := false
  isGang : Bool := false
  parlen : W6 := 0
  grpm1 : W4 := 0
  vreg16 : BitVec 5 := 0
  sregs : BitVec 7 := 0
  tiles : W4 := 0
  scr4k : BitVec 7 := 0
  gangdesc : W64 := 0
  gto : W16 := 0
  state : NodeState := .waiting
  status : Nat := 0
  /-- The captured parameter words and the resolved block count (R116, R117). -/
  params : List W64 := []
  count : Nat := 0
  /-- The next block number, the blocks bound or saved, those retired, and the status of a launch that has lost one. -/
  next : Nat := 0
  live : Nat := 0
  blocks : Nat := 0
  /-- No further block of it is bound (R115, R123 to R125). -/
  stop : Bool := false
  lost : Option Nat := none
  readyAt : Nat := 0
  /-- Relaunches of blocks lost to an uncorrectable error: block number and times, and those to bind again (R226). -/
  relaunched : List (Nat × Nat) := []
  again : List Nat := []
  gang : Option Gang := none
  deriving DecidableEq, Repr

/-- A graph start in progress (R109, R111). -/
structure Graph where
  hdr : W64
  asid : BitVec 12
  die : Nat
  gcompl : W64
  nodes : List Node
  edges : List (Nat × Nat × Bool)
  /-- A member of a gang runs this node alone, for a graph that has not been started here (R125). -/
  guest : Option Nat := none
  deriving DecidableEq, Repr

/-- A region queue of a die (R161, R162). -/
structure RQueue where
  id : Nat
  graph : W64
  asid : BitVec 12
  node : Nat
  prio : W3
  deficit : Int
  /-- A block number that the coordinator has handed out, or its refusal (R161). -/
  granted : Option Nat := none
  refused : Bool := false
  deriving DecidableEq, Repr

/-- A saved block (R167): its bind record, its save area, and what the model keeps of its contexts: their names, and the
block state that the save area's words give back. -/
structure Saved where
  bind : Bind
  graph : W64
  node : Nat
  number : Nat
  page : Nat
  pages : Nat
  ctxs : List Nat
  block : Block
  lead : Nat
  /-- Operations asleep at their homes, with the indexes of the groups they belong to (log 13: DEDUCED). -/
  slept : List (Nat × QOp) := []
  /-- The stopped copies and dispatches, with the group index of each (R165). -/
  copies : List (Nat × Nat) := []
  disps : List (Nat × Nat) := []
  /-- The inner `$trap` of groups that a double fault has faulted (R285). -/
  inners : List (Nat × W64) := []
  deriving DecidableEq, Repr

/-- What the firmware keeps of a block that it has bound: its place, its launch, when it was bound and whether it has
resumed (R163), and its charge once it has ended, until its event is handled (R160). -/
structure Bound where
  core : Nat
  lead : Nat
  graph : W64
  asid : BitVec 12
  node : Nat
  block : Nat
  order : Nat
  /-- The save area: its first physical page and its pages (R167). -/
  page : Nat
  pages : Nat
  resumedAt : Option Nat := none
  ended : Option Nat := none
  /-- USED has been charged. -/
  charged : Bool := false
  /-- The block is lost, and is to be bound again (R226). -/
  again : Bool := false
  /-- The region queue for whose block this one was chosen to give way (R163). -/
  victimOf : Option Nat := none
  deriving DecidableEq, Repr

/-- An event in the event ring (R159), with the firmware's data that FAULT handling reads. -/
structure Event where
  kind : Nat
  lead : W4
  core : W8
  cause : W8
  block : W32
  charge : W64
  deriving DecidableEq, Repr

/-- What the firmware learns of a group that has gone to its fault domain, in the order of the ring's FAULT events (R285,
R287, R289): the slot, the context, the bind record, the frame, the inner `$trap` of a double fault, the launch node in force,
the firmware's note of the block, and `$clock` at the event. `void` says that an earlier event has killed the block. -/
structure FaultNote where
  slot : Nat
  ctx : Nat
  bind : Bind
  frame : Frame
  inner : Option W64
  node : Option Node
  own : Option Bound
  time : W64
  void : Bool := false
  deriving DecidableEq, Repr

/-- A compute die. -/
structure Die where
  clock : W64 := 0
  /-- DIEVF (R18): STEPS, TEMP, CAUSE, REQ, CUR, with the points that the power and thermal limits ask for (R19). -/
  steps : W32 := 0
  temp : W8 := 0
  cause : BitVec 2 := 0
  req : BitVec 2 := 0
  cur : BitVec 2 := 0
  powerPt : BitVec 2 := 0
  thermPt : BitVec 2 := 0
  power : W16 := 0
  /-- DRBASE and DRPTR (R152); the firmware's place in the ring. -/
  drbase : W64 := 0
  drsize : W16 := 0
  drhead : W16 := 0
  drtail : W16 := 0
  drseen : W16 := 0
  /-- Commands that wait for a halted die to resume (R171): PREEMPT of a block by its lead slot, or RESUMEGRP of a slot, which
  the flag marks (log 93: DEDUCED). -/
  commands : List (Bool × Nat) := []
  /-- The faults whose FAULT events the firmware has yet to handle. -/
  notes : List FaultNote := []
  /-- Pushes to completion queues that were not accepted (R120). -/
  nqFail : Nat := 0
  /-- MEMCNT (R229). -/
  prilate : W16 := 0
  cecc : W16 := 0
  uecc : W16 := 0
  relaunch : W16 := 0
  /-- The tenant that holds the die halted (R294). -/
  halted : Option W6 := none
  copies : List Copy := []
  dispatches : List Dispatch := []
  faults : List FaultRec := []
  claims : List ClaimReq := []
  fetches : List Fetch := []
  rqs : List RQueue := []
  /-- The region queue last served at each priority (R162). -/
  lastServed : Tbl Nat := []
  saved : List Saved := []
  bound : List Bound := []
  /-- Free runs of physical pages: first page and length (R207). The last GiB holds the punty memory, the ERT and the tables
  (log 16: DESIGN CHOICE). -/
  free : List (Nat × Nat) := [(0, 33554432 - 262144)]
  deriving DecidableEq, Repr

/-! ### Tenant interfaces (R89 to R95) -/

/-- TDISP state of an interface (R94). -/
inductive Tdisp
  | unlocked | locked | run | error
  deriving DecidableEq, Repr

/-- RESULT of IFCMD (R95). -/
inductive IfResult
  | done | busy | badArg | noSpace | overQuota | wrongState | reserved
  deriving DecidableEq, Repr

/-- A host queue aperture (R91). -/
structure Aperture where
  image : Tbl W8 := []
  status : W8 := 0
  inFlight : Bool := false
  /-- The status of a push that has come back and waits to be written (R91). -/
  result : Option W8 := none
  deriving DecidableEq, Repr

/-- The collector of a die for a tenant (R195, R196): the ring's ASID once its header is written, its indexes, and whether it
has stopped. -/
structure Collector where
  asid : Option (BitVec 12) := none
  wr : W32 := 0
  rd : W32 := 0
  drop : W32 := 0
  stopped : Bool := false
  deriving DecidableEq, Repr

/-- A tenant interface: the registers of its VF's BAR0 and its apertures (R91, R94, R95, R195, R288, R294, R333). -/
structure Iface where
  tdisp : Tdisp := .unlocked
  /-- Steps 1 to 3 of R93 have been performed. -/
  erred : Bool := false
  wiping : Bool := false
  apcfg : Tbl W64 := []
  wincfg : Tbl W64 := []
  urcnt : W32 := 0
  op : W8 := 0
  result : IfResult := .done
  arg0 : W64 := 0
  arg1 : W64 := 0
  arg2 : W64 := 0
  arg3 : W64 := 0
  /-- IFARG0 to IFARG2 as the busy command has read them (R95). -/
  carg0 : W64 := 0
  carg1 : W64 := 0
  carg2 : W64 := 0
  smpPeriod : W16 := 16
  smpLog2n : W4 := 4
  smpEnable : Bool := false
  smpNode : W64 := 0
  smpBuf : W64 := 0
  smpErr : W8 := 0
  smpDies : Tbl Collector := []
  fdrBase : W64 := 0
  fdrLog2n : W4 := 4
  fdrRd : W32 := 0
  fdrWr : W32 := 0
  fdrDrop : W32 := 0
  halted : W8 := 0
  refused : W8 := 0
  halt : W8 := 0
  brkHalt : Bool := false
  imgload : W64 := 0
  imgarg : W64 := 0
  imgstat : W8 := 0
  imggraph : W64 := 0
  msix : Tbl W64 := []
  pba : W64 := 0
  apertures : Tbl Aperture := []
  digest : BitVec 384 := 0
  /-- The IDE stream key and K-set programmed for the interface (R100). -/
  ide : Option (Nat × Bool) := none
  /-- QC, QN and the ERT range of the tenant (R130). -/
  qc : W32 := 0
  qn : W32 := 0
  ebase : W16 := 0
  ecnt : W16 := 0
  /-- The queues, by PQID, whose wakes the driver has bound to a vector (R92, log 101: DESIGN CHOICE). -/
  wakeVec : List (W32 × W6) := []
  /-- The far-tier extents that the tenant owns: first tier address and extents (R132). -/
  far : List (Nat × Nat) := []
  deriving DecidableEq, Repr

/-! ### Trust (R96 to R108) -/

/-- An answer of the SPDM responder: what it carries is symbolic (log 6: DESIGN CHOICE). -/
inductive SpdmReply
  | version | capabilities | algorithms | digests (slots : Nat) | certificate (slot : Nat)
  | challengeAuth (slot : Nat) (nonce : W64) (meas : BitVec 384)
  | measurements (idx : Nat) (digest : BitVec 384) (signed : Bool)
  | keyExchange (session : Nat) | finish (session : Nat) | keyUpdate (session : Nat) | endSession (session : Nat)
  | keyProg (tenant : Nat)
  | interfaceReport (tenant : Nat) (apcfg wincfg msix : Tbl W64) (digest : BitVec 384)
  | tdisp (tenant : Nat)
  | busy | sessionLimit | unexpected | invalid
  deriving DecidableEq, Repr

/-- An SPDM session (R98): whether FINISH has completed it, and the generation of its keys. -/
structure Session where
  id : Nat
  open_ : Bool := false
  gen : Nat := 0
  deriving DecidableEq, Repr

/-- The SPDM responder (R98): how far the connection has been negotiated, and its sessions and last answer. -/
structure Spdm where
  negotiated : Nat := 0
  sessions : List Session := []
  reply : Option SpdmReply := none
  deriving DecidableEq, Repr

/-- STATE of LCSTATE (R104). -/
inductive LcState
  | blank | provisioned | deployed | returned
  deriving DecidableEq, Repr

/-- MBSTAT (R106). -/
inductive MbStat
  | done | busy | badSignature | badNonce | notMet | reserved | versionLow
  deriving DecidableEq, Repr

/-- A firmware image (R108). -/
structure Firmware where
  digest : BitVec 384 := 0
  version : W16 := 0
  good : Bool := true
  deriving DecidableEq, Repr

/-- The module management block and the module's lasting stores (R88, R104 to R108). -/
structure Mgmt where
  present : W8
  online : W8 := 0
  step : W8
  thermrec : W64
  svn : W16
  devten : W6 := 0
  romhold : Bool := false
  lc : LcState
  mbnonce : Option W64 := none
  mbcmd : W4 := 0
  mbarg : W64 := 0
  mbtoken : W64 := 0
  mbstat : MbStat := .done
  /-- The compute die that a DIEOFF is taking offline (R106). -/
  dieoff : Option Nat := none
  /-- The identity keys by name, the owner keys' digest, and the LMS signatures used (R97, R107). -/
  identity : Option Nat
  owner : Option (BitVec 384)
  lmsUsed : Nat
  flash : Firmware
  running : Firmware
  /-- Memory keys: the generation of each key that exists (R101, R102). -/
  keys : Tbl Nat := []
  /-- The CXL IDE keys that the firmware has programmed for the two CXL far-tier ports (R100). -/
  cxlIde : Tbl Nat := []
  /-- Members of homes that have failed, by socket (R12). -/
  failed : List Nat := []
  /-- The device ASIDs that the firmware configuration reserves for the device tenant (R103): none after reset, since the spec gives
  no configuration (log 130: DESIGN CHOICE). -/
  reservedAsids : List Nat := []
  deriving DecidableEq, Repr

/-- The stages of the lehr (R20). -/
inductive Lehr
  | stageA | stageB (socket : Nat) | stageC | stageD (wake : Nat) | done
  deriving DecidableEq, Repr

/-- FABCFG and FABUNR (R61, R85). -/
structure Fabric where
  unreach : W16 := 100
  rttw : W8 := 16
  rto : W8 := 10
  enable : Bool := false
  pkgid : Option (BitVec 9) := none
  fabunr : Tbl W64 := []
  /-- Paths that have failed beyond their switch: link and far package (R84). -/
  badPaths : List (Nat × Nat) := []
  /-- Since when no path to a package has been up, for each package that failed paths cut off; 512 stands for all of them, when no
  link is up (R85). -/
  noPath : Tbl Nat := [(512, 0)]
  deriving DecidableEq, Repr

/-- What a gang message says (R125). -/
inductive GangKind
  | start | ack | nack | done | abort | final
  deriving DecidableEq, Repr

/-- A message of a gang between packages (R125). -/
structure GangMsg where
  pkg : Nat
  asid : BitVec 12
  graph : W64
  node : Nat
  digest : BitVec 384
  kind : GangKind
  status : Nat
  deriving DecidableEq, Repr

/-- What the module has sent to the outside world: MSI-X messages, frames by the link they left on (those of IDLE cells alone are
counted and not listed), the cells that the last-hop switch of a link sends back to their sources (R78), the counters of both
transmit slots that a training link has sent (R80), and gang messages. -/
structure Outbox where
  msix : List (Nat × Nat) := []
  frames : List (Nat × LFrame) := []
  cells : List (Nat × Cell) := []
  training : List (Nat × Nat × Nat) := []
  gang : List GangMsg := []
  /-- The completions of host requests: data, or none for Unsupported Request, for Configuration Request Retry Status, and for a word of
  poison. -/
  host : List (Option W64) := []
  deriving DecidableEq, Repr

/-- A grant that a group of this package holds at a home in another (R56, R158): its context, the flow and the queue, and the
ticket. -/
structure HeldGrant where
  ctx : Nat
  flow : Flow
  port : W4
  queue : W16
  tenant : W6
  ticket : W64
  dev : Bool := false
  deriving DecidableEq, Repr

/-- A sleeper entry at a home in another package whose context has been killed (R47, R158). -/
structure Orphan where
  flow : Flow
  port : W4
  entry : Nat
  queue : W16
  tenant : W6
  dev : Bool := false
  deriving DecidableEq, Repr

/-- The DVSEC of PF0 (R130). -/
structure Dvsec where
  capc : W32
  capn : W32
  tsel : W6 := 0
  refused : Bool := false
  deriving DecidableEq, Repr

/-- What the punty firmware does on its own account, in the ASIDs of the device tenant (R103): it creates an address space, an
object with its rights in the order X A W R, or a queue from its entry, writes bytes of an object, or pushes a start element. -/
inductive FwAct
  | asid (a : BitVec 12)
  | object (a : BitVec 12) (die : W3) (gran bound : Nat) (rights : W4) (zfill : Bool)
  | queue (a : BitVec 12) (entry : List W8)
  | bytes (a : BitVec 12) (addr : W64) (data : List W8)
  | start (a : BitVec 12) (die : W3) (elem : List W8)
  deriving DecidableEq, Repr

/-- What moves next: an event of the device with its operands, a core, time alone, in nanoseconds, what arrives from the fabric
at a link, cells at its last-hop switch or a frame on its wires, or what the outside world does beside the events: a read of a
register, a management access that names a socket (R10), the host's grant of page requests (R222), an error that a die corrects
(R224), bit errors in the fetches of a line (R292), an act of the firmware, and a driver's binding of a queue's wakes (R92). -/
inductive Turn
  | device (i : Instr) (a : Args)
  | core (die core : Nat)
  | pass (ns : Nat)
  | cells (link : Nat) (cs : List Cell)
  | frame (link : Nat) (f : LFrame)
  | read (a : Args)
  | socket (k : Nat)
  | grant (n : Nat)
  | corrected (die : Nat)
  | flaw (core asid : Nat) (line : W64) (n : Nat)
  | firmware (c : FwAct)
  | bindWake (tenant : Nat) (p : W32) (vec : Option W6)
  deriving DecidableEq, Repr

/-- The machine. -/
structure State where
  /-- Nanoseconds since the first reset. -/
  time : Nat
  /-- The lehr (R20): its stage and when that began, the cores to wake as die and core, and when the last woke. -/
  lehr : Lehr
  lehrAt : Nat
  wakeQ : List (Nat × Nat)
  wakeAt : Nat
  /-- The mean of the reported power and when the power controller last acted (R19). -/
  powerAvg : W16
  powerAt : Nat
  /-- The mean has exceeded the limit and has not fallen below it since (R23). -/
  powerOver : Bool
  mgmt : Mgmt
  spdm : Spdm
  fabric : Fabric
  dvsec : Dvsec
  /-- The links to the far-tier ports that are up (R132). -/
  farUp : List Bool
  /-- By link, 0 to 63 (R60). -/
  links : Tbl Link
  flows : List (Flow × FlowState)
  /-- By source die × 512 + target package (R75). -/
  limiters : Tbl Limiter
  /-- What the groups of this package hold at homes in other packages (R56, R158). -/
  grants : List HeldGrant
  orphans : List Orphan
  /-- By tenant. -/
  ifaces : Tbl Iface
  /-- By device ASID. -/
  asids : Tbl Asid
  /-- The object tables, by ASID × 2^20 + object (R205). -/
  objs : Tbl Obj
  /-- The queue translation tables, by ASID × 65,536 + index (R28). -/
  qtt : Tbl Qtte
  dies : Tbl Die
  /-- By die × 160 + core. -/
  cores : Tbl Core
  /-- By core × 16 + slot. -/
  slots : Tbl Slot
  /-- By the key of the lead slot. -/
  blocks : Tbl Block
  /-- By die × 16 + port. -/
  ports : Tbl Port
  /-- By port × 65,536 + queue. -/
  queues : Tbl Queue
  /-- The ERTs, by die × 65,536 + index (R133). -/
  erts : Tbl Ert
  /-- By (die × 64 + tenant) × 16 + pool (R135). -/
  pools : Tbl Pool
  graphs : List Graph
  /-- Die memory by home × 2^40 + physical address (R207), the scratchpads by core × 2^18 + offset (R202), the far tier by tier
  address (R131), and the host's memory by PASID × 2^64 + address, with 4,096 + tenant for the DMA of a VF. -/
  mem : Mem
  scr : Mem
  far : Mem
  hostMem : Mem
  /-- Host pages that are not resident (R223), by key divided by 4,096. -/
  hostAbsent : List Nat
  /-- The page requests that the host lets the engine keep outstanding (R222). -/
  priAlloc : Nat
  /-- The page requests that the host has not answered, by die and copy, those of copies that are gone among them (R222). -/
  priOut : List (Nat × Nat)
  /-- Poisoned 64-byte words, by key divided by 64 (R225); a far-tier address counts from 2^44. -/
  poison : List Nat
  out : Outbox
  /-- The turns that come next; when none is left, the machine takes those of its own (log 18: DESIGN CHOICE). -/
  agenda : List Turn
  /-- The operands of the event under way, and the slot that issues. -/
  arg : Args
  cur : Nat
  /-- The model's own: the place in the rotation of turns (log 18: DESIGN CHOICE), the counter of open choices (log 5: DESIGN CHOICE), and the next fresh
  name. -/
  turn : Nat
  free : Nat
  ids : Nat
  deriving DecidableEq, Repr

/-- The reasons for which a step stops with a fault. -/
inductive Fault
  /-- A save area at physical addresses that R207 reserves: raised by BIND_RECORD_WRITE when the record completes a block
  that would start or resume from it. Safe: the machine stops where the spec gives no effect. -/
  | noMemory (die addr : Nat)
  deriving DecidableEq, Repr

/-- The reasons for which a step refuses an instruction. -/
inductive Refusal
  /-- An instruction that has no meaning yet; raised by its arm of `exec`. Safe: nothing can be proved of it. -/
  | notModelled (mnemonic : String)
  deriving DecidableEq, Repr

abbrev Out := Host.Outcome State Fault Refusal

/-- The machine right after its first reset: R20 and the reset columns of the registers; the values the spec leaves open
are those of log 3: DESIGN CHOICE, and the reserved device ASIDs that of log 130: DESIGN CHOICE. -/
def State.reset : State where
  time := 0
  lehr := .stageA
  lehrAt := 0
  wakeQ := []
  wakeAt := 0
  powerAvg := 0
  powerAt := 0
  powerOver := false
  mgmt := { present := 0xFF, step := 0, thermrec := 0, svn := 0, lc := .deployed, identity := some 0, owner := some 0,
            lmsUsed := 0, flash := {}, running := {} }
  spdm := {}
  fabric := {}
  dvsec := { capc := 0, capn := 0 }
  farUp := [true, true, true, true, true, true]
  links := []
  flows := []
  limiters := []
  grants := []
  orphans := []
  ifaces := []
  asids := []
  objs := []
  qtt := []
  dies := []
  cores := []
  slots := []
  blocks := []
  ports := []
  queues := []
  erts := []
  pools := []
  graphs := []
  mem := []
  scr := []
  far := []
  hostMem := []
  hostAbsent := []
  priAlloc := 0
  priOut := []
  poison := []
  out := {}
  agenda := []
  arg := {}
  cur := 0
  turn := 0
  free := 0
  ids := 1

end Sys2Proof.Machine
end

