-- ==== Sys2Proof/Machine/Tables.lean ====
section
/-! DEFINITION. Reading and writing the tables and the memories of State, and bytes as numbers (R2). -/
namespace Sys2Proof.Machine

/-- The entry of a key, or the table's default. -/
def tget {α : Type} (t : Tbl α) (k : Nat) (d : α) : α :=
  match t with
  | [] => d
  | (k', v) :: r => if k' = k then v else tget r k d

/-- The entry of a key, if it is listed. -/
def tfind {α : Type} (t : Tbl α) (k : Nat) : Option α :=
  match t with
  | [] => none
  | (k', v) :: r => if k' = k then some v else tfind r k

def tset {α : Type} (t : Tbl α) (k : Nat) (v : α) : Tbl α :=
  match t with
  | [] => [(k, v)]
  | (k', v') :: r => if k' = k then (k, v) :: r else (k', v') :: tset r k v

def tdel {α : Type} (t : Tbl α) (k : Nat) : Tbl α := t.filter fun e => e.1 != k

/-- The byte at an address; one that is not listed reads zero (log 4: DESIGN CHOICE). -/
def memRead (m : Mem) (a : Nat) : W8 :=
  match m with
  | [] => 0
  | (a', b) :: r => if a' = a then b else memRead r a

/-- List a byte at its address, keeping the addresses rising. -/
def memInsert (m : Mem) (a : Nat) (b : W8) : Mem :=
  match m with
  | [] => [(a, b)]
  | (a', b') :: r =>
    if a < a' then (a, b) :: (a', b') :: r
    else if a = a' then (a, b) :: r
    else (a', b') :: memInsert r a b

/-- Store a byte; a zero byte is not listed. -/
def memWrite (m : Mem) (a : Nat) (b : W8) : Mem := if b = 0 then m.filter fun c => c.1 != a else memInsert m a b

/-- The canonical form of a memory: every listed byte is nonzero, and the addresses rise strictly. -/
def Memory.wf : Mem → Bool
  | [] => true
  | [(_, b)] => b != 0
  | (a, b) :: (a', b') :: r => b != 0 && decide (a < a') && Memory.wf ((a', b') :: r)

def memBytes (m : Mem) (a n : Nat) : List W8 := (List.range n).map fun i => memRead m (a + i)

def memStore (m : Mem) (a : Nat) (bs : List W8) : Mem :=
  match bs with
  | [] => m
  | b :: r => memStore (memWrite m a b) (a + 1) r

/-- Zero the bytes of `lo` to `hi − 1`. -/
def memClear (m : Mem) (lo hi : Nat) : Mem := m.filter fun c => c.1 < lo || hi ≤ c.1

/-- The listed bytes of `lo` to `hi − 1`. -/
def memSlice (m : Mem) (lo hi : Nat) : Mem := m.filter fun c => lo ≤ c.1 && c.1 < hi

/-- Copy `n` bytes from `src` of one memory to `dst` of another: the destination range is cleared, and the listed bytes
of the source range are stored. -/
def memCopy (m : Mem) (dst : Nat) (src : Mem) (a n : Nat) : Mem :=
  (memSlice src a (a + n)).foldr (fun c m => memWrite m (c.1 - a + dst) c.2) (memClear m dst (dst + n))

/-- The little-endian number of a list of bytes (R2). -/
def leNat (bs : List W8) : Nat := bs.foldr (fun b n => b.toNat + 256 * n) 0

/-- The `n` little-endian bytes of a number. -/
def leBytes (n v : Nat) : List W8 := (List.range n).map fun i => BitVec.ofNat 8 (v / 256 ^ i)

def memNat (m : Mem) (a n : Nat) : Nat := leNat (memBytes m a n)

def memW64 (m : Mem) (a : Nat) : W64 := BitVec.ofNat 64 (memNat m a 8)

/-- Bits `hi` to `lo` of a number. -/
def bitsOf (n hi lo : Nat) : Nat := n / 2 ^ lo % 2 ^ (hi + 1 - lo)

end Sys2Proof.Machine
end

