-- ==== Sys2Proof/Machine/Ops.lean ====
section
/-! DEFINITION. The named operations over State that the meanings share: the parts of the machine by their keys, issuing
and stalling, instruction fetch, the event ring, and taking and leaving a trap. -/
namespace Sys2Proof.Machine

/-! ### Keys and parts -/

def coreKey (die core : Nat) : Nat := die * 160 + core
def slotKey (die core slot : Nat) : Nat := (die * 160 + core) * 16 + slot
def slotDie (k : Nat) : Nat := k / 2560
def slotCoreNo (k : Nat) : Nat := k / 16 % 160
def portKey (die port : Nat) : Nat := die * 16 + port

/-- The key of a physical address of a die's home (R207). -/
def physKey (die addr : Nat) : Nat := die * 2 ^ 40 + addr

/-- The key of a byte of a core's scratchpad (R202). -/
def scrKey (core off : Nat) : Nat := core * 2 ^ 18 + off

def State.slot (s : State) (k : Nat) : Slot := tget s.slots k {}
def State.setSlot (s : State) (k : Nat) (g : Slot) : State := { s with slots := tset s.slots k g }
def State.core (s : State) (k : Nat) : Core := tget s.cores k {}
def State.setCore (s : State) (k : Nat) (c : Core) : State := { s with cores := tset s.cores k c }
def State.die (s : State) (d : Nat) : Die := tget s.dies d {}
def State.setDie (s : State) (d : Nat) (x : Die) : State := { s with dies := tset s.dies d x }
def State.block (s : State) (k : Nat) : Block := tget s.blocks k {}
def State.setBlock (s : State) (k : Nat) (b : Block) : State := { s with blocks := tset s.blocks k b }
def State.port (s : State) (k : Nat) : Port := tget s.ports k {}
def State.setPort (s : State) (k : Nat) (p : Port) : State := { s with ports := tset s.ports k p }
def State.queue (s : State) (k : Nat) : Queue := tget s.queues k {}
def State.setQueue (s : State) (k : Nat) (q : Queue) : State := { s with queues := tset s.queues k q }
def State.iface (s : State) (t : Nat) : Iface := tget s.ifaces t {}
def State.setIface (s : State) (t : Nat) (i : Iface) : State := { s with ifaces := tset s.ifaces t i }
def State.asid (s : State) (a : Nat) : Asid := tget s.asids a {}
def State.setAsid (s : State) (a : Nat) (x : Asid) : State := { s with asids := tset s.asids a x }
def State.obj (s : State) (asid obj : Nat) : Obj := tget s.objs (asid * 2 ^ 20 + obj) {}
def State.setObj (s : State) (asid obj : Nat) (o : Obj) : State := { s with objs := tset s.objs (asid * 2 ^ 20 + obj) o }
def State.ert (s : State) (die idx : Nat) : Ert := tget s.erts (die * 65536 + idx) {}
def State.setErt (s : State) (die idx : Nat) (e : Ert) : State := { s with erts := tset s.erts (die * 65536 + idx) e }
def State.link (s : State) (l : Nat) : Link := tget s.links l {}
def State.setLink (s : State) (l : Nat) (x : Link) : State := { s with links := tset s.links l x }

def flowGet (t : List (Flow × FlowState)) (f : Flow) : FlowState :=
  match t with
  | [] => {}
  | (f', x) :: r => if f' = f then x else flowGet r f

def flowSet (t : List (Flow × FlowState)) (f : Flow) (x : FlowState) : List (Flow × FlowState) :=
  match t with
  | [] => [(f, x)]
  | (f', y) :: r => if f' = f then (f, x) :: r else (f', y) :: flowSet r f x

def State.flow (s : State) (f : Flow) : FlowState := flowGet s.flows f
def State.setFlow (s : State) (f : Flow) (x : FlowState) : State := { s with flows := flowSet s.flows f x }

/-- The group that issues. -/
def State.grp (s : State) : Slot := s.slot s.cur
def State.setGrp (s : State) (g : Slot) : State := s.setSlot s.cur g

/-- The key of the lead slot of the block that slot `k` belongs to (R154). -/
def leadOf (k : Nat) (g : Slot) : Nat := k / 16 * 16 + g.bind.lead.toNat

/-- The key of the lead slot of the issuing group's block. -/
def State.lead (s : State) : Nat := leadOf s.cur s.grp

/-- A fresh name. -/
def State.fresh (s : State) : Nat × State := (s.ids, { s with ids := s.ids + 1 })

/-- A choice that the spec leaves open (log 5: DESIGN CHOICE). -/
def State.freeBit (s : State) : Bool × State := (Config.freeBit s.free, { s with free := s.free + 1 })

/-- A value that the spec leaves open (log 5: DESIGN CHOICE). -/
def State.freeWord (s : State) : W64 × State := (Config.freeWord s.free, { s with free := s.free + 1 })

/-- The 16 slots of a core. -/
def coreSlots (core : Nat) : List Nat := (List.range 16).map fun i => core * 16 + i

def State.pkgid (s : State) : BitVec 9 := s.fabric.pkgid.getD 0

/-- The bytes of an element (R34). -/
def Queue.esizeB (q : Queue) : Nat := 16 * 2 ^ q.esize.toNat

/-- An ASID of the device tenant (R103). -/
def State.reserved (s : State) (asid : BitVec 12) : Bool := s.mgmt.reservedAsids.contains asid.toNat

/-- The TENANT that what an ASID owns carries: DEVTEN for the device tenant's ASIDs, whatever client shares the number
(R94, R103). -/
def State.ownerOf (s : State) (asid : BitVec 12) : W6 :=
  if s.reserved asid then s.mgmt.devten else BitVec.ofNat 6 (asid.toNat / 64)

/-- What an ASID owns is a client tenant's (R103). -/
def State.clientOwns (s : State) (t : Nat) (asid : BitVec 12) : Bool := !s.reserved asid && asid.toNat / 64 == t

/-! ### MSI-X (R92) -/

/-- A word of the MSI-X table: entry `k / 2`, whose second word holds the data and the vector control, masked at reset as
PCIe has it. -/
def msixWord (i : Iface) (k : Nat) : W64 := tget i.msix k (if k % 2 = 1 then 1#64 <<< 32 else 0)

def msixMasked (i : Iface) (vec : Nat) : Bool := (msixWord i (2 * vec + 1)).getLsbD 32

/-- An MSI-X message of a tenant's VF; a masked vector becomes pending (R92). -/
def sendMsix (s : State) (tenant vec : Nat) : State :=
  let i := s.iface tenant
  if msixMasked i vec then s.setIface tenant { i with pba := i.pba ||| (1#64 <<< vec) }
  else { s with out := { s.out with msix := s.out.msix ++ [(tenant, vec)] } }

/-! ### Issue (R166, R169, R185) -/

/-- The line address of a pc (R167). -/
def lineOf (pc : W64) : W64 := pc &&& 0xFFFFFFFFFFFFFFC0

/-- The pc of the following slot: slot 0 of the next line after slot 4 (R361). -/
def nextPc (pc : W64) : W64 := if pc &&& 7 = 4 then lineOf pc + 64 else pc + 1

/-- The instruction has issued: it counts, unless it replays (R166, R399), its marker parks the group (R185), and the issue
is the group's latest (R169); `g` is the group with the instruction's own effect. -/
def State.issued (s : State) (g : Slot) (sw : Bool) : State :=
  s.setGrp { g with count := (if g.replay.isSome then g.count else g.count + 1), marked := sw, last := some (s.die (slotDie s.cur)).clock.toNat, stall := .none,
                    replay := none }

/-- The instruction has issued, and the group goes on at the following slot. -/
def State.retire (s : State) (g : Slot) (sw : Bool) : State := s.issued { g with pc := nextPc g.pc } sw

/-- The instruction waits at issue (R172): the group stays where it is. -/
def State.stallAt (s : State) (r : Stall) : State := s.setGrp { s.grp with stall := r }

/-! ### Objects and physical addresses (R205 to R208) -/

/-- The extent of a list that holds an offset (R208). -/
def extentIn (xs : List Extent) (off : Nat) : Option Extent :=
  xs.find? fun x => x.offpg ≤ off / 4096 && off / 4096 < x.offpg + (x.ngm1 + 1) * x.gran

/-- The extent that holds an offset of an object (R208). -/
def extentAt (o : Obj) (off : Nat) : Option Extent := extentIn o.exts off

/-- The extents of a die's own copy of a code object (R314). -/
def codeExts (o : Obj) (d : Nat) : List Extent := if o.kind = .die ∧ o.home = d then o.exts else tget o.copies d []

/-- The physical address of an offset in an extent. -/
def extentAddr (x : Extent) (off : Nat) : Nat := x.pfn * 4096 + (off - x.offpg * 4096)

/-- The physical bytes of an object's range in the memory of its home, for a present run of each byte; a byte of an
absent run reads zero and is not written. -/
def objByteAddr (o : Obj) (off : Nat) : Option Nat :=
  if off < o.bound then
    match extentAt o off with
    | some x => if x.p then some (physKey o.home (extentAddr x off)) else none
    | none => none
  else none

def readObj (s : State) (o : Obj) (off n : Nat) : List W8 :=
  (List.range n).map fun i => match objByteAddr o (off + i) with
    | some a => memRead s.mem a
    | none => 0

def writeObj (s : State) (o : Obj) (off : Nat) (bs : List W8) : State :=
  match bs with
  | [] => s
  | b :: r =>
    writeObj (match objByteAddr o off with
      | some a => { s with mem := memWrite s.mem a b }
      | none => s) o (off + 1) r

def addrObj (a : W64) : Nat := a.toNat / 2 ^ 44
def addrOff (a : W64) : Nat := a.toNat % 2 ^ 44

/-! ### Instruction fetch (R296 to R298, R314) -/

/-- A fetch fault (R314): the object must be valid and executable, and hold the whole line (R396); a die reads its own copy of a code
object, so the home rule does not apply. -/
def fetchFault (s : State) (die asid : Nat) (pc : W64) : Option W8 :=
  let o := s.obj asid (addrObj pc)
  let off := addrOff (lineOf pc)
  if addrObj pc = 0 ∨ o.state = .invalid then some 0x20
  else if o.bound < off + 64 then some 0x21
  else if !o.x then some 0x22
  else if (extentIn (codeExts o die) off).isNone then some 0x23
  else none

/-- The 64 bytes of the line of a pc, from the die's own copy of the code object (R314). -/
def fetchLine (s : State) (die asid : Nat) (pc : W64) : List W8 :=
  let off := addrOff (lineOf pc)
  match extentIn (codeExts (s.obj asid (addrObj pc)) die) off with
  | some x => memBytes s.mem (physKey die (extentAddr x off)) 64
  | none => List.replicate 64 0

def lineWord (line : List W8) : Nat := leNat (line.drop 60)

/-- The parity of the eight stripes matches PAR (R298). -/
def parityOk (line : List W8) : Bool :=
  let n := leNat line
  (List.range 8).all fun k =>
    (List.range 60).foldl (fun p i => p ^^ n.testBit (60 * k + i)) false == n.testBit (480 + k)

/-- The word of a slot of a line (R296). -/
def lineSlot (line : List W8) (slot : Nat) : W96 := wordOfBytes ((line.drop (12 * slot)).take 12)

/-- A slot is a legal branch target of its line (R297). -/
def targetOk (line : List W8) (slot : Nat) : Bool := (lineWord line).testBit (12 + slot)

/-! ### The event ring (R159) -/

/-- The 16 bytes of an event. -/
def eventBytes (e : Event) : List W8 :=
  leBytes 8 (e.kind * 2 ^ 60 + e.lead.toNat * 2 ^ 56 + e.core.toNat * 2 ^ 48 + e.cause.toNat * 2 ^ 40 + e.block.toNat) ++
    leBytes 8 e.charge.toNat

/-- The ring has room for an event. -/
def ringRoom (x : Die) : Bool := x.drsize != 0 && (x.drtail + 1).toNat % x.drsize.toNat != x.drhead.toNat

/-- Write an event at TAIL; the caller has checked that there is room. -/
def postEvent (s : State) (d : Nat) (e : Event) : State :=
  let x := s.die d
  let s := { s with mem := memStore s.mem (physKey d (x.drbase.toNat + 16 * x.drtail.toNat)) (eventBytes e) }
  s.setDie d { x with drtail := BitVec.ofNat 16 ((x.drtail + 1).toNat % x.drsize.toNat) }

/-! ### Traps (R279 to R285) -/

/-- The word of `$trap` (R281). -/
def trapWord (t : Trap) : W64 :=
  t.cause ++ t.code ++ 0#7 ++ BitVec.ofBool t.precise ++ 0#8 ++ t.lanes

/-- The node that a block was launched from (R112, R154). -/
def State.nodeOf (s : State) (b : Bind) : Option Node :=
  (s.graphs.filter fun g => g.asid == b.asid).findSome? fun g => g.nodes.find? fun n => n.addr == b.node && n.kind == .launch

/-- TRAPV in force for a block (R113). -/
def State.trapv (s : State) (b : Bind) : W64 := match s.nodeOf b with
  | some n => n.trapv
  | none => 0

/-- The firmware's note of the block in a slot. -/
def boundOf (s : State) (k : Nat) : Option Bound :=
  let lead := leadOf k (s.slot k)
  (s.die (slotDie k)).bound.find? fun b => b.core == slotCoreNo k && b.lead == lead % 16 && b.ended.isNone

/-- What the FAULT event of a group stands for (R287, R289). -/
def addNote (s : State) (k : Nat) (inner : Option W64) : State :=
  let g := s.slot k
  let x := s.die (slotDie k)
  s.setDie (slotDie k) { x with notes := x.notes ++ [{
    slot := k, ctx := g.ctx, bind := g.bind, frame := g.frame, inner := inner, node := s.nodeOf g.bind, own := boundOf s k,
    time := x.clock }] }

/-- Post the FAULT event of a group that waits to report one, if the ring has room, and move its slot to Faulted (R157,
R159, R279, R287); a halted die's slots stay as they are (R171). -/
def reportFault (s : State) (k : Nat) : State :=
  let g := s.slot k
  match g.pend with
  | none => s
  | some (t, inner) =>
    if ringRoom (s.die (slotDie k)) && (s.die (slotDie k)).halted.isNone then
      let s := postEvent s (slotDie k) ⟨4, BitVec.ofNat 4 (k % 16), BitVec.ofNat 8 (slotCoreNo k), t.cause, g.bind.block, 0⟩
      let s := addNote s k inner
      s.setSlot k { s.slot k with
        bind := { (s.slot k).bind with sstate := (if g.bind.sstate = .draining then .draining else .faulted) },
        stopped := true, faulted := true, pend := none, inner := inner }
    else s

/-- The frame that a trap writes (R282). -/
def frameOf (g : Slot) (t : Trap) : Frame :=
  { trapw := trapWord t, fpc := t.fpc, rpc := t.rpc, more := t.more, em := g.em, arg0 := t.arg0, arg1 := t.arg1,
    bcount := BitVec.ofNat 14 g.count }

/-- A group that is in the middle of an instruction keeps what it waits for (log 92: DEDUCED). -/
def asideOf (g : Slot) : Option Aside :=
  if g.barrier.isSome || g.twait.isSome || g.replay.isSome then
    some { pc := g.pc, barrier := g.barrier, twait := g.twait, replay := g.replay }
  else none

/-- Entry of a handler (R283): the frame, the in-handler state, `em` and the pc, and a zero bound count for BOUND. -/
def enterHandler (g : Slot) (t : Trap) (trapv : W64) : Slot :=
  { g with frame := frameOf g t, inHandler := true, em := 0xFFFFFFFF, pc := lineOf trapv,
           count := if t.cause = 0x05 then 0 else g.count, marked := false, stall := .none, aside := asideOf g,
           barrier := none, twait := none, replay := none, dfault := none, exiting := false }

/-- The trap goes to the fault domain (R285, R287): in a handler, the held frame stays and the inner `$trap` is kept;
without a handler, the frame is written (log 8: DEDUCED). -/
def toFaultDomain (g : Slot) (t : Trap) : Slot :=
  let g' : Slot := { g with marked := false, dfault := none, exiting := false, barrier := none, twait := none, replay := none }
  if g.inHandler then { g' with pend := some (t, some (trapWord t)) }
  else { g' with frame := frameOf g t, pend := some (t, none), aside := asideOf g }

/-- The handler's entry line refuses the entry: its slot 0 is no branch target (R285, R300). -/
def entryBad (s : State) (die asid : Nat) (trapv : W64) : Bool :=
  (fetchFault s die asid (lineOf trapv)).isNone && !targetOk (fetchLine s die asid (lineOf trapv)) 0

/-- EV of a timeline counter, cleared by the entry of a COPY trap (R191). -/
def clearEv (s : State) (lead : Nat) (tl : Nat) : State :=
  let b := s.block lead
  s.setBlock lead { b with tl := tset b.tl tl (tget b.tl tl 0 &&& ~~~(1#64 <<< 47)) }

/-- A group takes a trap (R283, R285, R287). -/
def takeTrap (s : State) (k : Nat) (t : Trap) : State :=
  let g := s.slot k
  let tv := s.trapv g.bind
  if g.inHandler || tv == 0 then
    reportFault (s.setSlot k (toFaultDomain g t)) k
  else
    let s := if t.cause = 0x0C then clearEv s (leadOf k g) (t.arg1.toNat % 8) else s
    let g' := enterHandler g t tv
    if entryBad s (slotDie k) g.bind.asid.toNat tv then
      reportFault (s.setSlot k (toFaultDomain g'
        { cause := 0x03, lanes := g'.em, fpc := g'.pc, rpc := g'.pc, arg0 := g'.pc })) k
    else s.setSlot k g'

/-- Return from a handler (R369): the in-handler state is cleared and the group goes on at the target; a return into the
middle of an instruction takes up what the trap put aside, and goes on after a barrier that has released (log 92: DEDUCED). -/
def leaveHandler (g : Slot) (target : W64) : Slot :=
  let h : Slot := { g with inHandler := false, pc := target, aside := none }
  match g.aside with
  | none => h
  | some a =>
    if a.pc ≠ target then h
    else if a.opened then { h with pc := nextPc target }
    else { h with barrier := a.barrier, twait := a.twait, replay := a.replay }

/-- The active set of a lane-masked instruction (R180). -/
def maskReg (g : Slot) (m : MReg) : W32 := if m = 0 then 0xFFFFFFFF else tget g.m m.toNat 0

def activeSet (g : Slot) (h : Hdr) : W32 := g.em &&& maskReg g h.g

/-- A precise trap of the instruction at the pc (R279). -/
def preciseTrap (g : Slot) (cause code : W8) (lanes : W32) : Trap :=
  { cause := cause, code := code, lanes := lanes, fpc := g.pc, rpc := g.pc }

/-- The issuing group takes a precise trap: the instruction does not issue. -/
def State.trapCur (s : State) (t : Trap) : State := takeTrap s s.cur t

/-- ILLEGAL with a code (R279). -/
def State.illegal (s : State) (code : W8) : State := s.trapCur (preciseTrap s.grp 0x01 code s.grp.em)

/-- REGRANGE (R176). -/
def State.regRange (s : State) (lanes : W32) : State := s.trapCur (preciseTrap s.grp 0x02 0 lanes)

/-- The checks of the operands' allocation come first (R176, R280); `ok` says that every register is allocated. -/
def checked (s : State) (ok : Bool) (lanes : W32) (next : State) : Out :=
  if ok then .next next else .next (s.regRange lanes)

end Sys2Proof.Machine
end

