-- ==== Sys2Proof/Machine/Operands.lean ====
section
/-! DEFINITION. Operands: the integer types (R303, R351, R375), immediates (R311), the register files and their
allocation (R175, R176), and lanes. -/
namespace Sys2Proof.Machine

/-! ### Types -/

/-- The width of a type in bits (R303). -/
def tyWidth : Ty → Nat
  | .i8 | .n8 | .e4m3 | .e5m2 => 8
  | .i16 | .n16 | .bf16 | .f16 => 16
  | .i32 | .n32 | .b32 | .f32 => 32
  | .i64 | .n64 | .b64 => 64

def tySigned : Ty → Bool
  | .i8 | .i16 | .i32 | .i64 => true
  | _ => false

/-- The low `w` bits of a number read as a two's-complement value. -/
def sgn (w n : Nat) : Int :=
  if n % 2 ^ w < 2 ^ (w - 1) then ((n % 2 ^ w : Nat) : Int) else ((n % 2 ^ w : Nat) : Int) - ((2 ^ w : Nat) : Int)

/-- A register's low bits as a value of a type: sign-extended for `.i` types, zero-extended for the others (R351, R375). -/
def tyVal (t : Ty) (n : Nat) : Int :=
  if tySigned t then sgn (tyWidth t) n else ((n % 2 ^ tyWidth t : Nat) : Int)

/-- The unsigned `w`-bit number of an exact integer. -/
def wrapN (w : Nat) (r : Int) : Nat := (r % ((2 ^ w : Nat) : Int)).toNat

/-- An exact result truncated to its type and extended again to 64 bits (R351). -/
def tyS (t : Ty) (r : Int) : W64 := BitVec.ofInt 64 (tyVal t (wrapN (tyWidth t) r))

/-- An exact result truncated to its type and extended again to a lane (R253, R375). -/
def tyV (t : Ty) (r : Int) : W32 := BitVec.ofInt 32 (tyVal t (wrapN (tyWidth t) r))

def tyMax (t : Ty) : Int := if tySigned t then ((2 ^ (tyWidth t - 1) : Nat) : Int) - 1 else ((2 ^ tyWidth t : Nat) : Int) - 1
def tyMin (t : Ty) : Int := if tySigned t then -((2 ^ (tyWidth t - 1) : Nat) : Int) else 0

/-- An immediate extended to 64 bits (R311). -/
def immS (t : Ty) (imm : W32) : W64 := if tySigned t then imm.signExtend 64 else imm.setWidth 64

/-! ### Allocation (R176) -/

def okS (g : Slot) (r : SReg) : Bool := decide (r.toNat < g.bind.sregs.toNat)

/-- The register and its successor are allocated. -/
def okS2 (g : Slot) (r : SReg) : Bool := decide (r.toNat + 1 < g.bind.sregs.toNat)

def vcount (g : Slot) : Nat := 16 * g.bind.vreg16.toNat

def okV (g : Slot) (r : VReg) : Bool := decide (r.toNat < vcount g)

/-- `n` registers from `r` on are allocated. -/
def okVn (g : Slot) (n : Nat) (r : VReg) : Bool := decide (r.toNat + n ≤ vcount g)

/-- The registers that a field names in a form that may be a two-register form (R373). -/
def okVx (g : Slot) (x2 : Bool) (r : VReg) : Bool := okVn g (if x2 then 2 else 1) r

def okT (g : Slot) (r : TReg) : Bool := decide (r.toNat < g.bind.tiles.toNat)

/-! ### Scalar and mask registers (R175) -/

def getS (g : Slot) (r : SReg) : W64 := tget g.s r.toNat 0
def setS (g : Slot) (r : SReg) (v : W64) : Slot := { g with s := tset g.s r.toNat v }

/-- A write of `m0` is discarded; `maskReg` reads it as all ones. -/
def setM (g : Slot) (r : MReg) (v : W32) : Slot := if r = 0 then g else { g with m := tset g.m r.toNat v }

/-! ### Vector registers and lanes (R175, R181) -/

def zeroVec : Vec := Vector.replicate 32 0

/-- The vector whose lane `l` is `f l`. -/
def genVec {n : Nat} (f : Nat → BitVec n) : Lanes n := ⟨⟨(List.range 32).map f⟩, by simp⟩

def lane {n : Nat} (v : Lanes n) (l : Nat) : BitVec n := v.toArray.toList.getD l 0

def laneOn (mask : W32) (l : Nat) : Bool := mask.getLsbD l

/-- The numbers of the active lanes, ascending. -/
def lanesOf (mask : W32) : List Nat := (List.range 32).filter fun l => laneOn mask l

/-- `new` in the lanes of `mask`, `old` in the others (R181). -/
def mixVec {n : Nat} (mask : W32) (old new : Lanes n) : Lanes n :=
  genVec fun l => if laneOn mask l then lane new l else lane old l

/-- The mask of the lanes where `p` holds. -/
def maskOf (p : Nat → Bool) : W32 :=
  (List.range 32).foldl (fun m l => if p l then m ||| (1#32 <<< l) else m) 0

def getVn (g : Slot) (n : Nat) : Vec := tget g.v n zeroVec
def getV (g : Slot) (r : VReg) : Vec := getVn g r.toNat
def setVn (g : Slot) (n : Nat) (mask : W32) (new : Vec) : Slot := { g with v := tset g.v n (mixVec mask (getVn g n) new) }
def setV (g : Slot) (r : VReg) (mask : W32) (new : Vec) : Slot := setVn g r.toNat mask new

/-- The sources of a form as they are read at issue; half 1 of a two-register form reads the successors (R373). -/
def srcV (g : Slot) (half : Nat) (r : VReg) : Vec := getVn g (r.toNat + half)

/-- An immediate in every lane (R374). -/
def immVec (imm : W32) : Vec := Vector.replicate 32 imm

/-- Write the halves of a form's result; both were computed from the sources as they stood at issue (R372, R373). -/
def setVx (g : Slot) (x2 : Bool) (r : VReg) (mask : W32) (f : Nat → Vec) : Slot :=
  if x2 then setVn (setVn g r.toNat mask (f 0)) (r.toNat + 1) mask (f 1) else setVn g r.toNat mask (f 0)

/-- The register file holds element bytes as lane-words (R31). -/
def elemBytes (g : Slot) (v : VReg) (e : Nat) : List W8 :=
  (List.range e).map fun i =>
    let w := i / 4
    (lane (getVn g (v.toNat + w / 32)) (w % 32)).extractLsb' (8 * (i % 4)) 8

/-- Lane-word `w` of element bytes. -/
def elemWord (bs : List W8) (w : Nat) : W32 := BitVec.ofNat 32 (leNat ((bs.drop (4 * w)).take 4))

/-- The register writes that bring an element of `e` bytes to vN (and vN + 1): lane-words beyond it are not written. -/
def elemWrites (v : VReg) (e : Nat) (bs : List W8) : List VWrite :=
  (List.range (if 128 < e then 2 else 1)).map fun h =>
    { reg := v + BitVec.ofNat 8 h, mask := maskOf fun l => decide (32 * h + l < e / 4), val := genVec fun l => elemWord bs (32 * h + l) }

end Sys2Proof.Machine
end

