-- ==== Sys2Proof/Machine/Groups.lean ====
section
/-! DEFINITION. The groups of a block as a whole: who is gone, barrier release, the end of a group, deferred traps, and
halts (R157, R164, R186, R193, R294, R367). -/
namespace Sys2Proof.Machine

/-- A Draining group stops when an operation of it falls asleep (R164). -/
def sleepIfDraining (g : Slot) : Slot :=
  if g.bind.sstate = .draining ∧ !g.stopped then { g with stopped := true, sleepStop := true } else g

/-- A Draining group stops at a wait (R164). -/
def stopIfDraining (g : Slot) : Slot := if g.bind.sstate = .draining then { g with stopped := true } else g

/-- The slots of the block whose lead slot is `lead` (R154). -/
def blockSlots (s : State) (lead : Nat) : List Nat :=
  (coreSlots (lead / 16)).filter fun k =>
    (s.slot k).bind.sstate != .empty && (s.slot k).bind.lead.toNat == lead % 16

/-- A group that counts as arrived at every barrier: Done, killed, or stopped after `exit` (R164, R193); one that stops by the sleep of a
result for which its `exit` waits is not gone. -/
def groupGone (g : Slot) : Bool := g.bind.sstate == .done || (g.exiting && g.stopped && !g.sleepStop)

/-- The GIDX mask of the groups that are gone. -/
def goneMask (s : State) (lead : Nat) : W16 :=
  (blockSlots s lead).foldl (fun m k => if groupGone (s.slot k) then m ||| (1#16 <<< (s.slot k).bind.gidx.toNat) else m)
    (s.block lead).killed

/-- A barrier has met its count (R193). -/
def barrierFull (s : State) (lead : Nat) (k : W4) : Bool :=
  let b := tget (s.block lead).bars k.toNat {}
  b.exp != 0 && decide (b.exp ≤ popN16 (b.arr ||| goneMask s lead))
where
  popN16 (m : W16) : Nat := ((List.range 16).filter fun i => m.getLsbD i).length

/-- A group parked at a barrier has stopped, so the barrier releases at resume (R164, R194). -/
def barrierHeld (s : State) (lead : Nat) (k : W4) : Bool :=
  (blockSlots s lead).any fun j => (s.slot j).stopped && (s.slot j).barrier == some k

/-- The deferred trap of a group is due: its results have all returned, it stands between two instructions, and neither it nor
its die has stopped (R164, R171, R186, R280). -/
def faultDue (s : State) (k : Nat) : Bool :=
  let g := s.slot k
  g.outst.isEmpty && !g.stopped && g.barrier.isNone && g.fpark.isNone && (s.die (slotDie k)).halted.isNone

/-- The deferred trap of a group, with RPC at the first instruction not issued (R186, R279). -/
def takeDeferred (s : State) (k : Nat) : State :=
  match (s.slot k).dfault with
  | none => s
  | some (_, t) =>
    if faultDue s k then takeTrap (s.setSlot k { s.slot k with dfault := none }) k { t with rpc := (s.slot k).pc } else s

/-- What the release of a barrier does to a group: one that waits there goes on after its barrier instruction, and one that a
trap has taken from its wait is to go on there when it returns (R193, log 92: DEDUCED). -/
def passBarrier (g : Slot) (k : W4) : Slot :=
  if g.barrier = some k then { g with barrier := none, pc := nextPc g.pc }
  else match g.aside with
    | none => g
    | some a => if a.barrier = some k then { g with aside := some { a with opened := true } } else g

/-- The bytes that a slot has stored to and a group of its block later than it (R237). -/
def overtaken (slot : Nat) (mates : List Nat) : List (Nat × W8 × Nat) → List Nat
  | [] => []
  | e :: r =>
    if e.2.2 = slot ∧ r.any (fun x => x.1 == e.1 && mates.contains x.2.2) then e.1 :: overtaken slot mates r
    else overtaken slot mates r

/-- A refresh at block scope by a group: where another group of its block has stored to a byte later than it has itself, it reads
the newest of its core from now on (R237). -/
def State.refreshBlock (s : State) (k : Nat) : State :=
  let c := s.core (k / 16)
  let mates := ((blockSlots s (leadOf k (s.slot k))).filter (· != k)).map (· % 16)
  s.setCore (k / 16) { c with yields := c.yields ++ (overtaken (k % 16) mates c.dirty).map fun a => (a, k % 16) }

/-- Release a barrier: its groups go on after their barrier instruction, each after a refresh at block scope, and the next
generation opens (R193, R239). -/
def releaseBarrier (s : State) (lead : Nat) (k : W4) : State :=
  let s := (blockSlots s lead).foldl (fun s j =>
    if passBarrier (s.slot j) k = s.slot j then s
    else takeDeferred ((s.setSlot j (passBarrier (s.slot j) k)).refreshBlock j) j) s
  s.setBlock lead { s.block lead with bars := tset (s.block lead).bars k.toNat {} }

/-- The release test of a barrier (R193). -/
def testBarrier (s : State) (lead : Nat) (k : W4) : State :=
  if barrierFull s lead k && !barrierHeld s lead k then releaseBarrier s lead k else s

/-- The release test of every barrier, applied when a group exits or is killed (R193). -/
def testBarriers (s : State) (lead : Nat) : State :=
  (List.range 16).foldl (fun s k => testBarrier s lead (BitVec.ofNat 4 k)) s

/-- Once every slot of a block is Done the block is Retiring (R157). -/
def testRetiring (s : State) (lead : Nat) : State :=
  let ks := blockSlots s lead
  if !ks.isEmpty && ks.all (fun k => (s.slot k).bind.sstate == .done) then
    ks.foldl (fun s k => s.setSlot k { s.slot k with bind := { (s.slot k).bind with sstate := .retiring } }) s
  else s

/-- The end of a group: Done when Running, stopped when Draining; the in-handler state is cleared (R157, R164, R367). -/
def endGroup (s : State) (k : Nat) : State :=
  let g := s.slot k
  let g := if g.bind.sstate = .draining then { g with stopped := true, inHandler := false }
    else { g with bind := { g.bind with sstate := .done }, inHandler := false }
  let s := s.setSlot k g
  testRetiring (testBarriers s (leadOf k g)) (leadOf k g)

/-- A group that has issued `exit` ends once its variable-latency results have returned (R367); the slots of a halted die stay as they
are (R171). -/
def finishExit (s : State) (k : Nat) : State :=
  let g := s.slot k
  if g.exiting && !g.stopped && g.outst.isEmpty && g.dfault.isNone &&
      (s.die (slotDie k)).halted.isNone && (g.bind.sstate == .running || g.bind.sstate == .draining) then endGroup s k
  else s

/-- What follows any change of a group's results: its deferred trap, or its end (R186, R280, R367). -/
def settleFault (s : State) (k : Nat) : State :=
  if (s.slot k).dfault.isSome then takeDeferred s k else finishExit s k

/-- A fault of an operation joins the group's deferred fault: the oldest-issued is kept, and MORE is set (R280). -/
def joinFault (g : Slot) (id : Nat) (t : Trap) : Slot :=
  match g.dfault with
  | none => { g with dfault := some (id, t) }
  | some (i, u) =>
    if id < i then { g with dfault := some (id, { t with more := true }) }
    else { g with dfault := some (i, { u with more := true }) }

/-- A halt of a die is permitted for a tenant while the die holds no block of another tenant and no other tenant holds it
halted (R294). -/
def haltPermitted (s : State) (d : Nat) (t : W6) : Bool :=
  (s.slots.all fun e => slotDie e.1 != d || e.2.bind.sstate == .empty || (e.2.bind.tenant == t && !s.reserved e.2.bind.asid)) &&
    (match (s.die d).halted with
     | none => true
     | some u => u == t)

/-- Halt a die for a tenant (R293, R294). -/
def haltDie (s : State) (d : Nat) (t : W6) : State :=
  let i := s.iface t.toNat
  let s := s.setDie d { s.die d with halted := some t }
  s.setIface t.toNat { i with halt := i.halt ||| (1#8 <<< d), halted := i.halted ||| (1#8 <<< d) }

/-- A refused halt (R294). -/
def refuseHalt (s : State) (d : Nat) (t : W6) : State :=
  let i := s.iface t.toNat
  s.setIface t.toNat { i with refused := i.refused ||| (1#8 <<< d) }

/-- The stores that a group has issued have performed (R193, R365). -/
def storesPerformed (g : Slot) : Bool :=
  g.outst.all fun o => match o.op with
    | .mem m => (match m.kind with
      | .store _ => o.res.isSome
      | .atom _ _ none => o.res.isSome
      | _ => true)
    | _ => true

end Sys2Proof.Machine
end

