-- ==== Sys2Proof/Machine/Control.lean ====
section
/-! DEFINITION. Branches, calls and returns, special-register moves, barriers, safe points, exit, traps and debug (R360 to
R370). -/
namespace Sys2Proof.Machine

/-! ### Branches (R356, R360, R361) -/

/-- A target that no control transfer may take: its bits [5:3] are nonzero, its slot does not exist, or its line can be
fetched and does not name it as a branch target (R360). -/
def targetBad (s : State) (die asid : Nat) (t : W64) : Bool :=
  t.extractLsb' 3 3 != 0 || decide (4 < (t.extractLsb' 0 3).toNat) ||
    ((fetchFault s die asid t).isNone && !targetOk (fetchLine s die asid t) (t.extractLsb' 0 3).toNat)

/-- CFLOW, with the target in ARG0 (R282, R360). -/
def cflow (g : Slot) (t : W64) : Trap := { preciseTrap g 0x03 0 g.em with arg0 := t }

/-- Control goes to `t`, unless CFLOW is due; `g` is the group with the instruction's register write. -/
def branchTo (s : State) (g : Slot) (t : W64) (sw : Bool) : State :=
  if targetBad s (slotDie s.cur) g.bind.asid.toNat t then s.trapCur (cflow s.grp t) else s.issued { g with pc := t } sw

/-- The target of a direct form: the branch line plus 64 × DISP, slot TSLOT (R308, R360). -/
def directTarget (pc : W64) (disp : BitVec 29) (tslot : W3) : W64 :=
  (lineOf pc + 64 * disp.signExtend 64) ||| tslot.setWidth 64

/-- The condition of a branch on a register read as `.i64`; no condition is always true (R356). -/
def brTaken (c : Option Cond) (a : W64) : Bool :=
  match c with
  | none => true
  | some c => condInt64 c a.toInt
where
  condInt64 (c : Cond) (a : Int) : Bool :=
    match c with
    | .eq => a == 0
    | .ne => a != 0
    | .lt => decide (a < 0)
    | .le => decide (a ≤ 0)
    | .gt => decide (0 < a)
    | .ge => decide (0 ≤ a)
    | .un => false

/-- BR (R356, R361). -/
def execBr (o : Br) (s : State) : Out :=
  let g := s.grp
  checked s (o.cond.isNone || okS g o.a) g.em
    (if brTaken o.cond (getS g o.a) then branchTo s g (directTarget g.pc o.disp o.tslot) o.sw else s.retire g o.sw)

/-- BRMZ (R361). -/
def execBrmz (o : BrM) (s : State) : Out :=
  let g := s.grp
  .next (if maskReg g o.a = 0 then branchTo s g (directTarget g.pc o.disp o.tslot) o.sw else s.retire g o.sw)

/-- BRMNZ (R361). -/
def execBrmnz (o : BrM) (s : State) : Out :=
  let g := s.grp
  .next (if maskReg g o.a = 0 then s.retire g o.sw else branchTo s g (directTarget g.pc o.disp o.tslot) o.sw)

/-- CALL: the link is the pc of the following slot (R361). -/
def execCall (o : Call) (s : State) : Out :=
  let g := s.grp
  checked s (okS g o.b) g.em (branchTo s (setS g o.b (nextPc g.pc)) (directTarget g.pc o.disp o.tslot) o.sw)

/-- RET (R361). -/
def execRet (o : SSrc) (s : State) : Out :=
  let g := s.grp
  checked s (okS g o.a) g.em (branchTo s g (getS g o.a) o.sw)

/-- JMP (R361). -/
def execJmp (o : SSrc) (s : State) : Out :=
  let g := s.grp
  checked s (okS g o.a) g.em (branchTo s g (getS g o.a) o.sw)

/-! ### Special registers (R178, R282, R362 to R364) -/

/-- An earlier instruction of the group that can raise `$fflags` or `$iflags` is unfinished (R364). -/
def flagsPending (g : Slot) : Bool :=
  g.outst.any (fun o => match o.op with
    | .wait => true
    | _ => false) || g.board.any fun t => t.engine

/-- Word k of the trap frame (R282). -/
def frameWord (f : Frame) (k : Nat) : W64 :=
  match k with
  | 0 => f.trapw
  | 1 => f.fpc
  | 2 => f.rpc
  | 3 => 0#31 ++ BitVec.ofBool f.more ++ f.em
  | 4 => f.arg0
  | 5 => f.arg1
  | 6 => f.bcount.setWidth 64
  | _ => 0

/-- A uniform special register (R178, R363). -/
def sprUniform (s : State) (r : Spr) (idx : Nat) : W64 :=
  let g := s.grp
  match r with
  | .group => g.bind.gidx.setWidth 64
  | .block => g.bind.block.setWidth 64
  | .core => BitVec.ofNat 64 (slotCoreNo s.cur)
  | .die => BitVec.ofNat 64 (slotDie s.cur)
  | .pkg => s.pkgid.setWidth 64
  | .clock => (s.die (slotDie s.cur)).clock
  | .trap => frameWord g.frame idx
  | .safe => BitVec.ofNat 64 (g.count + 1)
  | .lane | .quarter | .fflags | .iflags => 0

/-- A per-lane special register in a lane, or none for a uniform one. -/
def sprLane (g : Slot) (r : Spr) (l : Nat) : Option W32 :=
  match r with
  | .lane => some (BitVec.ofNat 32 l)
  | .quarter => some (BitVec.ofNat 32 (l / 8))
  | .fflags => some ((lane g.fflags l).setWidth 32)
  | .iflags => some ((lane g.iflags l).setWidth 32)
  | _ => none

def isFlagsSpr (r : Spr) : Bool := r == .fflags || r == .iflags

/-- SRD: all 32 lanes, whatever `em` holds (R362). -/
def execSrd (o : Srd) (s : State) : Out :=
  let g := s.grp
  if (sprLane g o.spr 0).isSome then
    if !okV g o.d then .next (s.regRange g.em)
    else if isFlagsSpr o.spr && flagsPending g then .next (s.stallAt .resource)
    else .next (s.retire (setV g o.d 0xFFFFFFFF (genVec fun l => (sprLane g o.spr l).getD 0)) o.sw)
  else
    let d : SReg := o.d.setWidth 6
    checked s (okS g d) g.em (s.retire (setS g d (sprUniform s o.spr o.idx.toNat)) o.sw)

/-- SWR: bits [7:0] of each lane with reserved bits ignored; a read-only register is ILLEGAL code 0x02 (R178, R259, R362). -/
def execSwr (o : Swr) (s : State) : Out :=
  let g := s.grp
  if !isFlagsSpr o.spr then .next (s.illegal 0x02)
  else if !okV g o.a then .next (s.regRange g.em)
  else if flagsPending g then .next (s.stallAt .resource)
  else
    let a := getV g o.a
    .next (s.retire (if o.spr == .fflags then { g with fflags := genVec fun l => (lane a l).setWidth 8 &&& 0x1F }
      else { g with iflags := genVec fun l => (lane a l).setWidth 8 &&& 0x0F }) o.sw)

/-! ### Safe points, exit and barriers (R164, R193, R365 to R367) -/

/-- NOP (R313). -/
def execNop (sw : Bool) (s : State) : Out := .next (s.retire s.grp sw)

/-- SAFEPT: the bound count is zero, and a Draining group stops (R166, R366). -/
def execSafept (o : Safept) (s : State) : Out :=
  let s := s.retire s.grp o.sw
  let g : Slot := { s.grp with count := 0 }
  .next (s.setGrp (if g.bind.sstate = .draining then { g with stopped := true, safe := some o.idx } else g))

/-- EXIT: the group issues nothing further, and ends once its results have returned; the pc stays at the `exit` (R367). -/
def execExit (sw : Bool) (s : State) : Out :=
  .next (settleFault (s.issued { s.grp with exiting := true } sw) s.cur)

/-- BARRIER, with the barrier and the count in ARG0 (R279, R282). -/
def barrierTrap (g : Slot) (code : W8) (k : W4) (c : BitVec 5) : Trap :=
  { preciseTrap g 0x08 code g.em with arg0 := BitVec.ofNat 64 (c.toNat * 256 + k.toNat) }

/-- The check that an arrival fails, by its code (R193). -/
def barrierCode (b : Barrier) (gidx : W4) (gcnt : Nat) (c : Nat) : Option W8 :=
  if c = 0 ∨ gcnt < c then some 0x01
  else if b.exp ≠ 0 ∧ b.exp ≠ c then some 0x02
  else if b.arr.getLsbD gidx.toNat then some 0x03
  else none

/-- An arrival at a barrier (R193, R365): it waits for the group's stores, and behind a phase instruction whose steps are not complete,
so that the barrier orders its publish (R198, R238, R243, log 120: DEDUCED). One that meets a full barrier whose release waits for a resume stops the group
(log 10: DEDUCED). -/
def arrive (o : Bar) (wait : Bool) (s : State) : Out :=
  let g := s.grp
  let b := tget (s.block s.lead).bars o.k.toNat {}
  if !storesPerformed g then .next (s.stallAt .barrier)
  else if g.phase.isSome then .next (s.stallAt .resource)
  else if barrierFull s s.lead o.k && g.bind.sstate == .draining then .next (s.setGrp { g with stopped := true })
  else match barrierCode b g.bind.gidx (g.bind.gcntm1.toNat + 1) o.c.toNat with
    | some code => .next (s.trapCur (barrierTrap g code o.k o.c))
    | none =>
      let lead := s.lead
      let b' : Barrier := ⟨o.c.toNat, b.arr ||| (1#16 <<< g.bind.gidx.toNat)⟩
      let s := s.setBlock lead { s.block lead with bars := tset (s.block lead).bars o.k.toNat b' }
      if wait then
        let s := testBarrier (s.issued { g with barrier := some o.k } o.sw) lead o.k
        .next (if s.grp.barrier.isSome then s.setGrp (stopIfDraining s.grp) else s)
      else .next (testBarrier (s.retire g o.sw) lead o.k)

/-- SBWAIT: the group is held, with its pc at the instruction, until the release (R193, R365). -/
def execSbwait (o : Bar) (s : State) : Out := arrive o true s

/-- SBMARK (R193, R365). -/
def execSbmark (o : Bar) (s : State) : Out := arrive o false s

/-! ### Traps and debug (R293, R368 to R370) -/

/-- TRAP: SOFT, with RPC at the following slot (R368). -/
def execTrap (o : TrapCode) (s : State) : Out :=
  let g := s.grp
  .next (s.trapCur { preciseTrap g 0x0D o.code g.em with rpc := nextPc g.pc, arg0 := o.code.setWidth 64 })

/-- Return from a handler (R369): the count of issues stays as it is (R166). -/
def tretTo (s : State) (g : Slot) (t : W64) (sw : Bool) : State :=
  if g.em ≠ g.frame.em then s.trapCur (preciseTrap g 0x06 0x02 g.em)
  else if t.extractLsb' 3 3 ≠ 0 ∨ 4 < (t.extractLsb' 0 3).toNat then s.trapCur (cflow g t)
  else
    let h := leaveHandler g t
    let s := s.issued h sw
    let r : Slot := { s.grp with count := g.count, replay := h.replay }
    s.setGrp (if h.barrier.isSome then stopIfDraining r else r)

/-- TRET (R369). -/
def execTret (sw : Bool) (s : State) : Out :=
  let g := s.grp
  if !g.inHandler then .next (s.illegal 0x04) else .next (tretTo s g g.frame.rpc sw)

/-- TRET with a register (R369). -/
def execTretReg (o : SSrc) (s : State) : Out :=
  let g := s.grp
  if !g.inHandler then .next (s.illegal 0x04)
  else checked s (okS g o.a) g.em (tretTo s g (getS g o.a) o.sw)

/-- BRK: BREAK, or a halt of the die when BRKHALT is set and the halt is permitted (R293, R370). -/
def execBrk (sw : Bool) (s : State) : Out :=
  let g := s.grp
  let d := slotDie s.cur
  let t := g.bind.tenant
  let brk : Trap := { preciseTrap g 0x0E 0 g.em with rpc := nextPc g.pc }
  if (s.iface t.toNat).brkHalt && !s.reserved g.bind.asid then
    if haltPermitted s d t then .next (haltDie (s.retire g sw) d t)
    else .next ((refuseHalt s d t).trapCur brk)
  else .next (s.trapCur brk)

end Sys2Proof.Machine
end

