-- ==== Sys2Proof/Machine/Flows.lean ====
section
/-! DEFINITION. Flows of messages between dies and packages as their source sends them (R62, R66, R69, R71, R75, R85), and
the sending of a group's queue operations (R439, R441, R453). -/
namespace Sys2Proof.Machine

/-! ### PQIDs (R27) -/

def pqPkg (p : W32) : BitVec 9 := p.extractLsb' 23 9
def pqDie (p : W32) : W3 := p.extractLsb' 20 3
def pqPort (p : W32) : W4 := p.extractLsb' 16 4
def pqQueue (p : W32) : W16 := p.extractLsb' 0 16

/-- The key of a queue of this package. -/
def queueKey (die port q : Nat) : Nat := (die * 16 + port) * 65536 + q

/-- The flow from a die to the home of a queue (R66). -/
def flowTo (s : State) (die : Nat) (p : W32) : Flow := ⟨s.pkgid, BitVec.ofNat 3 die, pqPkg p, pqDie p⟩

/-- The flow that carries the answers (R66). -/
def revFlow (f : Flow) : Flow := ⟨f.dpkg, f.ddie, f.spkg, f.sdie⟩

/-- A flow that stays inside the package (R62). -/
def inPackage (s : State) (f : Flow) : Bool := f.dpkg == s.pkgid

def limKey (die : Nat) (pkg : BitVec 9) : Nat := die * 512 + pkg.toNat
def State.limiter (s : State) (k : Nat) : Limiter := tget s.limiters k {}
def State.setLimiter (s : State) (k : Nat) (l : Limiter) : State := { s with limiters := tset s.limiters k l }

/-! ### Sending (R66, R69, R71) -/

/-- A message to which a REPLY answers (R73). -/
def asks (t : MsgType) : Bool :=
  t == .write || t == .reserve || t == .push || t == .dequeue || t == .release || t == .sleep

/-- A message that takes an FSEQ of its flow (R66). -/
def numbered (t : MsgType) : Bool := !(t == .flush || t == .flushAck || t == .ack || t == .flowReset)

/-- The tokens of a limiter at the present time: units of 6.25 GB/s fill the bucket, up to 4 KiB (R75). -/
def tokensNow (s : State) (l : Limiter) : Int := min 16384 (l.tokens + ((s.time - l.tokensAt) * l.units * 25 : Nat))

/-- A limiter is credited with its tokens so far, as it is before its units change. -/
def credited (s : State) (l : Limiter) : Limiter := { l with tokens := tokensNow s l, tokensAt := s.time }

/-- A message waits for its turn at the limiter of its target package (R75). -/
def queueOut (s : State) (f : Flow) (m : Msg) : State :=
  let k := limKey f.sdie.toNat f.dpkg
  let l := s.limiter k
  s.setLimiter k { l with waiting := l.waiting ++ [m] }

/-- A numbered message leaves: to its destination at once inside the package (R62), else to the limiter. -/
def emit (s : State) (f : Flow) (m : Msg) : State :=
  let x := s.flow f
  let m := { m with flow := f, fseq := x.next }
  if inPackage s f then s.setFlow f { x with next := x.next + 1, arrived := x.arrived ++ [m] }
  else queueOut (s.setFlow f { x with next := x.next + 1,
                                      answers := if asks m.typ then x.answers ++ [⟨m.fseq, m.ctx, m.typ, m.port, m.queue, m.tenant, m.entry, m.dev⟩]
                                        else x.answers }) f m

/-- Messages of a flow that are unacknowledged, those among them that still wait at the limiter, or await their REPLY (R69). -/
def flowLoad (s : State) (f : Flow) : Nat :=
  let x := s.flow f
  let out := (s.limiter (limKey f.sdie.toNat f.dpkg)).waiting.filter fun m => m.flow == f && numbered m.typ
  ((x.unacked.map fun u => u.msg.fseq) ++ x.answers.map (·.fseq) ++ out.map (·.fseq)).eraseDups.length

/-- No message of a flow may take a number now: 4,096 are under way, the flow awaits a FLOWRESET answer, or its die has declared
the package unreachable (R69, R85, log 21: DEDUCED). -/
def flowFull (s : State) (f : Flow) : Bool :=
  (s.flow f).resetAt.isSome || (s.limiter (limKey f.sdie.toNat f.dpkg)).unreachable || decide (4096 ≤ flowLoad s f)

/-- A further message waits at the source. -/
def flowBlocked (s : State) (f : Flow) : Bool := !(s.flow f).held.isEmpty || flowFull s f

/-- A die sends a message that takes an FSEQ (R66). -/
def sendMsg (s : State) (f : Flow) (m : Msg) : State :=
  let x := s.flow f
  if !inPackage s f && flowBlocked s f then s.setFlow f { x with held := x.held ++ [m] } else emit s f m

/-- A message that takes no FSEQ: FLUSH, FLUSHACK, ACK, FLOWRESET (R66). -/
def sendCtl (s : State) (f : Flow) (m : Msg) : State :=
  let m := { m with flow := f }
  let x := s.flow f
  if inPackage s f then s.setFlow f { x with arrived := x.arrived ++ [m] } else queueOut s f m

/-- A link is up (R83). -/
def linkUp (s : State) (l : Nat) : Bool := (s.link l).state == .up

/-- The paths to a package that are up (R67, R84). -/
def upLinks (s : State) (pkg : BitVec 9) : List Nat :=
  (List.range 64).filter fun l => linkUp s l && !s.fabric.badPaths.contains (l, pkg.toNat)

/-- The marker of a flush leaves inside the package, or waits at the limiter: its markers take their paths, those that are up then, when
they are admitted (R71, R75). -/
def emitFlush (s : State) (f : Flow) (num : Nat) (tenant : W6) (dev : Bool) : State :=
  let x := s.flow f
  let s := s.setFlow f { x with flushes := x.flushes ++ [⟨num, x.next - 1, tenant, [], s.time, dev⟩] }
  sendCtl s f { flow := f, typ := .flush, fseq := x.next - 1, num := num, tenant := tenant, dev := dev }

/-- Flush a flow for an operation of a tenant, or of the device tenant (R71, R76, R103), behind the messages that wait at the source. It
answers the flush number. -/
def sendFlush (s : State) (f : Flow) (tenant : W6) (dev : Bool) : Nat × State :=
  let blocked := !inPackage s f && flowBlocked s f
  let x := s.flow f
  let num := x.nextFlush.toNat
  let s := s.setFlow f { x with nextFlush := x.nextFlush + 1 }
  let y := s.flow f
  (num, if blocked then s.setFlow f { y with held := y.held ++ [{ typ := .flush, num := num, tenant := tenant, dev := dev }] }
    else emitFlush s f num tenant dev)

/-- Messages held at the source leave as places come free (R69). -/
def releaseHeld (s : State) (f : Flow) : Nat → State
  | 0 => s
  | n + 1 =>
    let x := s.flow f
    match x.held with
    | [] => s
    | m :: r =>
      if flowFull s f then s
      else
        let s := s.setFlow f { x with held := r }
        releaseHeld (if m.typ = .flush then emitFlush s f m.num m.tenant m.dev else emit s f m) f n

/-! ### Queue operations of a group (R238, R439, R441, R453) -/

/-- A die has declared a package unreachable (R85). -/
def unreachable (s : State) (die : Nat) (p : W32) : Bool :=
  pqPkg p != s.pkgid && (s.limiter (limKey die (pqPkg p))).unreachable

/-- QUEUE as a deferred trap, with the handle and the PQID (R279, R282). -/
def queueFault (fpc : W64) (lanes : W32) (code : W8) (handle pqid : W32) : Trap :=
  { cause := 0x0A, code := code, precise := false, lanes := lanes, fpc := fpc, arg0 := handle.setWidth 64,
    arg1 := pqid.setWidth 64 }

/-- The message of an operation (R64). -/
def opMsg (q : QOp) (who : Requester) : Msg :=
  let m : Msg := { typ := .write, port := pqPort q.pqid, queue := pqQueue q.pqid, tenant := q.tenant, ctx := who }
  match q.kind with
  | .res => { m with typ := .reserve, try_ := q.try_, n := q.n }
  | .put => { m with typ := .write, seq := q.seq, data := q.data, esz := some q.esz }
  | .push => { m with typ := .push, try_ := q.try_, data := q.data, esz := some q.esz }
  | .get => { m with typ := .dequeue, mode := if q.try_ then 1 else 0, esz := some q.esz }
  | .peek => { m with typ := .dequeue, mode := 2, esz := some q.esz }
  | .count => { m with typ := .dequeue, mode := 3 }
  | .sleep => { m with typ := .sleep, mode := if q.all then 1 else 0 }
  | .wake => { m with typ := .sleep, mode := if q.all then 3 else 2 }
  | .rel => { m with typ := .release, seq := q.seq, ticket := q.ticket }
  | .relMrg => { m with typ := .release, mrg := true }
  | .merge => { m with typ := .merge, key := q.key, data := q.data, esz := some q.esz }
  | .fence => m

/-- The entries of a queue leave the marver of a die for a release (R50). -/
def takeMarver (s : State) (die : Nat) (p : W32) : List MarEntry × State :=
  let k := portKey die (pqPort p).toNat
  let x := s.port k
  (x.marver.filter fun e => e.pqid == p, s.setPort k { x with marver := x.marver.filter fun e => e.pqid != p })

/-- The code of an element size. -/
def eszOf (n : Nat) : W3 := if n ≤ 16 then 0 else if n ≤ 32 then 1 else if n ≤ 64 then 2 else if n ≤ 128 then 3 else 4

/-- A merge contribution on its way to its home (R50). -/
def mergeMsg (e : MarEntry) : Msg :=
  { typ := .merge, port := pqPort e.pqid, queue := pqQueue e.pqid, tenant := e.tenant, key := e.key,
    esz := some (eszOf e.data.length), data := e.data, by_ := e.by_, dev := e.dev }

/-- A release gives back a grant that its group held in another package. -/
def dropGrant (s : State) (ctx : Nat) (f : Flow) (m : Msg) : State :=
  { s with grants := s.grants.filter fun x =>
      !(x.ctx == ctx && x.flow == f && x.port == m.port && x.queue == m.queue && x.ticket == m.ticket) }

def setOutst (g : Slot) (o : Outst) : Slot := { g with outst := g.outst.map fun x => if x.id = o.id then o else x }

/-- A held operation leaves the source (R66, R72); to a package declared unreachable it faults at once (R85). -/
def sendOp (s : State) (k : Nat) (o : Outst) (q : QOp) : State :=
  let g := s.slot k
  let die := slotDie k
  if unreachable s die q.pqid then
    s.setSlot k (setOutst g { o with res := some { fault := some (queueFault o.fpc q.lanes 0x19 q.handle q.pqid) } })
  else
    let f := flowTo s die q.pqid
    let dev := s.reserved g.bind.asid
    let m := { opMsg q (.group g.ctx o.id) with dev := dev, via := some (g.bind.asid, (q.handle.extractLsb' 0 16).toNat) }
    let release := q.kind == .rel || q.kind == .relMrg
    let (es, s) := if q.kind == .relMrg then takeMarver s die q.pqid else ([], s)
    let s := if inPackage s f then s else es.foldl (fun s e => sendMsg s f (mergeMsg e)) s
    let m := if inPackage s f then { m with parts := es.map fun e => (e.key, e.data), by_ := es.flatMap fun e => e.by_ } else m
    let (num, s) := if release then sendFlush s f q.tenant dev else (0, s)
    let s := sendMsg s f { m with num := num }
    let s := if q.kind == .rel then dropGrant s g.ctx f m else s
    let g := s.slot k
    let g : Slot := setOutst g { o with op := .queue { q with st := .sent f, num := num } }
    s.setSlot k { g with flows := if g.flows.contains f then g.flows else g.flows ++ [f] }

/-- No earlier phase is incomplete (R238). -/
def afterPhase (g : Slot) (id : Nat) : Bool :=
  match g.phase with
  | none => true
  | some p => decide (id < p.id)

/-- The held operations that may leave, in issue order: none behind an incomplete phase or an outstanding `qfence` (R238,
R453). -/
def sendHeld (s : State) (k : Nat) : State :=
  (s.slot k).outst.foldl (fun s o => match o.op with
    | .queue q =>
      if q.st = .held && o.res.isNone && afterPhase (s.slot k) o.id && (s.slot k).fence.isNone then sendOp s k o q else s
    | _ => s) s

end Sys2Proof.Machine
end

