-- ==== Sys2Proof/Machine/Flags.lean ====
section
/-! DEFINITION. The sticky flags (R179, R259) and the result of a lane that raises them. -/
namespace Sys2Proof.Machine

/-- Bits of `$fflags` (R259). -/
def fNX : W8 := 1
def fUF : W8 := 2
def fOF : W8 := 4
def fDZ : W8 := 8
def fNV : W8 := 16

/-- Bits of `$iflags` (R179). -/
def iOV : W8 := 1
def iDZ : W8 := 2
def iSAT : W8 := 4
def iCNTOV : W8 := 8

/-- A lane's result with the bits it raises in `$fflags` and in `$iflags`. -/
structure LaneRes where
  bits : W32
  ff : W8 := 0
  iff : W8 := 0
  deriving DecidableEq, Repr

/-- Flags are sticky: raised in the lanes of a mask, and never cleared (R259). -/
def orFlags (mask : W32) (old new : Lanes 8) : Lanes 8 :=
  genVec fun l => if laneOn mask l then lane old l ||| lane new l else lane old l

/-- A group with flags raised in the lanes of a mask. -/
def raise (g : Slot) (mask : W32) (ff iff : Lanes 8) : Slot :=
  { g with fflags := orFlags mask g.fflags ff, iflags := orFlags mask g.iflags iff }

end Sys2Proof.Machine
end

