-- ==== Sys2Proof/Machine/Numbers.lean ====
section
/-! DEFINITION. Number formats and exact arithmetic (R251 to R258, R264 to R278): values, one rounding, IEEE 754
operations, EX2 and LG2, the coin, draw records and the seeded-sparsity pattern. -/
namespace Sys2Proof.Machine

/-! ### Formats and values (R251, R252) -/

/-- A storage format: widths of its exponent and fraction, whether it has infinities, and the significand of its largest
finite value (R251). -/
structure Fmt where
  ew : Nat
  fw : Nat
  infs : Bool
  maxSig : Nat
  deriving DecidableEq, Repr

def fp32 : Fmt := ⟨8, 23, true, 2 ^ 24 - 1⟩
def bf16 : Fmt := ⟨8, 7, true, 2 ^ 8 - 1⟩
def fp16 : Fmt := ⟨5, 10, true, 2 ^ 11 - 1⟩
def e4m3 : Fmt := ⟨4, 3, false, 14⟩
def e5m2 : Fmt := ⟨5, 2, true, 7⟩

def tyFmt : Ty → Option Fmt
  | .f32 => some fp32
  | .bf16 => some bf16
  | .f16 => some fp16
  | .e4m3 => some e4m3
  | .e5m2 => some e5m2
  | _ => none

def Fmt.bias (f : Fmt) : Nat := 2 ^ (f.ew - 1) - 1
def Fmt.width (f : Fmt) : Nat := 1 + f.ew + f.fw

/-- The exponent of the largest finite value. -/
def Fmt.emax (f : Fmt) : Int := if f.infs then (f.bias : Int) else (f.bias : Int) + 1

/-- A value: a NaN, signalling or quiet; an infinity; or (−1)^neg × sig × 2^exp. -/
inductive FVal
  | nan (sig : Bool)
  | inf (neg : Bool)
  | fin (neg : Bool) (sig : Nat) (exp : Int)
  deriving DecidableEq, Repr

/-- The value of an encoding (R251); upper bits are ignored (R253). -/
def fval (f : Fmt) (n : Nat) : FVal :=
  let neg := n.testBit (f.ew + f.fw)
  let e := n / 2 ^ f.fw % 2 ^ f.ew
  let m := n % 2 ^ f.fw
  if e = 2 ^ f.ew - 1 ∧ f.infs then
    if m = 0 then .inf neg else .nan (decide (f.ew ≠ 5 ∨ f.fw ≠ 2) && !m.testBit (f.fw - 1))
  else if e = 2 ^ f.ew - 1 ∧ m = 2 ^ f.fw - 1 then .nan false
  else if e = 0 then .fin neg m (1 - (f.bias : Int) - f.fw)
  else .fin neg (m + 2 ^ f.fw) ((e : Int) - f.bias - f.fw)

def signBit (f : Fmt) (neg : Bool) : Nat := if neg then 2 ^ (f.ew + f.fw) else 0

/-- The canonical NaN of a format (R252). -/
def qnan (f : Fmt) : Nat := if f.infs then (2 ^ f.ew - 1) * 2 ^ f.fw + 2 ^ (f.fw - 1) else 2 ^ (f.ew + f.fw) - 1

def infBits (f : Fmt) (neg : Bool) : Nat := signBit f neg + (2 ^ f.ew - 1) * 2 ^ f.fw

/-- The largest finite value (R251). -/
def maxBits (f : Fmt) (neg : Bool) : Nat :=
  signBit f neg + (if f.infs then (2 ^ f.ew - 1) * 2 ^ f.fw - 1 else (2 ^ f.ew - 1) * 2 ^ f.fw + f.maxSig - 2 ^ f.fw)

/-! ### Rounding (R254 to R256) -/

/-- An encoding and the flags it raises. -/
structure FRes where
  bits : Nat
  fl : W8 := 0
  deriving DecidableEq, Repr

/-- Whether a magnitude rounds up: its quotient is odd, and its remainder over `den` (R254). -/
def roundsUp (rm : Rm) (neg odd : Bool) (rem den : Nat) : Bool :=
  match rm with
  | .rn => decide (den < 2 * rem) || (decide (2 * rem = den) && odd)
  | .rz => false
  | .ru => !neg && rem != 0
  | .rd => neg && rem != 0

/-- A magnitude `sig × 2^exp` as a multiple of 2^q, and whether it is inexact. -/
def quantize (rm : Rm) (neg : Bool) (sig : Nat) (exp q : Int) : Nat × Bool :=
  if q ≤ exp then (sig * 2 ^ (exp - q).toNat, false)
  else
    let den := 2 ^ (q - exp).toNat
    let m := sig / den
    let r := sig % den
    (if roundsUp rm neg (m % 2 == 1) r den then m + 1 else m, r != 0)

/-- The result of an overflow (R255, R256); E4M3 writes a NaN for an infinity. -/
def overflow (f : Fmt) (rm : Rm) (sat neg : Bool) : Nat :=
  let toInf := match rm with
    | .rn => true
    | .rz => false
    | .ru => !neg
    | .rd => neg
  if !toInf || sat then maxBits f neg else if f.infs then infBits f neg else qnan f

/-- One rounding of a finite value (R254, R255): tininess is detected after rounding. -/
def roundFin (f : Fmt) (rm : Rm) (sat neg : Bool) (sig : Nat) (exp : Int) : FRes :=
  if sig = 0 then ⟨signBit f neg, 0⟩
  else
    let top := exp + Nat.log2 sig
    let emin : Int := 1 - (f.bias : Int)
    let top' := if top < emin then emin else top
    let (m, nx) := quantize rm neg sig exp (top' - f.fw)
    let u := (quantize rm neg sig exp (top - f.fw)).1
    let tiny := decide (top < emin) && !(decide (top = emin - 1) && u == 2 ^ (f.fw + 1))
    if f.emax < top' ∨ (top' = f.emax ∧ f.maxSig < m) then ⟨overflow f rm sat neg, fOF ||| fNX⟩
    else
      ⟨signBit f neg + ((top' + f.bias - 1).toNat * 2 ^ f.fw + m),
       (if nx then fNX else 0) ||| (if tiny && nx then fUF else 0)⟩

/-- One rounding of an exact result; `.sat` replaces an infinity (R252, R256). -/
def roundV (f : Fmt) (rm : Rm) (sat : Bool) (v : FVal) : FRes :=
  match v with
  | .nan _ => ⟨qnan f, 0⟩
  | .inf neg => ⟨if sat then maxBits f neg else if f.infs then infBits f neg else qnan f, 0⟩
  | .fin neg sig exp => roundFin f rm sat neg sig exp

/-! ### Exact arithmetic (R380) -/

def FVal.isNan : FVal → Bool
  | .nan _ => true
  | _ => false

def FVal.isSig : FVal → Bool
  | .nan s => s
  | _ => false

def FVal.isZero : FVal → Bool
  | .fin _ sig _ => sig == 0
  | _ => false

def FVal.isNeg : FVal → Bool
  | .nan _ => false
  | .inf n => n
  | .fin n _ _ => n

def FVal.neg : FVal → FVal
  | .nan s => .nan s
  | .inf n => .inf !n
  | .fin n m e => .fin (!n) m e

/-- A signed integer times 2^exp, with the sign that an exact zero takes. -/
def ofInt (zneg : Bool) (n : Int) (exp : Int) : FVal :=
  if n = 0 then .fin zneg 0 exp else .fin (decide (n < 0)) n.natAbs exp

def sint (neg : Bool) (m : Nat) : Int := if neg then -(m : Int) else m

/-- A finite value as an integer multiple of 2^q, for q at most its exponent. -/
def scaled (neg : Bool) (m : Nat) (e q : Int) : Int := sint neg m * 2 ^ (e - q).toNat

/-- The exact product, and whether it is 0 × ∞. -/
def mulV (a b : FVal) : FVal × Bool :=
  match a, b with
  | .nan _, _ => (.nan false, false)
  | _, .nan _ => (.nan false, false)
  | .inf n, .inf n' => (.inf (n ^^ n'), false)
  | .inf n, .fin n' m _ => if m = 0 then (.nan false, true) else (.inf (n ^^ n'), false)
  | .fin n m _, .inf n' => if m = 0 then (.nan false, true) else (.inf (n ^^ n'), false)
  | .fin n m e, .fin n' m' e' => (.fin (n ^^ n') (m * m') (e + e'), false)

/-- The exact sum, and whether it is ∞ − ∞; the sign of an exact zero follows R254. -/
def addV (rm : Rm) (a b : FVal) : FVal × Bool :=
  match a, b with
  | .nan _, _ => (.nan false, false)
  | _, .nan _ => (.nan false, false)
  | .inf n, .inf n' => if n = n' then (.inf n, false) else (.nan false, true)
  | .inf n, .fin _ _ _ => (.inf n, false)
  | .fin _ _ _, .inf n => (.inf n, false)
  | .fin n m e, .fin n' m' e' =>
    let q := if e ≤ e' then e else e'
    (ofInt (if n = n' then n else decide (rm = .rd)) (scaled n m e q + scaled n' m' e' q) q, false)

def nvIf (b : Bool) : W8 := if b then fNV else 0

/-- Round a value that an operation made, with NV for an invalid operation or a signalling operand (R252, R255). -/
def finish (f : Fmt) (rm : Rm) (sat : Bool) (v : FVal) (nv : Bool) : FRes :=
  let r := roundV f rm sat v
  ⟨r.bits, r.fl ||| nvIf nv⟩

/-- a × b + c with one rounding (R380). -/
def fmaF (rm : Rm) (sat : Bool) (a b c : Nat) : FRes :=
  let a := fval fp32 a
  let b := fval fp32 b
  let c := fval fp32 c
  let p := mulV a b
  let r := addV rm p.1 c
  finish fp32 rm sat r.1 (p.2 || r.2 || a.isSig || b.isSig || c.isSig)

def addF (rm : Rm) (sat : Bool) (a b : Nat) : FRes :=
  let a := fval fp32 a
  let b := fval fp32 b
  let r := addV rm a b
  finish fp32 rm sat r.1 (r.2 || a.isSig || b.isSig)

def subF (rm : Rm) (sat : Bool) (a b : Nat) : FRes :=
  let a := fval fp32 a
  let b := fval fp32 b
  let r := addV rm a b.neg
  finish fp32 rm sat r.1 (r.2 || a.isSig || b.isSig)

def mulF (rm : Rm) (sat : Bool) (a b : Nat) : FRes :=
  let a := fval fp32 a
  let b := fval fp32 b
  let r := mulV a b
  finish fp32 rm sat r.1 (r.2 || a.isSig || b.isSig)

/-- The order of two values that are not NaN: −1, 0 or 1; −0 equals +0. -/
def cmpV (a b : FVal) : Int :=
  match a, b with
  | .nan _, _ => 0
  | _, .nan _ => 0
  | .inf n, .inf n' => if n = n' then 0 else if n then -1 else 1
  | .inf n, .fin _ _ _ => if n then -1 else 1
  | .fin _ _ _, .inf n => if n then 1 else -1
  | .fin n m e, .fin n' m' e' =>
    let q := if e ≤ e' then e else e'
    let d := scaled n m e q - scaled n' m' e' q
    if d < 0 then -1 else if 0 < d then 1 else 0

/-- The smaller or larger value, with −0 below +0 and a NaN yielding to the other operand (R381). -/
def minMaxF (max : Bool) (a b : Nat) : FRes :=
  let x := fval fp32 a
  let y := fval fp32 b
  let nv := nvIf (x.isSig || y.isSig)
  if x.isNan && y.isNan then ⟨qnan fp32, nv⟩
  else if x.isNan then ⟨b, nv⟩
  else if y.isNan then ⟨a, nv⟩
  else
    let c := if cmpV x y = 0 then (if x.isNeg && !y.isNeg then -1 else if !x.isNeg && y.isNeg then 1 else 0) else cmpV x y
    ⟨if (if max then 0 ≤ c else c ≤ 0) then a else b, nv⟩

/-- A comparison and whether it raises NV (R379). -/
def cmpF (c : Cond) (a b : Nat) : Bool × Bool :=
  let x := fval fp32 a
  let y := fval fp32 b
  let sig := x.isSig || y.isSig
  let un := x.isNan || y.isNan
  let o := cmpV x y
  match c with
  | .eq => (!un && o == 0, sig)
  | .ne => (un || o != 0, sig)
  | .lt => (!un && o < 0, un)
  | .le => (!un && o ≤ 0, un)
  | .gt => (!un && 0 < o, un)
  | .ge => (!un && 0 ≤ o, un)
  | .un => (un, sig)

/-! ### Division and roots (R383) -/

/-- The exact quotient of two nonzero finite values, cut after at least 40 bits with a last bit that says whether it is inexact. -/
def divFin (n : Bool) (m : Nat) (e : Int) (m' : Nat) (e' : Int) : FVal :=
  let k := 40 + Nat.log2 m'
  let q := m * 2 ^ k / m'
  .fin n (2 * q + (if m * 2 ^ k % m' = 0 then 0 else 1)) (e - e' - k - 1)

/-- a / b, and the flags that the operands raise. -/
def divV (a b : FVal) : FVal × W8 :=
  match a, b with
  | .nan s, .nan s' => (.nan false, nvIf (s || s'))
  | .nan s, _ => (.nan false, nvIf s)
  | _, .nan s => (.nan false, nvIf s)
  | .inf _, .inf _ => (.nan false, fNV)
  | .inf n, .fin n' _ _ => (.inf (n ^^ n'), 0)
  | .fin n _ _, .inf n' => (.fin (n ^^ n') 0 0, 0)
  | .fin n m e, .fin n' m' e' =>
    if m' = 0 then (if m = 0 then (.nan false, fNV) else (.inf (n ^^ n'), fDZ))
    else if m = 0 then (.fin (n ^^ n') 0 0, 0)
    else (divFin (n ^^ n') m e m' e', 0)

def divF (rm : Rm) (a b : Nat) : FRes :=
  let r := divV (fval fp32 a) (fval fp32 b)
  let x := roundV fp32 rm false r.1
  ⟨x.bits, x.fl ||| r.2⟩

/-- 1 / a (R383). -/
def rcpF (rm : Rm) (a : Nat) : FRes := divF rm 0x3F800000 a

/-- The integer square root, by bits from `k` down. -/
def isqrt (n : Nat) : Nat → Nat → Nat
  | 0, r => r
  | k + 1, r => isqrt n k (if (r + 2 ^ k) * (r + 2 ^ k) ≤ n then r + 2 ^ k else r)

/-- √(m × 2^e) with a last bit that says whether it is inexact; the radicand keeps at least 80 bits. -/
def sqrtFin (m : Nat) (e : Int) : FVal :=
  let k : Nat := if e % 2 = 0 then 80 else 81
  let n := m * 2 ^ k
  let r := isqrt n ((Nat.log2 n) / 2 + 1) 0
  .fin false (2 * r + (if r * r = n then 0 else 1)) ((e - k) / 2 - 1)

/-- √a (R383). -/
def sqrtF (rm : Rm) (a : Nat) : FRes :=
  match fval fp32 a with
  | .nan s => ⟨qnan fp32, nvIf s⟩
  | .inf n => if n then ⟨qnan fp32, fNV⟩ else ⟨infBits fp32 false, 0⟩
  | .fin n m e =>
    if m = 0 then ⟨signBit fp32 n, 0⟩
    else if n then ⟨qnan fp32, fNV⟩
    else roundV fp32 rm false (sqrtFin m e)

/-- 1 / √(m × 2^e), for m nonzero. -/
def rsqFin (m : Nat) (e : Int) : FVal :=
  let m := if e % 2 = 0 then m else 2 * m
  let e := if e % 2 = 0 then e else e - 1
  let r := isqrt (2 ^ 128 / m) 65 0
  .fin false (2 * r + (if r * r * m = 2 ^ 128 then 0 else 1)) (-64 - e / 2 - 1)

/-- 1 / √a (R383). -/
def rsqF (rm : Rm) (a : Nat) : FRes :=
  match fval fp32 a with
  | .nan s => ⟨qnan fp32, nvIf s⟩
  | .inf n => if n then ⟨qnan fp32, fNV⟩ else ⟨0, 0⟩
  | .fin n m e =>
    if m = 0 then ⟨infBits fp32 n, fDZ⟩
    else if n then ⟨qnan fp32, fNV⟩
    else roundV fp32 rm false (rsqFin m e)

/-! ### Conversions (R257, R258, R382) -/

/-- A finite value rounded to an integer, and whether it is inexact. -/
def toInteger (rm : Rm) (neg : Bool) (m : Nat) (e : Int) : Int × Bool :=
  let (q, nx) := quantize rm neg m e 0
  (sint neg q, nx)

/-- The integer indefinite of a type (R257). -/
def indefinite (t : Ty) : Int := if tySigned t then tyMin t else tyMax t

/-- A value clamped to a type's range, and whether that changed it. -/
def clampTy (t : Ty) (r : Int) : Int × Bool :=
  if tyMax t < r then (tyMax t, true) else if r < tyMin t then (tyMin t, true) else (r, false)

/-- Floating point to integer (R257); a signalling NaN raises NV whatever becomes of it (R252). -/
def floatToInt (t : Ty) (rm : Rm) (sat : Bool) (v : FVal) : LaneRes :=
  let bad (s : Int) : LaneRes := if sat then ⟨tyV t s, 0, iSAT⟩ else ⟨tyV t (indefinite t), fNV, 0⟩
  match v with
  | .nan s =>
    let r := bad 0
    { r with ff := r.ff ||| nvIf s }
  | .inf n => bad (if n then tyMin t else tyMax t)
  | .fin n m e =>
    let (r, nx) := toInteger rm n m e
    if tyMax t < r then bad (tyMax t)
    else if r < tyMin t then bad (tyMin t)
    else ⟨tyV t r, if nx then fNX else 0, 0⟩

/-- Between floating-point formats (R255, R256, R382). -/
def floatToFloat (f : Fmt) (rm : Rm) (sat : Bool) (v : FVal) : FRes :=
  match v with
  | .nan s => ⟨qnan f, nvIf s⟩
  | .inf n => if f.infs then ⟨infBits f n, 0⟩ else ⟨if sat then maxBits f n else qnan f, fNV⟩
  | .fin n m e => roundFin f rm sat n m e

/-- A conversion of a lane from type `st` to type `dt` (R382). -/
def convert (dt st : Ty) (rm : Rm) (sat : Bool) (n : Nat) : LaneRes :=
  match tyFmt st, tyFmt dt with
  | some f, some f' =>
    let r := floatToFloat f' rm sat (fval f n)
    ⟨BitVec.ofNat 32 r.bits, r.fl, 0⟩
  | some f, none => floatToInt dt rm sat (fval f n)
  | none, some f' =>
    let r := roundV f' rm sat (ofInt false (tyVal st n) 0)
    ⟨BitVec.ofNat 32 r.bits, r.fl, 0⟩
  | none, none =>
    if sat then
      let (r, c) := clampTy dt (tyVal st n)
      ⟨tyV dt r, 0, if c then iSAT else 0⟩
    else ⟨tyV dt (tyVal st n), 0, 0⟩

/-! ### EX2 and LG2 (R267 to R269) -/

/-- FP32 nearest to an exact value. -/
def rn (v : FVal) : FVal := fval fp32 (roundV fp32 .rn false v).bits

def rnMul (a b : FVal) : FVal := rn (mulV a b).1
def rnAdd (a b : FVal) : FVal := rn (addV .rn a b).1

/-- T of R267. -/
def ex2Table : List Nat :=
  [0x3F800000, 0x3F85AAC3, 0x3F8B95C2, 0x3F91C3D3, 0x3F9837F0, 0x3F9EF532, 0x3FA5FED7, 0x3FAD583F,
   0x3FB504F3, 0x3FBD08A4, 0x3FC5672A, 0x3FCE248C, 0x3FD744FD, 0x3FE0CCDF, 0x3FEAC0C7, 0x3FF5257D, 0x40000000]

def ex2T (j : Nat) : FVal := fval fp32 (ex2Table.getD j 0)

/-- A value times 2^n. -/
def scaleV (v : FVal) (n : Int) : FVal :=
  match v with
  | .fin s m e => .fin s m (e + n)
  | v => v

/-- EX2 of a finite value below 128 and not below −150, before its last rounding (R268). -/
def ex2Core (n : Bool) (m : Nat) (e : Int) : FVal :=
  let k := (toInteger .rn n m (e + 4)).1
  let r := (addV .rn (.fin n m e) (ofInt false (-k) (-4))).1
  let p := rnMul (fval fp32 0x3D635847) r
  let p := rnMul (rnAdd p (fval fp32 0x3E75FDF0)) r
  let p := rnMul (rnAdd p (fval fp32 0x3F317218)) r
  let t := ex2T (k % 16).toNat
  scaleV (rnAdd t (rnMul t p)) (k / 16)

/-- EX2 (R268). -/
def ex2F (a : Nat) : FRes :=
  match fval fp32 a with
  | .nan s => ⟨qnan fp32, nvIf s⟩
  | .inf n => if n then ⟨0, 0⟩ else ⟨infBits fp32 false, 0⟩
  | .fin n m e =>
    let x : FVal := .fin n m e
    if 0 ≤ cmpV x (.fin false 128 0) then ⟨infBits fp32 false, fOF ||| fNX⟩
    else if cmpV x (.fin true 150 0) < 0 then ⟨0, fUF ||| fNX⟩
    else
      let r := roundV fp32 .rn false (ex2Core n m e)
      let (i, nx) := toInteger .rz n m e
      ⟨r.bits, (r.fl &&& (fUF ||| fOF)) ||| (if nx || decide (i < -149) then fNX else 0)⟩

/-- The least j at which m lies below the boundary rn32(T[j] × H), counted up from `j`. -/
def lg2Index (m : FVal) : Nat → Nat → Nat
  | 0, j => j
  | k + 1, j => if 0 ≤ cmpV m (rnMul (ex2T j) (fval fp32 0x3F82CD87)) then lg2Index m k (j + 1) else j

/-- LG2 (R269). -/
def lg2F (a : Nat) : FRes :=
  match fval fp32 a with
  | .nan s => ⟨qnan fp32, nvIf s⟩
  | .inf n => if n then ⟨qnan fp32, fNV⟩ else ⟨infBits fp32 false, 0⟩
  | .fin n m e =>
    if m = 0 then ⟨infBits fp32 true, fDZ⟩
    else if n then ⟨qnan fp32, fNV⟩
    else
      let l := Nat.log2 m
      let x : FVal := .fin false m (-(l : Int))
      let j := lg2Index x 16 0
      let z := rn (divV x (ex2T j)).1
      let v := (addV .rn z (.fin true 1 0)).1
      let q := rnMul (fval fp32 0x3EF6384F) v
      let q := rnMul (rnAdd q (fval fp32 0xBF38AA3B)) v
      let q := rnMul (rnAdd q (fval fp32 0x3FB8AA3B)) v
      let r := roundV fp32 .rn false (addV .rn (ofInt false (16 * (e + l) + j) (-4)) q).1
      ⟨r.bits, if m = 2 ^ l then 0 else fNX⟩

/-! ### The wide accumulator (R264 to R266) -/

/-- An addend that is a finite multiple of 2^-149 or special (R265). -/
def wideAdd (w : Wide) (v : FVal) : Wide :=
  match v with
  | .nan _ => { w with nan := true }
  | .inf n => if n then { w with ninf := true } else { w with pinf := true }
  | .fin n m e =>
    if 2 ^ 169 ≤ m * 2 ^ e.toNat ∧ 0 ≤ e ∨ e < 0 ∧ 2 ^ (169 + (-e).toNat) ≤ m then
      (if n then { w with ninf := true } else { w with pinf := true })
    else { w with val := w.val + BitVec.ofInt 320 (sint n (m * 2 ^ (e + 149).toNat)) }

/-- A product rounded to a multiple of 2^-149 (R265), with UF and NX when that is inexact. -/
def wideProduct (v : FVal) : FVal × W8 :=
  match v with
  | .fin n m e =>
    let (q, nx) := quantize .rn n m e (-149)
    (.fin n q (-149), if nx then fUF ||| fNX else 0)
  | v => (v, 0)

/-- WRND (R266). -/
def wideRound (f : Fmt) (rm : Rm) (sat : Bool) (w : Wide) : FRes :=
  if w.nan then ⟨qnan f, 0⟩
  else if w.pinf && w.ninf then ⟨qnan f, fNV⟩
  else if w.pinf then roundV f rm sat (.inf false)
  else if w.ninf then roundV f rm sat (.inf true)
  else roundV f rm sat (ofInt false w.val.toInt (-149))

/-! ### The coin and draw records (R270 to R276) -/

/-- The coin (R270). -/
def coin (key ctr : W64) : W32 :=
  let step (ab : W64 × W64) (ir : Nat × Nat) : W64 × W64 :=
    let a := ab.1 + ab.2
    let b := ab.2.rotateLeft ir.2 ^^^ a
    (a.rotateLeft 32 + BitVec.ofNat 64 ir.1, b)
  let r := [(0, 13), (1, 17), (2, 43), (3, 29), (4, 7), (5, 41)].foldl step (ctr ^^^ key, key ^^^ 0x9E3779B97F4A7C15)
  (r.1 ^^^ r.2).extractLsb' 32 32

/-- A draw record (R272); the exponent is kept as an integer, and the mass as its FP32 pattern. -/
structure Draw where
  index : W32
  e : Int
  mass : Nat
  count : Nat
  csat : Bool := false
  greedy : Bool := false
  invalid : Bool := false
  zero : Bool := false
  deriving DecidableEq, Repr

def noneIndex : W32 := 0xFFFFFFFF

/-- The empty record (R272). -/
def Draw.empty : Draw := ⟨noneIndex, 0, 0, 0, false, false, false, true⟩

/-- A record with no drawn element (R274). -/
def noneRecord (count : Nat) (csat inv greedy : Bool) : Draw := ⟨noneIndex, 0, 0, count, csat, greedy, inv, true⟩

/-- The word of COUNT and the flags (R272). -/
def Draw.flags (d : Draw) : W32 :=
  BitVec.ofNat 24 d.count ++ 0#4 ++ BitVec.ofBool d.csat ++ BitVec.ofBool d.greedy ++ BitVec.ofBool d.invalid ++
    BitVec.ofBool d.zero

def Draw.words (d : Draw) : List W32 := [d.index, BitVec.ofInt 32 d.e, BitVec.ofNat 32 d.mass, d.flags]

/-- A mass lies in [1, 2). -/
def unitMass (m : Nat) : Bool := m / 2 ^ 23 == 127

/-- A record as `dmerge` or a draw-merge queue reads it (R272). -/
def readDraw (w0 w1 w2 w3 : W32) : Draw :=
  let d : Draw := ⟨w0, w1.toInt, w2.toNat, w3.toNat / 256, w3.getLsbD 3, w3.getLsbD 2, w3.getLsbD 1, w3.getLsbD 0⟩
  let rsv := w3.toNat / 16 % 16 != 0
  if d.greedy then
    if rsv || d.e != 0 then noneRecord d.count d.csat true true else d
  else if !rsv && ((unitMass d.mass && !d.zero) || (d.mass == 0 && d.e == 0 && d.zero && d.index == noneIndex)) then d
  else noneRecord d.count d.csat true false

/-- The nearest multiple of 2^-48 to a mass times 2^n, as an integer (R274). -/
def fixed48 (mass : Nat) (n : Int) : Nat :=
  match fval fp32 mass with
  | .fin _ m e => (quantize .rn false m (e + n) (-48)).1
  | _ => 0

/-- A positive finite value in canonical form: a significand in [1, 2) as FP32, and its exponent (R272). -/
def canonMass (m : Nat) (e : Int) : Nat × Int :=
  ((roundFin fp32 .rn false false m (-(Nat.log2 m : Int))).bits, e + Nat.log2 m)

/-- The greedy merge (R275); a MASS that is a NaN, which only software can supply, has no order (log 5: DESIGN CHOICE). -/
def greedyMerge (a b : Draw) (count : Nat) (csat inv : Bool) : Draw :=
  let c := if (fval fp32 a.mass).isNan || (fval fp32 b.mass).isNan then (if Config.greedyNan a.mass b.mass then 1 else -1)
    else cmpV (fval fp32 a.mass) (fval fp32 b.mass)
  let takeA := if a.index = noneIndex ∧ b.index ≠ noneIndex then false else if b.index = noneIndex ∧ a.index ≠ noneIndex then true
    else decide (0 < c) || (decide (c = 0) && decide (a.index.toNat ≤ b.index.toNat))
  let w := if takeA then a else b
  { w with count := count, csat := csat, invalid := inv }

/-- The merge of two records with one counter (R274). -/
def mergeDraw (key ctr : W64) (a b : Draw) : Draw :=
  let count := if 2 ^ 24 ≤ a.count + b.count then 2 ^ 24 - 1 else a.count + b.count
  let csat := a.csat || b.csat || decide (2 ^ 24 ≤ a.count + b.count)
  let inv := a.invalid || b.invalid
  if a = Draw.empty then b
  else if b = Draw.empty then a
  else if a.greedy ≠ b.greedy then noneRecord count csat true false
  else if a.greedy then greedyMerge a b count csat inv
  else if a.mass = 0 ∧ b.mass = 0 then noneRecord count csat inv false
  else
    let e := if a.mass = 0 then b.e else if b.mass = 0 then a.e else if a.e ≤ b.e then b.e else a.e
    let ma := if a.mass = 0 then 0 else fixed48 a.mass (a.e - e)
    let mb := if b.mass = 0 then 0 else fixed48 b.mass (b.e - e)
    let s := ma + mb
    if s = 0 then noneRecord count csat inv false
    else
      let takeA := decide ((coin key ctr).toNat * s < ma * 2 ^ 32)
      match rn (.fin false s (-48)) with
      | .fin _ m x =>
        let (mass, oe) := canonMass m (x + e)
        if 2 ^ 31 - 1 < oe then noneRecord count csat true false
        else ⟨if takeA then a.index else b.index, oe, mass, count, csat, false, inv, false⟩
      | _ => noneRecord count csat true false

/-- One level of the tree: adjacent pairs, with the counter of each node (R276). -/
def mergeLevel (key : W64) (ctr : W64) : List Draw → List Draw
  | a :: b :: r => mergeDraw key ctr a b :: mergeLevel key (ctr + 1) r
  | l => l

/-- The tree over a power of two of leaves; `n` counts the nodes numbered so far, `k` the levels (R276). -/
def drawTree (key base : W64) : Nat → Nat → List Draw → Draw
  | 0, _, l => l.headD Draw.empty
  | k + 1, n, l =>
    drawTree key base k (n + l.length) (mergeLevel key (base + BitVec.ofNat 64 (n + l.length)) l)

/-- A record as the device writes it: canonical or greedy (R272, log 12: DEDUCED). -/
def canonRec (d : Draw) : Draw :=
  if !d.greedy && d.mass == 0 then { d with index := noneIndex, e := 0, zero := true } else d

/-! ### Leaves (R273, R275) -/

/-- An excluded leaf (R273). -/
def excluded (greedy : Bool) : Draw := noneRecord 0 false true greedy

/-- x_i of R273: a value, with magnitudes of 2^30 and more counted as infinite. -/
def leafX (l t : Nat) : FVal :=
  match rn (divV (fval fp32 l) (fval fp32 t)).1 with
  | .fin n m e =>
    if 0 ≤ cmpV (.fin false m e) (.fin false 1 30) then .inf n else .fin n m e
  | v => v

/-- The floor of a finite value. -/
def floorV : FVal → Int
  | .fin n m e => (toInteger .rd n m e).1
  | _ => 0

/-- K of R273: the floor of the largest finite x_i, or 0. -/
def leafK (xs : List FVal) : Int :=
  match xs.filter (fun x => match x with
    | .fin _ _ _ => true
    | _ => false) with
  | [] => 0
  | x :: r => floorV (r.foldl (fun a b => if cmpV a b < 0 then b else a) x)

/-- The leaf of an x_i (R273): `top` says that some x_i is +∞. -/
def leafOf (top : Bool) (k : Int) (i : W32) (x : FVal) : Draw :=
  let massless : Draw := ⟨i, 0, 0, 1, false, false, false, true⟩
  match x with
  | .nan _ => excluded false
  | .inf n => if n then massless else ⟨i, 0, 0x3F800000, 1, false, false, false, false⟩
  | .fin n m e =>
    if top then massless
    else
      match fval fp32 (ex2F (roundV fp32 .rn false (addV .rn (.fin n m e) (ofInt false (-k) 0)).1).bits).bits with
      | .fin _ w we =>
        if w = 0 then massless
        else
          let (mass, oe) := canonMass w (we + k)
          ⟨i, oe, mass, 1, false, false, false, false⟩
      | _ => massless

/-- The leaves of logits with their indices at a temperature (R273, R275); a logit that takes no part is `none` (R392). -/
def leaves (t : Nat) (ls : List (Option (W32 × Nat))) : List Draw :=
  let tv := fval fp32 t
  if tv.isNan || (tv.isNeg && !tv.isZero) then ls.map fun l => if l.isSome then excluded false else Draw.empty
  else if tv.isZero then
    ls.map fun l => match l with
      | none => Draw.empty
      | some (i, n) => if (fval fp32 n).isNan || i == noneIndex then excluded true
        else ⟨i, 0, n, 1, false, true, false, false⟩
  else
    let xs := ls.map fun l => l.map fun p => (p.1, if p.1 = noneIndex then FVal.nan false else leafX p.2 t)
    let vs := xs.filterMap fun x => x.map (·.2)
    let top := vs.any fun v => v == .inf false
    let k := leafK vs
    xs.map fun x => match x with
      | none => Draw.empty
      | some (i, v) => leafOf top k i v

/-! ### Seeded sparsity (R277, R278) -/

/-- The kept positions of a quad (R277). -/
def keptPair : Nat → Nat × Nat
  | 0 => (0, 1)
  | 1 => (0, 2)
  | 2 => (0, 3)
  | 3 => (1, 2)
  | 4 => (1, 3)
  | _ => (2, 3)

/-- The pattern of quad f of chunk cc of row n (R278). -/
def patternOf (seed base : W64) (n cc f : Nat) : Nat :=
  (coin seed (base + BitVec.ofNat 64 (n * 2 ^ 32 + cc))).toNat / 2 ^ (4 * f) % 16 % 6

end Sys2Proof.Machine
end

