-- ==== Sys2Proof/Machine/Scalar.lean ====
section
/-! DEFINITION. Scalar arithmetic (R350 to R357): one meaning for each form of format 0 OP 0x00 and of its immediate
forms. -/
namespace Sys2Proof.Machine

/-- A scalar form with the destination `d` and two sources (R350, R351). -/
def sForm (s : State) (sw : Bool) (d a b : SReg) (f : W64 → W64 → W64) : Out :=
  let g := s.grp
  checked s (okS g d && okS g a && okS g b) g.em (s.retire (setS g d (f (getS g a) (getS g b))) sw)

/-- A scalar form with one source. -/
def sForm1 (s : State) (sw : Bool) (d a : SReg) (f : W64 → W64) : Out :=
  let g := s.grp
  checked s (okS g d && okS g a) g.em (s.retire (setS g d (f (getS g a))) sw)

/-- Two operands read in a type, an exact operation, and its result in that type (R351). -/
def sArith (t : Ty) (op : Int → Int → Int) (a b : W64) : W64 := tyS t (op (tyVal t a.toNat) (tyVal t b.toNat))

/-- The upper half of a product (R352). -/
def mulHigh (w : Nat) (a b : Int) : Int := a * b / ((2 ^ w : Nat) : Int)

/-- Division truncates toward zero, and by zero gives all ones (R353). -/
def divInt (a b : Int) : Int := if b = 0 then -1 else a.tdiv b

/-- The remainder of `divInt` (R353). -/
def remInt (a b : Int) : Int := if b = 0 then a else a.tmod b

def minInt (a b : Int) : Int := if a ≤ b then a else b
def maxInt (a b : Int) : Int := if a ≤ b then b else a

/-- An offset add within the object's offset field (R354). -/
def offsetAdd (t : Ty) (a b : W64) : W64 :=
  a.extractLsb' 44 20 ++ BitVec.ofInt 44 ((a.toNat % 2 ^ 44 : Nat) + tyVal t b.toNat)

/-- The condition codes on two exact values (R356); `un` never holds of integers. -/
def condInt (c : Cond) (a b : Int) : Bool :=
  match c with
  | .eq => a == b
  | .ne => a != b
  | .lt => decide (a < b)
  | .le => decide (a ≤ b)
  | .gt => decide (b < a)
  | .ge => decide (b ≤ a)
  | .un => false

def cmpS (t : Ty) (c : Cond) (a b : W64) : W64 := if condInt c (tyVal t a.toNat) (tyVal t b.toNat) then 1 else 0

def shl64 (a b : W64) : W64 := a <<< (b.toNat % 64)
def shr64 (a b : W64) : W64 := a >>> (b.toNat % 64)
def sra64 (a b : W64) : W64 := a.sshiftRight (b.toNat % 64)
def rotl64 (a b : W64) : W64 := a.rotateLeft (b.toNat % 64)

/-- The leading zero bits of the low `w` bits of a number. -/
def clzN (w n : Nat) : Nat :=
  ((List.range w).takeWhile fun i => !n.testBit (w - 1 - i)).length

/-- The one bits of the low `w` bits of a number. -/
def popN (w n : Nat) : Nat := ((List.range w).filter fun i => n.testBit i).length

/-- SADD: a + b (R352). -/
def execSadd (o : SBin) (s : State) : Out :=
  sForm s o.sw o.d o.a o.b (sArith o.ty (· + ·))

/-- SADD, immediate form (R340). -/
def execSaddImm (o : SImm) (s : State) : Out :=
  sForm1 s o.sw o.d o.a fun a => (sArith o.ty (· + ·)) a (immS o.ty o.imm)

/-- SSUB: a − b (R352). -/
def execSsub (o : SBin) (s : State) : Out :=
  sForm s o.sw o.d o.a o.b (sArith o.ty (· - ·))

/-- SSUB, immediate form (R340). -/
def execSsubImm (o : SImm) (s : State) : Out :=
  sForm1 s o.sw o.d o.a fun a => (sArith o.ty (· - ·)) a (immS o.ty o.imm)

/-- SMUL: a × b (R352). -/
def execSmul (o : SBin) (s : State) : Out :=
  sForm s o.sw o.d o.a o.b (sArith o.ty (· * ·))

/-- SMUL, immediate form (R340). -/
def execSmulImm (o : SImm) (s : State) : Out :=
  sForm1 s o.sw o.d o.a fun a => (sArith o.ty (· * ·)) a (immS o.ty o.imm)

/-- SMULH: the upper half of a × b (R352). -/
def execSmulh (o : SBin) (s : State) : Out :=
  sForm s o.sw o.d o.a o.b (sArith o.ty (mulHigh (tyWidth o.ty)))

/-- SMULH, immediate form (R340). -/
def execSmulhImm (o : SImm) (s : State) : Out :=
  sForm1 s o.sw o.d o.a fun a => (sArith o.ty (mulHigh (tyWidth o.ty))) a (immS o.ty o.imm)

/-- SDIV: the truncated quotient (R353). -/
def execSdiv (o : SBin) (s : State) : Out :=
  sForm s o.sw o.d o.a o.b (sArith o.ty divInt)

/-- SDIV, immediate form (R340). -/
def execSdivImm (o : SImm) (s : State) : Out :=
  sForm1 s o.sw o.d o.a fun a => (sArith o.ty divInt) a (immS o.ty o.imm)

/-- SREM: the remainder (R353). -/
def execSrem (o : SBin) (s : State) : Out :=
  sForm s o.sw o.d o.a o.b (sArith o.ty remInt)

/-- SREM, immediate form (R340). -/
def execSremImm (o : SImm) (s : State) : Out :=
  sForm1 s o.sw o.d o.a fun a => (sArith o.ty remInt) a (immS o.ty o.imm)

/-- SMIN: the smaller (R352). -/
def execSmin (o : SBin) (s : State) : Out :=
  sForm s o.sw o.d o.a o.b (sArith o.ty minInt)

/-- SMIN, immediate form (R340). -/
def execSminImm (o : SImm) (s : State) : Out :=
  sForm1 s o.sw o.d o.a fun a => (sArith o.ty minInt) a (immS o.ty o.imm)

/-- SMAX: the larger (R352). -/
def execSmax (o : SBin) (s : State) : Out :=
  sForm s o.sw o.d o.a o.b (sArith o.ty maxInt)

/-- SMAX, immediate form (R340). -/
def execSmaxImm (o : SImm) (s : State) : Out :=
  sForm1 s o.sw o.d o.a fun a => (sArith o.ty maxInt) a (immS o.ty o.imm)

/-- SAND: bitwise AND (R352). -/
def execSand (o : SBin) (s : State) : Out :=
  sForm s o.sw o.d o.a o.b ((· &&& ·))

/-- SAND, immediate form (R340). -/
def execSandImm (o : SImm) (s : State) : Out :=
  sForm1 s o.sw o.d o.a fun a => ((· &&& ·)) a (immS o.ty o.imm)

/-- SOR: bitwise OR (R352). -/
def execSor (o : SBin) (s : State) : Out :=
  sForm s o.sw o.d o.a o.b ((· ||| ·))

/-- SOR, immediate form (R340). -/
def execSorImm (o : SImm) (s : State) : Out :=
  sForm1 s o.sw o.d o.a fun a => ((· ||| ·)) a (immS o.ty o.imm)

/-- SXOR: bitwise XOR (R352). -/
def execSxor (o : SBin) (s : State) : Out :=
  sForm s o.sw o.d o.a o.b ((· ^^^ ·))

/-- SXOR, immediate form (R340). -/
def execSxorImm (o : SImm) (s : State) : Out :=
  sForm1 s o.sw o.d o.a fun a => ((· ^^^ ·)) a (immS o.ty o.imm)

/-- SSHL: shift left by b mod 64 (R352). -/
def execSshl (o : SBin) (s : State) : Out :=
  sForm s o.sw o.d o.a o.b (shl64)

/-- SSHL, immediate form (R340). -/
def execSshlImm (o : SImm) (s : State) : Out :=
  sForm1 s o.sw o.d o.a fun a => (shl64) a (immS o.ty o.imm)

/-- SSHR: logical shift right (R352). -/
def execSshr (o : SBin) (s : State) : Out :=
  sForm s o.sw o.d o.a o.b (shr64)

/-- SSHR, immediate form (R340). -/
def execSshrImm (o : SImm) (s : State) : Out :=
  sForm1 s o.sw o.d o.a fun a => (shr64) a (immS o.ty o.imm)

/-- SSRA: arithmetic shift right (R352). -/
def execSsra (o : SBin) (s : State) : Out :=
  sForm s o.sw o.d o.a o.b (sra64)

/-- SSRA, immediate form (R340). -/
def execSsraImm (o : SImm) (s : State) : Out :=
  sForm1 s o.sw o.d o.a fun a => (sra64) a (immS o.ty o.imm)

/-- SROTL: rotate left (R352). -/
def execSrotl (o : SBin) (s : State) : Out :=
  sForm s o.sw o.d o.a o.b (rotl64)

/-- SROTL, immediate form (R340). -/
def execSrotlImm (o : SImm) (s : State) : Out :=
  sForm1 s o.sw o.d o.a fun a => (rotl64) a (immS o.ty o.imm)

/-- SCLZ: the leading zeros (R352). -/
def execSclz (o : SUn) (s : State) : Out :=
  sForm1 s o.sw o.d o.a fun a => BitVec.ofNat 64 (clzN 64 a.toNat)

/-- SPOPC: the one bits (R352). -/
def execSpopc (o : SUn) (s : State) : Out :=
  sForm1 s o.sw o.d o.a fun a => BitVec.ofNat 64 (popN 64 a.toNat)

/-- SSEL: sB when sA is nonzero, else sC (R352). -/
def execSsel (o : SSel) (s : State) : Out :=
  let g := s.grp
  checked s (okS g o.d && okS g o.a && okS g o.b && okS g o.c) g.em
    (s.retire (setS g o.d (if getS g o.a != 0 then getS g o.b else getS g o.c)) o.sw)

/-- SSEL, immediate form: the immediate stands for sC (R340, R352). -/
def execSselImm (o : SSelImm) (s : State) : Out :=
  let g := s.grp
  checked s (okS g o.d && okS g o.a && okS g o.b) g.em
    (s.retire (setS g o.d (if getS g o.a != 0 then getS g o.b else immS .b64 o.imm)) o.sw)

/-- SCMP: 1 when the condition holds, else 0 (R356). -/
def execScmp (o : SCmp) (s : State) : Out :=
  sForm s o.sw o.d o.a o.b (cmpS o.ty o.cond)

/-- SCMP, immediate form (R340, R356). -/
def execScmpImm (o : SCmpImm) (s : State) : Out :=
  sForm1 s o.sw o.d o.a fun a => cmpS o.ty o.cond a (immS o.ty o.imm)

/-- SMOV: a copy (R352). -/
def execSmov (o : SUn) (s : State) : Out :=
  sForm1 s o.sw o.d o.a id

/-- SMOV, format 2: the 64-bit immediate (R339, R355). -/
def execSmovImm64 (o : SLong) (s : State) : Out :=
  let g := s.grp
  checked s (okS g o.d) g.em (s.retire (setS g o.d o.imm) o.sw)

/-- SOFS: moves an address within its object (R354). -/
def execSofs (o : SBin) (s : State) : Out :=
  sForm s o.sw o.d o.a o.b (offsetAdd o.ty)

/-- SOFS, immediate form (R340). -/
def execSofsImm (o : SImm) (s : State) : Out :=
  sForm1 s o.sw o.d o.a fun a => (offsetAdd o.ty) a (immS o.ty o.imm)

end Sys2Proof.Machine
end

