-- ==== Sys2Proof/Machine/VectorInt.lean ====
section
/-! DEFINITION. Vector integer instructions (R372 to R378): one meaning for each form of format 0 OP 0x02 and of its
immediate forms. -/
namespace Sys2Proof.Machine

/-! ### What every fixed-latency vector form shares (R372, R373) -/

/-- The results of the lanes of one half. -/
abbrev LaneFn := Nat → LaneRes

/-- A vector form: the active lanes of the halves take their results, and raise the flags of either half. -/
def vForm (s : State) (h : Hdr) (x2 : Bool) (ok : Bool) (d : VReg) (f : Nat → LaneFn) : Out :=
  let g := s.grp
  let act := activeSet g h
  let g' := setVx g x2 d act fun half => genVec fun l => (f half l).bits
  let ff := genVec fun l => (f 0 l).ff ||| if x2 then (f 1 l).ff else 0
  let iff := genVec fun l => (f 0 l).iff ||| if x2 then (f 1 l).iff else 0
  checked s (ok && okVx g x2 d) act (s.retire (raise g' act ff iff) h.sw)

/-- A form with two vector sources. -/
def vBin (s : State) (h : Hdr) (x2 : Bool) (d a b : VReg) (f : W32 → W32 → LaneRes) : Out :=
  let g := s.grp
  vForm s h x2 (okVx g x2 a && okVx g x2 b) d fun half l => f (lane (srcV g half a) l) (lane (srcV g half b) l)

/-- A form with a vector source and an immediate, the same in every lane (R374). -/
def vImm (s : State) (h : Hdr) (x2 : Bool) (d a : VReg) (imm : W32) (f : W32 → W32 → LaneRes) : Out :=
  let g := s.grp
  vForm s h x2 (okVx g x2 a) d fun half l => f (lane (srcV g half a) l) imm

/-- A form with one vector source. -/
def vUn (s : State) (h : Hdr) (x2 : Bool) (d a : VReg) (f : W32 → LaneRes) : Out :=
  let g := s.grp
  vForm s h x2 (okVx g x2 a) d fun half l => f (lane (srcV g half a) l)

/-- A form with three vector sources. -/
def vTern (s : State) (h : Hdr) (x2 : Bool) (d a b c : VReg) (f : W32 → W32 → W32 → LaneRes) : Out :=
  let g := s.grp
  vForm s h x2 (okVx g x2 a && okVx g x2 b && okVx g x2 c) d fun half l =>
    f (lane (srcV g half a) l) (lane (srcV g half b) l) (lane (srcV g half c) l)

/-- A form with two vector sources and an immediate for the third. -/
def vTernImm (s : State) (h : Hdr) (x2 : Bool) (d a b : VReg) (imm : W32) (f : W32 → W32 → W32 → LaneRes) : Out :=
  let g := s.grp
  vForm s h x2 (okVx g x2 a && okVx g x2 b) d fun half l =>
    f (lane (srcV g half a) l) (lane (srcV g half b) l) imm

/-- A compare into a mask: the bits of the active lanes, with their `$fflags` (R378). -/
def vCmpForm (s : State) (h : Hdr) (ok : Bool) (d : MReg) (f : Nat → Bool × W8) : Out :=
  let g := s.grp
  let act := activeSet g h
  let m := (maskReg g d &&& ~~~act) ||| (maskOf (fun l => (f l).1) &&& act)
  checked s ok act (s.retire (raise (setM g d m) act (genVec fun l => (f l).2) (genVec fun _ => 0)) h.sw)

/-! ### Integer operations (R375 to R377) -/

/-- The single check of R375 on an exact result. -/
def intLane (t : Ty) (sat : Bool) (r : Int) : LaneRes :=
  if sat then ⟨tyV t (clampTy t r).1, 0, if (clampTy t r).2 then iSAT else 0⟩
  else ⟨tyV t r, 0, if tySigned t && (clampTy t r).2 then iOV else 0⟩

/-- A two-operand integer operation with the single check (R375). -/
def intOp (t : Ty) (sat : Bool) (op : Int → Int → Int) (a b : W32) : LaneRes :=
  intLane t sat (op (tyVal t a.toNat) (tyVal t b.toNat))

/-- A result that raises nothing. -/
def plain (w : W32) : LaneRes := ⟨w, 0, 0⟩

def vmulhLane (t : Ty) (a b : W32) : LaneRes := plain (tyV t (mulHigh (tyWidth t) (tyVal t a.toNat) (tyVal t b.toNat)))

def vmadLane (t : Ty) (sat : Bool) (a b c : W32) : LaneRes :=
  intLane t sat (tyVal t a.toNat * tyVal t b.toNat + tyVal t c.toNat)

/-- `vdiv` (R377). -/
def vdivLane (t : Ty) (a b : W32) : LaneRes :=
  let y := tyVal t b.toNat
  let r := intLane t false (divInt (tyVal t a.toNat) y)
  if y = 0 then ⟨r.bits, 0, iDZ⟩ else r

/-- `vrem` (R377). -/
def vremLane (t : Ty) (a b : W32) : LaneRes :=
  let y := tyVal t b.toNat
  ⟨tyV t (remInt (tyVal t a.toNat) y), 0, if y = 0 then iDZ else 0⟩

def vabsLane (t : Ty) (sat : Bool) (a : W32) : LaneRes := intLane t sat ((tyVal t a.toNat).natAbs : Int)
def vnegLane (t : Ty) (sat : Bool) (a : W32) : LaneRes := intLane t sat (-(tyVal t a.toNat))

def vshlLane (t : Ty) (a b : W32) : LaneRes := plain (tyV t (tyVal t a.toNat * ((2 ^ (b.toNat % 32) : Nat) : Int)))
def vshrLane (t : Ty) (a b : W32) : LaneRes :=
  plain (tyV t ((a.toNat % 2 ^ tyWidth t / 2 ^ (b.toNat % 32) : Nat) : Int))
def vsraLane (t : Ty) (a b : W32) : LaneRes := plain (tyV t (tyVal t a.toNat / ((2 ^ (b.toNat % 32) : Nat) : Int)))

def vcmpLane (t : Ty) (c : Cond) (a b : W32) : Bool × W8 := (condInt c (tyVal t a.toNat) (tyVal t b.toNat), 0)

/-- VADD: with the single check of R375 (R376). -/
def execVadd (o : VBin) (s : State) : Out :=
  vBin s o.h o.x2 o.d o.a o.b (intOp o.ty o.sat (· + ·))

/-- VADD, immediate form (R374). -/
def execVaddImm (o : VImm) (s : State) : Out :=
  vImm s o.h o.x2 o.d o.a o.imm (intOp o.ty o.sat (· + ·))

/-- VSUB: with the single check of R375 (R376). -/
def execVsub (o : VBin) (s : State) : Out :=
  vBin s o.h o.x2 o.d o.a o.b (intOp o.ty o.sat (· - ·))

/-- VSUB, immediate form (R374). -/
def execVsubImm (o : VImm) (s : State) : Out :=
  vImm s o.h o.x2 o.d o.a o.imm (intOp o.ty o.sat (· - ·))

/-- VMUL: with the single check of R375 (R376). -/
def execVmul (o : VBin) (s : State) : Out :=
  vBin s o.h o.x2 o.d o.a o.b (intOp o.ty o.sat (· * ·))

/-- VMUL, immediate form (R374). -/
def execVmulImm (o : VImm) (s : State) : Out :=
  vImm s o.h o.x2 o.d o.a o.imm (intOp o.ty o.sat (· * ·))

/-- VMULH: the upper half of the product (R376). -/
def execVmulh (o : VBin) (s : State) : Out :=
  vBin s o.h o.x2 o.d o.a o.b (vmulhLane o.ty)

/-- VMULH, immediate form (R374). -/
def execVmulhImm (o : VImm) (s : State) : Out :=
  vImm s o.h o.x2 o.d o.a o.imm (vmulhLane o.ty)

/-- VMAD: a × b + c, exact before the single check (R376). -/
def execVmad (o : VTern) (s : State) : Out :=
  vTern s o.h o.x2 o.d o.a o.b o.c (vmadLane o.ty o.sat)

/-- VMAD, immediate form (R374). -/
def execVmadImm (o : VTernImm) (s : State) : Out :=
  vTernImm s o.h o.x2 o.d o.a o.b o.imm (vmadLane o.ty o.sat)

/-- VDIV: the truncated quotient (R377). -/
def execVdiv (o : VBin) (s : State) : Out :=
  vBin s o.h o.x2 o.d o.a o.b (vdivLane o.ty)

/-- VDIV, immediate form (R374). -/
def execVdivImm (o : VImm) (s : State) : Out :=
  vImm s o.h o.x2 o.d o.a o.imm (vdivLane o.ty)

/-- VREM: the remainder (R377). -/
def execVrem (o : VBin) (s : State) : Out :=
  vBin s o.h o.x2 o.d o.a o.b (vremLane o.ty)

/-- VREM, immediate form (R374). -/
def execVremImm (o : VImm) (s : State) : Out :=
  vImm s o.h o.x2 o.d o.a o.imm (vremLane o.ty)

/-- VMIN: the smaller (R376). -/
def execVmin (o : VBin) (s : State) : Out :=
  vBin s o.h o.x2 o.d o.a o.b (intOp o.ty false minInt)

/-- VMIN, immediate form (R374). -/
def execVminImm (o : VImm) (s : State) : Out :=
  vImm s o.h o.x2 o.d o.a o.imm (intOp o.ty false minInt)

/-- VMAX: the larger (R376). -/
def execVmax (o : VBin) (s : State) : Out :=
  vBin s o.h o.x2 o.d o.a o.b (intOp o.ty false maxInt)

/-- VMAX, immediate form (R374). -/
def execVmaxImm (o : VImm) (s : State) : Out :=
  vImm s o.h o.x2 o.d o.a o.imm (intOp o.ty false maxInt)

/-- VABS: the absolute value (R376). -/
def execVabs (o : VUn) (s : State) : Out :=
  vUn s o.h o.x2 o.d o.a (vabsLane o.ty o.sat)

/-- VNEG: 0 − a (R376). -/
def execVneg (o : VUn) (s : State) : Out :=
  vUn s o.h o.x2 o.d o.a (vnegLane o.ty o.sat)

/-- VAND: bitwise AND (R376). -/
def execVand (o : VBin) (s : State) : Out :=
  vBin s o.h o.x2 o.d o.a o.b (fun a b => plain (a &&& b))

/-- VAND, immediate form (R374). -/
def execVandImm (o : VImm) (s : State) : Out :=
  vImm s o.h o.x2 o.d o.a o.imm (fun a b => plain (a &&& b))

/-- VOR: bitwise OR (R376). -/
def execVor (o : VBin) (s : State) : Out :=
  vBin s o.h o.x2 o.d o.a o.b (fun a b => plain (a ||| b))

/-- VOR, immediate form (R374). -/
def execVorImm (o : VImm) (s : State) : Out :=
  vImm s o.h o.x2 o.d o.a o.imm (fun a b => plain (a ||| b))

/-- VXOR: bitwise XOR (R376). -/
def execVxor (o : VBin) (s : State) : Out :=
  vBin s o.h o.x2 o.d o.a o.b (fun a b => plain (a ^^^ b))

/-- VXOR, immediate form (R374). -/
def execVxorImm (o : VImm) (s : State) : Out :=
  vImm s o.h o.x2 o.d o.a o.imm (fun a b => plain (a ^^^ b))

/-- VNOT: bitwise NOT (R376). -/
def execVnot (o : VUn) (s : State) : Out :=
  vUn s o.h o.x2 o.d o.a (fun a => plain (~~~a))

/-- VSHL: shift left by b mod 32 (R376). -/
def execVshl (o : VBin) (s : State) : Out :=
  vBin s o.h o.x2 o.d o.a o.b (vshlLane o.ty)

/-- VSHL, immediate form (R374). -/
def execVshlImm (o : VImm) (s : State) : Out :=
  vImm s o.h o.x2 o.d o.a o.imm (vshlLane o.ty)

/-- VSHR: logical shift right of the low w bits (R376). -/
def execVshr (o : VBin) (s : State) : Out :=
  vBin s o.h o.x2 o.d o.a o.b (vshrLane o.ty)

/-- VSHR, immediate form (R374). -/
def execVshrImm (o : VImm) (s : State) : Out :=
  vImm s o.h o.x2 o.d o.a o.imm (vshrLane o.ty)

/-- VSRA: arithmetic shift right (R376). -/
def execVsra (o : VBin) (s : State) : Out :=
  vBin s o.h o.x2 o.d o.a o.b (vsraLane o.ty)

/-- VSRA, immediate form (R374). -/
def execVsraImm (o : VImm) (s : State) : Out :=
  vImm s o.h o.x2 o.d o.a o.imm (vsraLane o.ty)

/-- VCLZ: leading zeros (R376). -/
def execVclz (o : VUn) (s : State) : Out :=
  vUn s o.h o.x2 o.d o.a (fun a => plain (BitVec.ofNat 32 (clzN 32 a.toNat)))

/-- VPOPC: one bits (R376). -/
def execVpopc (o : VUn) (s : State) : Out :=
  vUn s o.h o.x2 o.d o.a (fun a => plain (BitVec.ofNat 32 (popN 32 a.toNat)))

/-- VSEL: vA where the mask bit is set, else vB (R376). -/
def execVsel (o : VSel) (s : State) : Out :=
  let g := s.grp
  vForm s o.h o.x2 (okVx g o.x2 o.a && okVx g o.x2 o.b) o.d fun half l =>
    plain (if laneOn (maskReg g o.m) l then lane (srcV g half o.a) l else lane (srcV g half o.b) l)

/-- VCMP (R378). -/
def execVcmp (o : VCmp) (s : State) : Out :=
  let g := s.grp
  vCmpForm s o.h (okV g o.a && okV g o.b) o.d fun l => vcmpLane o.ty o.cond (lane (getV g o.a) l) (lane (getV g o.b) l)

/-- VCMP, immediate form (R374). -/
def execVcmpImm (o : VCmpImm) (s : State) : Out :=
  let g := s.grp
  vCmpForm s o.h (okV g o.a) o.d fun l => vcmpLane o.ty o.cond (lane (getV g o.a) l) o.imm

/-- VMOV (R376). -/
def execVmov (o : VUn) (s : State) : Out :=
  vUn s o.h o.x2 o.d o.a plain

/-- VMOVS: the low word of sA in every active lane (R376). -/
def execVmovs (o : VMovS) (s : State) : Out :=
  let g := s.grp
  vForm s o.h false (okS g o.a) o.d fun _ _ => plain ((getS g o.a).setWidth 32)

end Sys2Proof.Machine
end

