-- ==== Sys2Proof/Machine/VectorFp.lean ====
section
/-! DEFINITION. Vector floating point, conversion, special functions and the wide accumulator (R379 to R383, R390,
R391). -/
namespace Sys2Proof.Machine

/-- An FP32 lane result. -/
def fLane (r : FRes) : LaneRes := ⟨BitVec.ofNat 32 r.bits, r.fl, 0⟩

/-- VFADD: a + b, rounded once (R380). -/
def execVfadd (o : VFBin) (s : State) : Out :=
  vBin s o.h o.x2 o.d o.a o.b fun a b => fLane (addF o.rm o.sat a.toNat b.toNat)

/-- VFADD, immediate form (R374). -/
def execVfaddImm (o : VFImm) (s : State) : Out :=
  vImm s o.h o.x2 o.d o.a o.imm fun a b => fLane (addF o.rm o.sat a.toNat b.toNat)

/-- VFSUB: a − b, rounded once (R380). -/
def execVfsub (o : VFBin) (s : State) : Out :=
  vBin s o.h o.x2 o.d o.a o.b fun a b => fLane (subF o.rm o.sat a.toNat b.toNat)

/-- VFSUB, immediate form (R374). -/
def execVfsubImm (o : VFImm) (s : State) : Out :=
  vImm s o.h o.x2 o.d o.a o.imm fun a b => fLane (subF o.rm o.sat a.toNat b.toNat)

/-- VFMUL: a × b, rounded once (R380). -/
def execVfmul (o : VFBin) (s : State) : Out :=
  vBin s o.h o.x2 o.d o.a o.b fun a b => fLane (mulF o.rm o.sat a.toNat b.toNat)

/-- VFMUL, immediate form (R374). -/
def execVfmulImm (o : VFImm) (s : State) : Out :=
  vImm s o.h o.x2 o.d o.a o.imm fun a b => fLane (mulF o.rm o.sat a.toNat b.toNat)

/-- VFFMA: a × b + c, rounded once (R380). -/
def execVffma (o : VFTern) (s : State) : Out :=
  vTern s o.h o.x2 o.d o.a o.b o.c fun a b c => fLane (fmaF o.rm o.sat a.toNat b.toNat c.toNat)

/-- VFFMA, immediate form (R374). -/
def execVffmaImm (o : VFTernImm) (s : State) : Out :=
  vTernImm s o.h o.x2 o.d o.a o.b o.imm fun a b c => fLane (fmaF o.rm o.sat a.toNat b.toNat c.toNat)

/-- VFMIN: the smaller value (R381). -/
def execVfmin (o : VFBin) (s : State) : Out :=
  vBin s o.h o.x2 o.d o.a o.b fun a b => fLane (minMaxF false a.toNat b.toNat)

/-- VFMIN, immediate form (R374). -/
def execVfminImm (o : VFImm) (s : State) : Out :=
  vImm s o.h o.x2 o.d o.a o.imm fun a b => fLane (minMaxF false a.toNat b.toNat)

/-- VFMAX: the larger value (R381). -/
def execVfmax (o : VFBin) (s : State) : Out :=
  vBin s o.h o.x2 o.d o.a o.b fun a b => fLane (minMaxF true a.toNat b.toNat)

/-- VFMAX, immediate form (R374). -/
def execVfmaxImm (o : VFImm) (s : State) : Out :=
  vImm s o.h o.x2 o.d o.a o.imm fun a b => fLane (minMaxF true a.toNat b.toNat)

/-- A sign form: a NaN gives the canonical NaN, and no flag is raised (R381). -/
def signLane (f : W32 → W32) (a : W32) : LaneRes :=
  plain (if (fval fp32 a.toNat).isNan then 0x7FC00000 else f a)

/-- VFABS: the sign bit cleared (R381). -/
def execVfabs (o : VUn) (s : State) : Out :=
  vUn s o.h o.x2 o.d o.a (signLane (· &&& 0x7FFFFFFF))

/-- VFNEG: the sign bit inverted (R381). -/
def execVfneg (o : VUn) (s : State) : Out :=
  vUn s o.h o.x2 o.d o.a (signLane (· ^^^ 0x80000000))

def vfcmpLane (c : Cond) (a b : W32) : Bool × W8 := ((cmpF c a.toNat b.toNat).1, nvIf (cmpF c a.toNat b.toNat).2)

/-- VFCMP (R378, R379). -/
def execVfcmp (o : VCmp) (s : State) : Out :=
  let g := s.grp
  vCmpForm s o.h (okV g o.a && okV g o.b) o.d fun l => vfcmpLane o.cond (lane (getV g o.a) l) (lane (getV g o.b) l)

/-- VFCMP, immediate form (R374). -/
def execVfcmpImm (o : VCmpImm) (s : State) : Out :=
  let g := s.grp
  vCmpForm s o.h (okV g o.a) o.d fun l => vfcmpLane o.cond (lane (getV g o.a) l) o.imm

/-- VCVT (R382). -/
def execVcvt (o : Vcvt) (s : State) : Out :=
  vUn s o.h o.x2 o.d o.a fun a => convert o.dt o.st o.rm o.sat a.toNat

/-! ### Special functions: variable-latency results (R183, R372, R383) -/

/-- The group has 64 variable-latency instructions outstanding, so another waits at issue (R185). -/
def outstFull (g : Slot) : Bool := decide (64 ≤ g.outst.length)

/-- Issue a variable-latency operation: it joins the group's outstanding operations, with its result when it has one. -/
def State.launch (s : State) (g : Slot) (op : OpKind) (res : Option Result) (sw : Bool) : State :=
  let (id, s) := s.fresh
  s.retire { g with outst := g.outst ++ [⟨id, g.pc, op, res⟩] } sw

/-- A special-function or cross-lane form: its results and its flags arrive later (R372). -/
def vLater (s : State) (h : Hdr) (ok : Bool) (vw : List VWrite) (ff iff : Lanes 8) : Out :=
  let g := s.grp
  if !ok then .next (s.regRange (activeSet g h))
  else if outstFull g then .next (s.stallAt .resource)
  else .next (s.launch g .wait (some ⟨vw, [], ff, iff, none⟩) h.sw)

def noFlags : Lanes 8 := Vector.replicate 32 0

/-- A special function of one source. -/
def sfuForm (s : State) (h : Hdr) (d a : VReg) (f : Nat → FRes) : Out :=
  let g := s.grp
  let act := activeSet g h
  let v := getV g a
  vLater s h (okV g d && okV g a) [⟨d, act, genVec fun l => BitVec.ofNat 32 (f (lane v l).toNat).bits⟩]
    (genVec fun l => if laneOn act l then (f (lane v l).toNat).fl else 0) noFlags

/-- VEX2: EX2; RM is ignored (R268, R383). -/
def execVex2 (o : VSfu) (s : State) : Out :=
  sfuForm s o.h o.d o.a ex2F

/-- VLG2: LG2; RM is ignored (R269, R383). -/
def execVlg2 (o : VSfu) (s : State) : Out :=
  sfuForm s o.h o.d o.a lg2F

/-- VRCP: 1 / a (R383). -/
def execVrcp (o : VSfu) (s : State) : Out :=
  sfuForm s o.h o.d o.a (rcpF o.rm)

/-- VRSQ: 1 / √a (R383). -/
def execVrsq (o : VSfu) (s : State) : Out :=
  sfuForm s o.h o.d o.a (rsqF o.rm)

/-- VSQRT: √a (R383). -/
def execVsqrt (o : VSfu) (s : State) : Out :=
  sfuForm s o.h o.d o.a (sqrtF o.rm)

/-- VFDIV: a / b (R383). -/
def execVfdiv (o : VSfu2) (s : State) : Out :=
  let g := s.grp
  let act := activeSet g o.h
  let r := fun l => divF o.rm (lane (getV g o.a) l).toNat (lane (getV g o.b) l).toNat
  vLater s o.h (okV g o.d && okV g o.a && okV g o.b) [⟨o.d, act, genVec fun l => BitVec.ofNat 32 (r l).bits⟩]
    (genVec fun l => if laneOn act l then (r l).fl else 0) noFlags

/-! ### The wide accumulator (R390, R391) -/

/-- WCLR: whatever the active set (R390). -/
def execWclr (h : Hdr) (s : State) : Out := .next (s.retire { s.grp with wa := {} } h.sw)

/-- The active lanes' addends join `wa`, with the flags of each lane (R390). -/
def wideForm (s : State) (h : Hdr) (ok : Bool) (f : Nat → FVal × W8) : Out :=
  let g := s.grp
  let act := activeSet g h
  let wa := (lanesOf act).foldl (fun w l => wideAdd w (f l).1) g.wa
  checked s ok act (s.retire (raise { g with wa := wa } act (genVec fun l => (f l).2) noFlags) h.sw)

/-- WADD (R390). -/
def execWadd (o : VSrc) (s : State) : Out :=
  let g := s.grp
  wideForm s o.h (okV g o.a) fun l =>
    let v := fval fp32 (lane (getV g o.a) l).toNat
    (v, nvIf v.isSig)

/-- WDOT (R390): the exact product of two BF16 values, rounded to a multiple of 2^-149. -/
def execWdot (o : VSrc2) (s : State) : Out :=
  let g := s.grp
  wideForm s o.h (okV g o.a && okV g o.b) fun l =>
    let a := fval bf16 (lane (getV g o.a) l).toNat
    let b := fval bf16 (lane (getV g o.b) l).toNat
    let p := mulV a b
    let r := wideProduct p.1
    (r.1, r.2 ||| nvIf (p.2 || a.isSig || b.isSig))

/-- WRND (R266, R390). -/
def execWrnd (o : WRnd) (s : State) : Out :=
  let g := s.grp
  let r := wideRound (if o.bf then bf16 else fp32) o.rm o.sat g.wa
  vForm s o.h false true o.d fun _ _ => fLane r

/-- The lanes of the image of `wa` (R391). -/
def wideImage (w : Wide) : Vec :=
  genVec fun l =>
    if l < 10 then w.val.extractLsb' (32 * l) 32
    else if l = 10 then (BitVec.ofBool w.nan ++ BitVec.ofBool w.pinf ++ BitVec.ofBool w.ninf).setWidth 32
    else 0

/-- WGET: all 32 lanes, whatever the active set (R391). -/
def execWget (o : VDst) (s : State) : Out :=
  let g := s.grp
  checked s (okV g o.d) (activeSet g o.h) (s.retire (setV g o.d 0xFFFFFFFF (wideImage g.wa)) o.h.sw)

/-- The accumulator of an image (R391). -/
def wideOf (v : Vec) : Wide :=
  let n := (List.range 10).foldr (fun l n => (lane v l).toNat + 2 ^ 32 * n) 0
  let f := lane v 10
  ⟨BitVec.ofNat 320 n, f.getLsbD 2, f.getLsbD 1, f.getLsbD 0⟩

/-- WSET: whatever the active set (R391). -/
def execWset (o : VSrc) (s : State) : Out :=
  let g := s.grp
  checked s (okV g o.a) (activeSet g o.h) (s.retire { g with wa := wideOf (getV g o.a) } o.h.sw)

end Sys2Proof.Machine
end

