-- ==== Sys2Proof/Machine/Memory.lean ====
section
/-! DEFINITION. Memory points, publishes and snapshots (R230 to R238), translation (R209 to R218), and the performing of
lane accesses (R396 to R402). -/
namespace Sys2Proof.Machine

/-! ### Memory points (R230, R232, R235, R236) -/

/-- The bytes of a 128-byte line of one memory take their values from another. -/
def copyLine (dst src : Mem) (line : Nat) : Mem := memCopy dst (128 * line) src (128 * line) 128

/-- Each core may have read a line just before it changes (R236): a free choice for each core moves its snapshot. -/
def observeAll (mem : Mem) (line : Nat) (free : Nat) : Tbl Core → Tbl Core
  | [] => []
  | (k, c) :: r =>
    (k, if Config.freeBit free then { c with snap := copyLine c.snap mem line } else c) :: observeAll mem line (free + 1) r

def State.letObserve (s : State) (line : Nat) : State :=
  { s with cores := observeAll s.mem line s.free s.cores, free := s.free + s.cores.length }

/-- Writing every byte of a poisoned ECC word clears it (R225). -/
def clearPoison (p : List Nat) (ws : List (Nat × W8)) : List Nat :=
  p.filter fun w => !((List.range 64).all fun i => ws.any fun x => x.1 == 64 * w + i)

/-- Bytes reach their memory points in one indivisible step (R232, R235). -/
def State.pointWrite (s : State) (ws : List (Nat × W8)) : State :=
  let s := ((ws.map fun w => w.1 / 128).eraseDups).foldl State.letObserve s
  { s with mem := ws.foldl (fun m w => memWrite m w.1 w.2) s.mem, poison := clearPoison s.poison ws }

/-- A list of bytes from an address on, as writes. -/
def bytesAt (a : Nat) (bs : List W8) : List (Nat × W8) := bs.zipIdx.map fun p => (a + p.2, p.1)

/-- Stored bytes that a newer one in the list overwrites or repeats are dropped from a list of stored bytes. -/
def withoutTaken (taken : List (Nat × W8 × Nat)) : List (Nat × W8 × Nat) → List (Nat × W8 × Nat)
  | [] => []
  | d :: r => if taken.contains d || r.any (fun e => e.1 == d.1 && taken.contains e) then withoutTaken taken r else d :: withoutTaken taken r

/-- A slice accepts stored bytes of a core, in the order in which they were stored: of several to one byte, the last (R232). -/
def acceptBytes (s : State) (ck : Nat) (taken : List (Nat × W8 × Nat)) : State :=
  let ws := taken.map fun d => (d.1, d.2.1)
  let s := s.pointWrite ws
  let c := s.core ck
  s.setCore ck { c with dirty := withoutTaken taken c.dirty, snap := ws.foldl (fun m w => memWrite m w.1 w.2) c.snap }

/-- The stored bytes of a line of a core that the publish of some slots carries (R235): every byte of those slots and, freely, bytes
of others. A store of a lane reaches its memory point whole (R231): the bytes of a slot in an aligned 8-byte word go together, and
so do all those of a word in which the stores of two slots overlap (log 95: DESIGN CHOICE). -/
def carried (here : List (Nat × W8 × Nat)) (pub : List Nat) (free : Nat) : List (Nat × W8 × Nat) :=
  let parts := (here.map fun d => (d.1 / 8, d.2.2)).eraseDups
  let go (p : Nat × Nat) : Bool := pub.contains p.2 || Config.freeBit (free + parts.findIdx (· == p))
  let mixed (w : Nat) : Bool := here.any fun d => here.any fun e => d.1 / 8 == w && d.1 == e.1 && d.2.2 != e.2.2
  here.filter fun d => go (d.1 / 8, d.2.2) || (mixed (d.1 / 8) && parts.any fun p => p.1 == d.1 / 8 && go p)

/-- A slice accepts a line of a core in one step (R235). -/
def acceptLine (s : State) (ck line : Nat) (pub : List Nat) : State :=
  let here := (s.core ck).dirty.filter fun d => d.1 / 128 == line
  acceptBytes { s with free := s.free + here.length } ck (carried here pub s.free)

/-- The bytes that a slot has stored to a line and not published. -/
def ownBytes (c : Core) (slot line : Nat) : List (Nat × W8 × Nat) := c.dirty.filter fun d => d.1 / 128 == line && d.2.2 == slot

/-- The lines that hold unpublished stores of the slots in a list, on a core. -/
def dirtyLines (c : Core) (slots : List Nat) : List Nat :=
  ((c.dirty.filter fun d => slots.contains d.2.2).map fun d => d.1 / 128).eraseDups

/-- Publish every stored byte of the given slots of a core (R165, R221, R239). -/
def publishSlots (s : State) (ck : Nat) (slots : List Nat) : State :=
  (dirtyLines (s.core ck) slots).foldl (fun s l => acceptLine s ck l slots) s

/-- A refresh at die scope (R236): the snapshot of the core is the memory point's present value; in a fused cluster, that of
each of its cores. -/
def refreshCore (s : State) (ck : Nat) : State :=
  let cks := if (s.core ck).fused then (List.range 4).map fun i => ck / 4 * 4 + i else [ck]
  cks.foldl (fun s c => s.setCore c { s.core c with snap := s.mem }) s

/-- The group's publish begins (R235): its lines wait for their slices under a fresh ticket. -/
def startPublish (s : State) (k : Nat) : Nat × State :=
  let (t, s) := s.fresh
  let g := s.slot k
  (t, s.setSlot k { g with pubs := g.pubs ++ (dirtyLines (s.core (k / 16)) [k % 16]).map fun l => (l, t) })

def publishDone (g : Slot) (ticket : Nat) : Bool := g.pubs.all fun p => p.2 != ticket

/-! ### The L1 as a group sees it (R232, R236) -/

/-- The newest unpublished byte at an address: the group's own, unless it has refreshed past it, else one stored on its core. -/
def dirtyByte (c : Core) (slot a : Nat) : Option W8 :=
  let here := c.dirty.filter fun d => d.1 == a
  match (here.filter fun d => d.2.2 == slot && !c.yields.contains (a, slot)).getLast? with
  | some d => some d.2.1
  | none => here.getLast?.map (·.2.1)

def viewByte (c : Core) (slot a : Nat) : W8 := (dirtyByte c slot a).getD (memRead c.snap a)

/-- Before a read, the core may renew its snapshot of a line (R236). -/
def touchLine (s : State) (ck line : Nat) : State :=
  let (b, s) := s.freeBit
  if b then s.setCore ck { s.core ck with snap := copyLine (s.core ck).snap s.mem line } else s

def touchLines (s : State) (ck : Nat) (lines : List Nat) : State := lines.foldl (fun s l => touchLine s ck l) s

/-- A byte that the group reads comes from a poisoned word (R225). -/
def poisoned (s : State) (ck slot a : Nat) : Bool :=
  s.poison.contains (a / 64) && (dirtyByte (s.core ck) slot a).isNone

/-- Bytes stored into the L1, as the newest of their slot (R234). -/
def storeL1 (c : Core) (slot a : Nat) (bs : List W8) : Core :=
  let put (d : List (Nat × W8 × Nat)) (w : Nat × W8) : List (Nat × W8 × Nat) :=
    d.filter (fun x => !(x.1 == w.1 && x.2.2 == slot)) ++ [(w.1, w.2, slot)]
  { c with dirty := (bytesAt a bs).foldl put c.dirty,
           yields := c.yields.filter fun y => !(y.2 == slot && decide (a ≤ y.1 ∧ y.1 < a + bs.length)) }

/-! ### Translation (R210 to R213) -/

/-- What an access needs (R206, R211). -/
inductive Right
  | r | w | a
  deriving DecidableEq, Repr

/-- A lane's translation: a physical key, an access fault, or a replayable fault. -/
inductive TRes
  | ok (addr : Nat)
  | fault (code : W8)
  | park
  deriving DecidableEq, Repr

def Obj.holds (o : Obj) : Right → Bool
  | .r => o.r
  | .w => o.w
  | .a => o.a

def TransReg.holds (b : TransReg) : Right → Bool
  | .r => b.r
  | .w => b.w
  | .a => b.a

/-- The checks that depend on the object alone (R210, R212): OBJINV, HOMELOST, EXTERNAL and NOTHOMED. -/
def objFault (o : Obj) (obj die : Nat) : Option W8 :=
  if obj = 0 ∨ o.state = .invalid then some 0x20
  else if o.state = .lost then some 0x27
  else if o.kind ≠ .die then some 0x25
  else if o.home ≠ die then some 0x24
  else none

/-- The pages of an extent (R208). -/
def extPages (x : Extent) : Nat := (x.ngm1 + 1) * x.gran

/-- The pages of a spill region (R33). -/
def spillPages (q : Queue) : Nat := (q.spillN * q.esizeB + 4095) / 4096

/-- The memory key of what an ASID owns: the device key for the ASIDs of the device tenant (R101, R103, R206). -/
def keyOf (s : State) (asid : Nat) : Nat := if s.mgmt.reservedAsids.contains asid then 64 else asid / 64

/-- A page is among the extents of an object on a die: those of its home, or of a copy. -/
def pagesHave (o : Obj) (d page : Nat) : Bool :=
  let has (es : List Extent) : Bool := es.any fun x => x.p && decide (x.pfn ≤ page ∧ page < x.pfn + extPages x)
  (o.state == .valid || o.state == .moving) && o.kind == .die && ((o.home == d && has o.exts) || o.copies.any fun y => y.1 == d && has y.2)

/-- The key index under which a page of a die's memory is encrypted, which its LLC lines carry: that of the object, the queue or
the saved block that owns it, and the device key for what is the firmware's (R101, R203, R206). -/
def pageKey (s : State) (d page : Nat) : Option Nat :=
  let inRun (p n : Nat) : Bool := decide (p ≤ page ∧ page < p + n)
  match s.objs.find? fun e => pagesHave e.2 d page with
  | some e => some e.2.key
  | none =>
    match s.queues.find? fun q => q.1 / 2 ^ 20 == d && q.2.state != .free && inRun (q.2.spillBase.toNat / 4096) (spillPages q.2) with
    | some q => some (if q.2.sys then 64 else keyOf s q.2.asid.toNat)
    | none =>
      match (s.die d).bound.find? fun b => inRun b.page b.pages with
      | some b => some (keyOf s b.asid.toNat)
      | none =>
        match (s.die d).saved.find? fun b => inRun b.page b.pages with
        | some b => some (keyOf s b.bind.asid.toNat)
        | none => if 33554432 - 262144 ≤ page then some 64 else none

/-- A line is served only to an access with the key index of its page (R101, R203, log 104: DEDUCED); a page that nothing owns has none. -/
def keyServes (s : State) (d page key : Nat) : Bool := (pageKey s d page).all (· == key)

/-- A walk of the object table and the extent list (R212). An access that its page's key does not serve waits as for an absent page
(log 104: DEDUCED). -/
def walkLane (s : State) (die asid obj off width : Nat) (rt : Right) : TRes :=
  let o := s.obj asid obj
  match objFault o obj die with
  | some c => .fault c
  | none =>
    if o.bound < off + width then .fault 0x21
    else if !o.holds rt then .fault 0x22
    else match extentAt o off with
      | none => .fault 0x23
      | some x =>
        if o.state = .moving || !x.p || !keyServes s die (extentAddr x off / 4096) o.key then .park else .ok (physKey die (extentAddr x off))

/-- A lane-wise access (R211, R212); an access past the bound fails whole (R396). -/
def transLane (s : State) (die asid : Nat) (b : TransReg) (o : Int) (width align : Nat) (rt : Right) : TRes :=
  let page := b.base.toNat / 4096 * 4096
  if !b.set then .fault 0x20
  else if o < 0 ∨ 2 ^ 44 ≤ o then .fault 0x21
  else if o.toNat % align ≠ 0 then .fault 0x26
  else if b.v ∧ page ≤ o.toNat ∧ o.toNat < page + b.lim.toNat * 4096 then
    if (s.obj asid b.obj.toNat).bound < o.toNat + width then .fault 0x21
    else if !b.holds rt then .fault 0x22
    else if !keyServes s die (b.pfn.toNat + (o.toNat - page) / 4096) b.key.toNat then .park
    else .ok (physKey die (b.pfn.toNat * 4096 + (o.toNat - page)))
  else walkLane s die asid b.obj.toNat o.toNat width rt

/-- A scratchpad access (R202, R396). -/
def scrLane (g : Slot) (core : Nat) (o : Int) (width : Nat) : TRes :=
  if o < 0 ∨ g.bind.scr4k.toNat * 4096 < o + width then .fault 0x28
  else if o.toNat % width ≠ 0 then .fault 0x26
  else .ok (scrKey core (g.bind.sbase4k.toNat * 4096 + o.toNat))

/-- The trap of an access fault (R215, R279, R282): the code and the address of the lowest faulting lane. -/
def memTrap (fpc : W64) (code : W8) (lanes : W32) (addr : W64) : Trap :=
  { cause := 0x09, code := code, precise := false, lanes := lanes, fpc := fpc, arg0 := addr }

def faultResult (t : Trap) : Result := { fault := some t }

/-! ### Issue of memory instructions (R215 to R218, R399) -/

/-- A lane as the instruction issues it, with its exact offset. -/
structure RawLane where
  lane : Nat
  off : Int
  data : List W8 := []
  cmp : W32 := 0
  deriving DecidableEq, Repr

/-- The lanes that act: those of the active set, or the unfinished ones of a restored group (R168). -/
def memActive (g : Slot) (h : Hdr) : W32 := g.replay.getD (activeSet g h)

def objAddr (obj : Nat) (off : Int) : W64 := BitVec.ofNat 64 (obj * 2 ^ 44) ||| (BitVec.ofInt 44 off).setWidth 64

/-- Post the fault record of a parked group (R217). -/
def postFault (s : State) (k : Nat) (asid : BitVec 12) (obj off : Nat) : Nat × State :=
  let (id, s) := s.fresh
  let x := s.die (slotDie k)
  (id, s.setDie (slotDie k) { x with faults := x.faults ++ [{ id := id, slot := some k, asid := asid, obj := obj, off := off }] })

/-- The group parks on a translation fault with the unfinished lanes of its instruction (R217). -/
def parkGroup (s : State) (k : Nat) (op : Option MemOp) (sw : Bool) (obj off : Nat) : State :=
  let (id, s) := postFault s k (s.slot k).bind.asid obj off
  s.setSlot k { s.slot k with fpark := some ⟨op, id, sw, obj, off⟩,
                              stopped := (s.slot k).stopped || (s.slot k).bind.sstate == .draining }

/-- The operation of the lanes that translated: a tile load joins the scoreboard, the others the outstanding operations. -/
def addMemOp (s : State) (k : Nat) (m : MemOp) (fpc : W64) : State :=
  if m.lanes.isEmpty then s
  else
    let (id, s) := s.fresh
    let g := s.slot k
    match m.kind with
    | .tload t _ => s.setSlot k { g with board := g.board ++ [⟨id, fpc, [], [t.toNat], false, .load m⟩] }
    | _ => s.setSlot k { g with outst := g.outst ++ [⟨id, fpc, .mem m, none⟩] }

/-- The lanes of an instruction with their translations. -/
def splitLanes (rs : List (RawLane × TRes)) : List LaneOp × List LaneOp :=
  (rs.filterMap fun p => match p.2 with
    | .ok a => some ⟨p.1.lane, p.1.off.toNat, a, p.1.data, p.1.cmp⟩
    | _ => none,
   rs.filterMap fun p => match p.2 with
    | .park => some ⟨p.1.lane, p.1.off.toNat, 0, p.1.data, p.1.cmp⟩
    | _ => none)

/-- The faulting lanes and the trap of the lowest. -/
def lanesFault (obj : Option Nat) (fpc : W64) (rs : List (RawLane × TRes)) : Option Trap :=
  let fs := rs.filterMap fun p => match p.2 with
    | .fault c => some (p.1, c)
    | _ => none
  match fs with
  | [] => none
  | (r, c) :: _ =>
    some (memTrap fpc c (maskOf fun l => fs.any fun f => f.1.lane == l)
      (match obj with
       | some n => objAddr n r.off
       | none => BitVec.ofInt 64 r.off))

/-- Issue a memory instruction whose lanes have been translated (R215 to R217): an access fault stops every lane; the lanes
that translated are launched; the others park the group at the instruction. -/
def issueLanes (s : State) (m : MemOp) (rs : List (RawLane × TRes)) (sw : Bool) : State :=
  let g := s.grp
  match lanesFault (if m.scr then none else some m.obj) g.pc rs with
  | some t => s.launch g .wait (some (faultResult t)) sw
  | none =>
    let (go, rest) := splitLanes rs
    let fpc := g.pc
    if rest.isEmpty then addMemOp (s.retire g sw) s.cur { m with lanes := go } fpc
    else
      parkGroup (addMemOp (s.issued g false) s.cur { m with lanes := go } fpc) s.cur (some { m with lanes := rest }) sw m.obj
        ((rest.map (·.off)).headD 0)

/-- The offset of a lane: BASE or 0, plus vK unless NOV, plus IMM32 (R396). -/
def laneOff (g : Slot) (base : Int) (nov : Bool) (vo : VReg) (imm : W32) (l : Nat) : Int :=
  base + (if nov then 0 else (lane (getV g vo) l).toInt) + imm.toInt

def rawLanes (act : W32) (off : Nat → Int) (data : Nat → List W8) (cmp : Nat → W32) : List RawLane :=
  (lanesOf act).map fun l => ⟨l, off l, data l, cmp l⟩

/-- A replay of a parked memory instruction (R218): its unfinished lanes walk again; the group goes on when none is left. -/
def replayOp (s : State) (k : Nat) (p : Park) (m : MemOp) : State :=
  let g := s.slot k
  let (width, rt) := match m.kind with
    | .load ty _ => (tyWidth ty / 8, Right.r)
    | .store w => (w, Right.w)
    | .atom _ _ _ => (4, Right.a)
    | .tload _ w => (w, Right.r)
  let rs := m.lanes.map fun x =>
    ((⟨x.lane, x.off, x.data, x.cmp⟩ : RawLane), walkLane s (slotDie k) g.bind.asid.toNat m.obj x.off width rt)
  let goOn (g : Slot) : Slot := { g with fpark := none, pc := nextPc g.pc, marked := p.sw }
  match lanesFault (some m.obj) g.pc rs with
  | some t =>
    let (id, s) := s.fresh
    s.setSlot k { goOn g with outst := g.outst ++ [⟨id, g.pc, .wait, some (faultResult t)⟩] }
  | none =>
    let (go, rest) := splitLanes rs
    let s := addMemOp s k { m with lanes := go } g.pc
    if rest.isEmpty then s.setSlot k (goOn (s.slot k))
    else parkGroup s k (some { m with lanes := rest }) p.sw m.obj ((rest.map (·.off)).headD 0)

/-! ### Performing (R232, R234, R240) -/

/-- An operation performs only when no earlier phase of its group is incomplete (R238). -/
def performable (g : Slot) (id : Nat) : Bool := afterPhase g id

def MemKind.reads : MemKind → Bool
  | .store _ => false
  | _ => true

/-- The bytes of each lane. -/
def MemKind.width : MemKind → Nat
  | .load ty _ => tyWidth ty / 8
  | .store w => w
  | .atom _ _ _ => 4
  | .tload _ w => w

/-- Two operations touch a byte in common. -/
def overlap (a b : MemOp) : Bool :=
  a.scr == b.scr && a.lanes.any fun x => b.lanes.any fun y =>
    decide (x.addr < y.addr + b.kind.width ∧ y.addr < x.addr + a.kind.width)

/-- Reads of one location by one group perform in issue order (R232, R241). -/
def readsFirst (g : Slot) (id : Nat) (m : MemOp) : Bool :=
  !m.kind.reads ||
    ((g.outst.all fun o => decide (id ≤ o.id) || o.res.isSome || match o.op with
      | .mem x => !(x.kind.reads && overlap x m)
      | _ => true) &&
     g.board.all fun b => decide (id ≤ b.id) || match b.kind with
      | .load x => !overlap x m
      | _ => true)

/-- The lanes of a load that read poison raise MEMUE, and the load writes nothing (R215, R225). -/
def poisonFault (s : State) (k : Nat) (fpc : W64) (obj : Nat) (width : Nat) (ls : List LaneOp) : Option Trap :=
  let bad := ls.filter fun x => (List.range width).any fun i => poisoned s (k / 16) (k % 16) (x.addr + i)
  match bad with
  | [] => none
  | x :: _ => some (memTrap fpc 0x38 (maskOf fun l => bad.any fun b => b.lane == l) (objAddr obj x.off))

def linesOf (width : Nat) (ls : List LaneOp) : List Nat :=
  ((ls.map fun (x : LaneOp) => x.addr / 128) ++ (ls.map fun (x : LaneOp) => (x.addr + width - 1) / 128)).eraseDups

/-- What a byte of the scratchpad held before an outstanding copy of the block wrote it (R245). -/
def scrBefore (s : State) (lead a : Nat) : Option W8 :=
  ((s.die (slotDie lead)).copies.find? fun c => c.lead == lead && c.wrote.any fun w => w.1 && w.2.1 == a).map fun c => memRead c.pre.scr a

/-- The words among some that a free choice takes. -/
def pickWords {α : Type} (s : State) : List α → List α × State
  | [] => ([], s)
  | w :: r =>
    let (f, s) := s.freeBit
    let (ws, s) := pickWords s r
    (if f then w :: ws else ws, s)

/-- The aligned 8-byte words of the scratchpad that a load reads as they stood before an outstanding copy wrote them: any of
them, freely, and each whole (R231, R245). -/
def oldWords (s : State) (k width : Nat) (ls : List LaneOp) : List Nat × State :=
  let as := ls.flatMap fun x => (List.range width).map fun i => x.addr + i
  let hit := as.filter fun a => (scrBefore s (leadOf k (s.slot k)) a).any (· != memRead s.scr a)
  pickWords s ((hit.map (· / 8)).eraseDups)

/-- A byte of the scratchpad, as a load reads it. -/
def scrByte (s : State) (k : Nat) (old : List Nat) (a : Nat) : W8 :=
  if old.contains (a / 8) then (scrBefore s (leadOf k (s.slot k)) a).getD (memRead s.scr a) else memRead s.scr a

/-- The bytes of die memory that a lane reads. -/
def laneBytes (s : State) (k : Nat) (a n : Nat) : List W8 :=
  (List.range n).map fun i => viewByte (s.core (k / 16)) (k % 16) (a + i)

def laneData (ls : List (Nat × W32)) (l : Nat) : W32 := ((ls.find? fun p => p.1 == l).map (·.2)).getD 0

/-- A load reads its lanes (R397). -/
def performLoad (s : State) (k : Nat) (fpc : W64) (m : MemOp) (ty : Ty) (d : VReg) : Result × State :=
  let w := tyWidth ty / 8
  let s := if m.scr then s else touchLines s (k / 16) (linesOf w m.lanes)
  match if m.scr then none else poisonFault s k fpc m.obj w m.lanes with
  | some t => (faultResult t, s)
  | none =>
    let (old, s) := if m.scr then oldWords s k w m.lanes else ([], s)
    let bytes (a : Nat) : List W8 := if m.scr then (List.range w).map fun i => scrByte s k old (a + i) else laneBytes s k a w
    let vs := m.lanes.map fun x => (x.lane, tyV ty (leNat (bytes x.addr) : Int))
    ({ vw := [⟨d, maskOf fun l => m.lanes.any fun x => x.lane == l, genVec fun l => laneData vs l⟩] }, s)

/-- A store writes its lanes in ascending order, so the highest wins (R232, R398). -/
def performStore (s : State) (k : Nat) (m : MemOp) : State :=
  if m.scr then { s with scr := m.lanes.foldl (fun r (x : LaneOp) => memStore r x.addr x.data) s.scr }
  else s.setCore (k / 16) (m.lanes.foldl (fun c (x : LaneOp) => storeL1 c (k % 16) x.addr x.data) (s.core (k / 16)))

/-- The new value of an atomic (R400). -/
def atomNew (op : AtomOp) (ty : Ty) (x y c : W32) : W32 :=
  match op with
  | .add => x + y
  | .and => x &&& y
  | .or => x ||| y
  | .xor => x ^^^ y
  | .min => BitVec.ofInt 32 (minInt (tyVal ty x.toNat) (tyVal ty y.toNat))
  | .max => BitVec.ofInt 32 (maxInt (tyVal ty x.toNat) (tyVal ty y.toNat))
  | .exch => y
  | .cas => if x = c then y else x
  | .fadd => BitVec.ofNat 32 (addF .rn false x.toNat y.toNat).bits

/-- One lane's read-modify-write in the scratchpad (R400). -/
def atomScr (op : AtomOp) (ty : Ty) (sg : Mem × List (Nat × W32)) (x : LaneOp) : Mem × List (Nat × W32) :=
  let old : W32 := BitVec.ofNat 32 (memNat sg.1 x.addr 4)
  (memStore sg.1 x.addr (leBytes 4 (atomNew op ty old (BitVec.ofNat 32 (leNat x.data)) x.cmp).toNat), sg.2 ++ [(x.lane, old)])

/-- The result of an atomic whose lanes have all performed. -/
def atomResult (ret : Option VReg) (got : List (Nat × W32)) : Result :=
  match ret with
  | none => {}
  | some d => { vw := [⟨d, maskOf fun l => got.any fun p => p.1 == l, genVec fun l => laneData got l⟩] }

/-- Perform a memory operation of a group whole, but for an atomic to die memory (R240): its result, when it has one. -/
def performMem (s : State) (k : Nat) (fpc : W64) (m : MemOp) : Option Result × State :=
  match m.kind with
  | .load ty d =>
    let (r, s) := performLoad s k fpc m ty d
    (some r, s)
  | .store _ => (some {}, performStore s k m)
  | .atom op ty ret =>
    if m.scr then
      let (mem, got) := m.lanes.foldl (atomScr op ty) (s.scr, [])
      (some (atomResult ret got), { s with scr := mem })
    else (none, s)
  | .tload _ _ => (none, s)

/-- The lanes, among some of an atomic's, whose location is poisoned at its memory point once the group's own stores to it are
published (R225, R241). -/
def poisonedLanes (s : State) (k : Nat) (ls : List LaneOp) : List LaneOp :=
  ls.filter fun x =>
    let own := ownBytes (s.core (k / 16)) (k % 16) (x.addr / 128)
    (clearPoison s.poison (own.map fun d => (d.1, d.2.1))).contains (x.addr / 64)

/-- An atomic lane performs at its memory point (R240, R241): the group's stores to the line, and no others, are published
first, and the core's copy of the line is invalidated. -/
def atomPoint (s : State) (k : Nat) (op : AtomOp) (ty : Ty) (x : LaneOp) : W32 × State :=
  let line := x.addr / 128
  let s := acceptBytes s (k / 16) (ownBytes (s.core (k / 16)) (k % 16) line)
  let old : W32 := BitVec.ofNat 32 (memNat s.mem x.addr 4)
  let s := s.pointWrite (bytesAt x.addr (leBytes 4 (atomNew op ty old (BitVec.ofNat 32 (leNat x.data)) x.cmp).toNat))
  (old, s.setCore (k / 16) { s.core (k / 16) with snap := copyLine (s.core (k / 16)).snap s.mem line })

/-! ### Phases (R237, R238) -/

/-- A contribution of a group to a merge queue of its own die has not performed at its home: it is in the marver, on its way, or
held there (R50, R249). -/
def owesMerge (s : State) (k : Nat) : Bool :=
  let d := slotDie k
  let ctx := (s.slot k).ctx
  let own (p : W32) : Bool := pqPkg p == s.pkgid && (pqDie p).toNat == d
  (List.range 16).any (fun p => (s.port (portKey d p)).marver.any fun e => e.by_.contains ctx && own e.pqid) ||
    ((s.flow ⟨s.pkgid, BitVec.ofNat 3 d, s.pkgid, BitVec.ofNat 3 d⟩).arrived.any fun m => m.by_.contains ctx) ||
    s.queues.any fun q => q.1 / 65536 / 16 == d && q.2.heldRel.any fun m => m.by_.contains ctx

/-- Every earlier access of the group has performed, and so has every earlier operation on a queue of its own die, which
`home` names as bits [31:20] of its PQIDs. -/
def phaseReady (g : Slot) (home : Nat) (id : Nat) : Bool :=
  (g.outst.all fun o => decide (id < o.id) || match o.op with
    | .mem _ => o.res.isSome
    | .queue q => o.res.isSome || decide (q.pqid.toNat / 2 ^ 20 ≠ home)
    | _ => true) &&
  g.board.all fun t => decide (id < t.id) || match t.kind with
    | .load _ => false
    | _ => true

/-- Take a pending phase as far as it can go: publish once every earlier access has performed, then refresh (R238). -/
def advancePhase (s : State) (k : Nat) : State :=
  let g := s.slot k
  match g.phase with
  | none => s
  | some p =>
    if !phaseReady g (s.pkgid.toNat * 8 + slotDie k) p.id || (p.ticket.isNone && owesMerge s k) then s
    else if !p.die then (s.setSlot k { g with phase := none }).refreshBlock k
    else
      let (t, s) := match p.ticket with
        | some t => (t, s)
        | none => startPublish s k
      let g := s.slot k
      if publishDone g t then refreshCore (s.setSlot k { g with phase := none }) (k / 16)
      else s.setSlot k { g with phase := some { p with ticket := some t } }

/-- What follows any change of a group's outstanding operations: its deferred trap, its end, its phase, and the queue
operations that the phase held back. -/
def settle (s : State) (k : Nat) : State := sendHeld (advancePhase (settleFault s k) k) k

end Sys2Proof.Machine
end

