-- ==== Sys2Proof/Machine/MemForms.lean ====
section
/-! DEFINITION. Memory, atomic and phase instructions (R395 to R406). -/
namespace Sys2Proof.Machine

/-- A lane-wise form on die memory or on the scratchpad: REGRANGE, then the limit of R185, then the lanes. -/
def memForm (s : State) (h : Hdr) (ok : Bool) (next : State) : Out :=
  let g := s.grp
  if !ok then .next (s.regRange (activeSet g h))
  else if outstFull g then .next (s.stallAt .resource)
  else .next next

/-- The lanes of a die-memory form with their translations (R211, R212). -/
def dieLanes (s : State) (br : BReg) (width align : Nat) (rt : Right) (raws : List RawLane) : List (RawLane × TRes) :=
  let g := s.grp
  let b := tget g.b br.toNat {}
  raws.map fun r => (r, transLane s (slotDie s.cur) g.bind.asid.toNat b r.off width align rt)

/-- The lanes of a scratchpad form (R202). -/
def scrLanes (s : State) (width : Nat) (raws : List RawLane) : List (RawLane × TRes) :=
  let g := s.grp
  raws.map fun r => (r, scrLane g (s.cur / 16) r.off width)

def breg (g : Slot) (br : BReg) : TransReg := tget g.b br.toNat {}

/-- The offsets of a die-memory form. -/
def dieOff (g : Slot) (br : BReg) (nov : Bool) (vo : VReg) (imm : W32) (l : Nat) : Int :=
  laneOff g ((breg g br).base.toNat : Int) nov vo imm l

def okOff (g : Slot) (nov : Bool) (vo : VReg) : Bool := nov || okV g vo

/-- The low bytes of a lane of a register. -/
def laneStore (v : Vec) (width l : Nat) : List W8 := leBytes width (lane v l).toNat

/-- VLD (R397). -/
def execVld (o : Sys2Proof.Mem) (s : State) : Out :=
  let g := s.grp
  let w := tyWidth o.ty / 8
  let raws := rawLanes (memActive g o.h) (dieOff g o.br o.nov o.vo o.imm) (fun _ => []) (fun _ => 0)
  memForm s o.h (okV g o.d && okOff g o.nov o.vo)
    (issueLanes s ⟨.load o.ty o.d, false, (breg g o.br).obj.toNat, [], []⟩ (dieLanes s o.br w w .r raws) o.h.sw)

/-- VST (R398): the data is read at issue. -/
def execVst (o : Sys2Proof.Mem) (s : State) : Out :=
  let g := s.grp
  let w := tyWidth o.ty / 8
  let raws := rawLanes (memActive g o.h) (dieOff g o.br o.nov o.vo o.imm) (laneStore (getV g o.d) w) (fun _ => 0)
  memForm s o.h (okV g o.d && okOff g o.nov o.vo)
    (issueLanes s ⟨.store w, false, (breg g o.br).obj.toNat, [], []⟩ (dieLanes s o.br w w .w raws) o.h.sw)

/-- VLDS (R397). -/
def execVlds (o : Scr) (s : State) : Out :=
  let g := s.grp
  let w := tyWidth o.ty / 8
  let raws := rawLanes (memActive g o.h) (laneOff g 0 o.nov o.vo o.imm) (fun _ => []) (fun _ => 0)
  memForm s o.h (okV g o.d && okOff g o.nov o.vo)
    (issueLanes s ⟨.load o.ty o.d, true, 0, [], []⟩ (scrLanes s w raws) o.h.sw)

/-- VSTS (R398). -/
def execVsts (o : Scr) (s : State) : Out :=
  let g := s.grp
  let w := tyWidth o.ty / 8
  let raws := rawLanes (memActive g o.h) (laneOff g 0 o.nov o.vo o.imm) (laneStore (getV g o.d) w) (fun _ => 0)
  memForm s o.h (okV g o.d && okOff g o.nov o.vo)
    (issueLanes s ⟨.store w, true, 0, [], []⟩ (scrLanes s w raws) o.h.sw)

/-- The register that receives the old values: none with `.nr` (R400). -/
def atomRet (nr : Bool) (d2 : VReg) : Option VReg := if nr then none else some d2

/-- VATOM (R400): operand and compare value are read at issue. -/
def execVatom (o : Atom) (s : State) : Out :=
  let g := s.grp
  let raws := rawLanes (memActive g o.h) (dieOff g o.br o.nov o.vo o.imm) (laneStore (getV g o.d) 4) (lane (getV g o.d2))
  memForm s o.h (okV g o.d && okOff g o.nov o.vo && (o.nr || okV g o.d2))
    (issueLanes s ⟨.atom o.op o.ty (atomRet o.nr o.d2), false, (breg g o.br).obj.toNat, [], []⟩
      (dieLanes s o.br 4 4 .a raws) o.h.sw)

/-- VATOMS (R400). -/
def execVatoms (o : ScrAtom) (s : State) : Out :=
  let g := s.grp
  let raws := rawLanes (memActive g o.h) (laneOff g 0 o.nov o.vo o.imm) (laneStore (getV g o.d) 4) (lane (getV g o.d2))
  memForm s o.h (okV g o.d && okOff g o.nov o.vo && (o.nr || okV g o.d2))
    (issueLanes s ⟨.atom o.op o.ty (atomRet o.nr o.d2), true, 0, [], []⟩ (scrLanes s 4 raws) o.h.sw)

/-! ### Tile rows (R177, R188, R402) -/

def tcWord (g : Slot) (t : TReg) : W64 := tget g.tc t.toNat 0
def tcRows (w : W64) : Nat := bitsOf w.toNat 15 11 + 1
def tcWidth (w : W64) : Nat := 4 * (bitsOf w.toNat 10 6 + 1)
def tcFmt (w : W64) : Nat := bitsOf w.toNat 5 3

/-- The bytes of a row of a tile. -/
def tileRow (g : Slot) (t : Nat) (row n : Nat) : List W8 := memBytes g.t (4096 * t + 128 * row) n

/-- An unfinished instruction writes one of the tiles (R188). -/
def writerOf (g : Slot) (ts : List Nat) : Bool := g.board.any fun b => b.writes.any ts.contains

/-- An unfinished instruction reads or writes one of the tiles (R188). -/
def userOf (g : Slot) (ts : List Nat) : Bool := g.board.any fun b => b.writes.any ts.contains || b.reads.any ts.contains

/-- The lanes that move a row (R402). -/
def rowLanes (g : Slot) (h : Hdr) (t : TReg) : W32 :=
  memActive g h &&& maskOf fun l => decide (l < tcRows (tcWord g t))

/-- TLD (R402): it waits for earlier readers and writers of its tile (R188). -/
def execTld (o : TMem) (s : State) : Out :=
  let g := s.grp
  let w := tcWidth (tcWord g o.d)
  let raws := rawLanes (rowLanes g o.h o.d) (dieOff g o.br o.nov o.vo o.imm) (fun _ => []) (fun _ => 0)
  if okT g o.d && okOff g o.nov o.vo && !outstFull g && userOf g [o.d.toNat] then .next (s.stallAt .tile)
  else memForm s o.h (okT g o.d && okOff g o.nov o.vo)
    (issueLanes s ⟨.tload o.d w, false, (breg g o.br).obj.toNat, [], []⟩ (dieLanes s o.br w 128 .r raws) o.h.sw)

/-- TST (R402): it reads the tile at issue, once earlier writers have retired (R188). -/
def execTst (o : TMem) (s : State) : Out :=
  let g := s.grp
  let w := tcWidth (tcWord g o.d)
  let raws := rawLanes (rowLanes g o.h o.d) (dieOff g o.br o.nov o.vo o.imm) (fun l => tileRow g o.d.toNat l w) (fun _ => 0)
  if okT g o.d && okOff g o.nov o.vo && !outstFull g && writerOf g [o.d.toNat] then .next (s.stallAt .tile)
  else memForm s o.h (okT g o.d && okOff g o.nov o.vo)
    (issueLanes s ⟨.store w, false, (breg g o.br).obj.toNat, [], []⟩ (dieLanes s o.br w 128 .w raws) o.h.sw)

/-! ### Prefetch (R403) -/

/-- The lines of the lanes that translate; the others are dropped. -/
def prefLines (s : State) (o : Pref) : List Nat :=
  let g := s.grp
  let raws := rawLanes (activeSet g o.h) (dieOff g o.br o.nov o.vo o.imm) (fun _ => []) (fun _ => 0)
  ((dieLanes s o.br 1 1 .r raws).filterMap fun p => match p.2 with
    | .ok a => some (a / 128)
    | _ => none).eraseDups

/-- VPREF_L1: the lines may be fetched into the L1 (R403). -/
def execVprefL1 (o : Pref) (s : State) : Out :=
  let g := s.grp
  checked s (okOff g o.nov o.vo) (activeSet g o.h) (touchLines (s.retire g o.h.sw) (s.cur / 16) (prefLines s o))

/-- VPREF_LLC: no state that a program can see (R403). -/
def execVprefLlc (o : Pref) (s : State) : Out :=
  let g := s.grp
  checked s (okOff g o.nov o.vo) (activeSet g o.h) (s.retire g o.h.sw)

/-! ### Translation registers and phases (R210, R238, R404, R405) -/

/-- What `bset` writes (R210); LIM stops at its largest value (log 11: DESIGN CHOICE). -/
def bsetReg (o : Obj) (x : Extent) (obj off : Nat) : TransReg :=
  let page := off / 4096 - x.offpg
  let lim := min ((x.ngm1 + 1) * x.gran - page) ((o.bound + 4095) / 4096 - off / 4096)
  { obj := BitVec.ofNat 20 obj, base := BitVec.ofNat 44 off, pfn := BitVec.ofNat 28 (x.pfn + page),
    lim := BitVec.ofNat 20 (min lim (2 ^ 20 - 1)), key := BitVec.ofNat 7 o.key, set := true, a := o.a, w := o.w, r := o.r,
    v := true }

/-- A precise MEMORY trap (R279). -/
def memPrecise (g : Slot) (code : W8) (addr : W64) : Trap := { preciseTrap g 0x09 code g.em with arg0 := addr }

/-- BSET (R210): a precise fault leaves bN unchanged; MOVING and NOTPRESENT park the group, and it issues again. -/
def execBset (o : BSet) (s : State) : Out :=
  let g := s.grp
  let a := getS g o.a
  let off := addrOff a
  let ob := s.obj g.bind.asid.toNat (addrObj a)
  if !okS g o.a then .next (s.regRange g.em)
  else match objFault ob (addrObj a) (slotDie s.cur) with
    | some c => .next (s.trapCur (memPrecise g c a))
    | none =>
      if ob.bound ≤ off then .next (s.trapCur (memPrecise g 0x21 a))
      else match extentAt ob off with
        | none => .next (s.trapCur (memPrecise g 0x23 a))
        | some x =>
          if ob.state = .moving || !x.p then .next (parkGroup (s.issued g false) s.cur none o.sw (addrObj a) off)
          else .next (s.retire { g with b := tset g.b o.b.toNat (bsetReg ob x (addrObj a) off) } o.sw)

/-- A phase instruction (R238): its steps follow as the group's earlier accesses perform; a second phase waits at issue. -/
def phaseForm (s : State) (h : Hdr) (die : Bool) : Out :=
  let g := s.grp
  if g.phase.isSome then .next (s.stallAt .resource)
  else
    let (id, s) := s.fresh
    .next (advancePhase (s.retire { g with phase := some ⟨id, die, none⟩ } h.sw) s.cur)

/-- PHASE_BLK (R237, R238, R405). -/
def execPhaseBlk (h : Hdr) (s : State) : Out := phaseForm s h false

/-- PHASE_DIE (R235, R236, R238, R405). -/
def execPhaseDie (h : Hdr) (s : State) : Out := phaseForm s h true

/-! ### Claim (R220, R406) -/

/-- The access fault of a claim (R220, R227, R406). -/
def claimFault (o : Obj) (obj off : Nat) : Option W8 :=
  if obj = 0 ∨ o.state = .invalid then some 0x20
  else if o.state = .lost then some 0x27
  else if o.kind ≠ .die ∧ !o.evac then some 0x25
  else if o.bound ≤ off then some 0x21
  else if !o.w then some 0x22
  else none

/-- The range of a claim: whole pages, clipped to BOUND (R220). -/
def claimRange (o : Obj) (off len : Nat) : Nat × Nat :=
  (off / 4096 * 4096, min ((off + len + 4095) / 4096 * 4096) ((o.bound + 4095) / 4096 * 4096))

/-- CLAIM (R220, R406): the status comes later; the claim of an object homed elsewhere joins the queue of its home. -/
def execClaim (o : Claim) (s : State) : Out :=
  let g := s.grp
  let act := activeSet g o.h
  let a := getS g o.a
  let ob := s.obj g.bind.asid.toNat (addrObj a)
  let die := slotDie s.cur
  if !(okS g o.d && okS g o.a && okS g o.b) then .next (s.regRange act)
  else if act = 0 then .next (s.retire g o.h.sw)
  else if outstFull g then .next (s.stallAt .resource)
  else match claimFault ob (addrObj a) (addrOff a) with
    | some c => .next (s.launch g .wait (some (faultResult (memTrap g.pc c act a))) o.h.sw)
    | none =>
      if ob.kind = .die ∧ ob.home = die then .next (s.launch g .wait (some { sw := [(o.d, 0)] }) o.h.sw)
      else
        let op := s.ids
        let s := s.launch g (.claim o.d a (getS g o.b)) none o.h.sw
        let (lo, hi) := claimRange ob (addrOff a) (getS g o.b).toNat
        let home := if ob.kind = .die then ob.home else die
        let x := s.die home
        let c : ClaimReq := { slot := s.cur, op := op, asid := g.bind.asid, obj := addrObj a, lo := lo, hi := hi, dest := die, lanes := act }
        .next (s.setDie home { x with claims := x.claims ++ [c] })

end Sys2Proof.Machine
end

