-- ==== Sys2Proof/Machine/Engine.lean ====
section
/-! DEFINITION. Timeline counters (R189 to R192), the copy engine (R222, R223, R407 to R412), and the instructions that
start, await and read engine operations (R409, R413, R414). -/
namespace Sys2Proof.Machine

/-! ### Timeline counters -/

def tlVal (w : W64) : Nat := bitsOf w.toNat 39 0
def tlPend (w : W64) : Nat := bitsOf w.toNat 46 40
def tlEv (w : W64) : Bool := w.getLsbD 47
def tlEfirst (w : W64) : Nat := bitsOf w.toNat 63 48

/-- A counter word from its fields (R189). -/
def tlWord (val pend : Nat) (ev : Bool) (ef : Nat) : W64 :=
  BitVec.ofNat 16 ef ++ BitVec.ofBool ev ++ BitVec.ofNat 7 pend ++ BitVec.ofNat 40 val

/-- The number that the next operation receives (R190). -/
def tlNext (w : W64) : Nat := (tlVal w + tlPend w + 1) % 2 ^ 40

/-- PEND after an operation has taken its number (R190). -/
def tlIssued (w : W64) : W64 := tlWord (tlVal w) (tlPend w + 1) (tlEv w) (tlEfirst w)

/-- EV and EFIRST after an operation has failed: EFIRST stays when it is the lower one, modulo 2^16 (R191). -/
def tlFailed (w : W64) (num : Nat) : W64 :=
  if tlEv w && decide ((num % 2 ^ 16 + 2 ^ 16 - tlEfirst w) % 2 ^ 16 < 2 ^ 15) then w
  else tlWord (tlVal w) (tlPend w) true (num % 2 ^ 16)

/-- How many numbers above VAL have completed in a row. -/
def tlRun (fin : List (Nat × Nat)) (tl : Nat) (w : W64) : Nat :=
  ((List.range (tlPend w)).takeWhile fun i => fin.contains (tl, (tlVal w + i + 1) % 2 ^ 40)).length

/-- VAL advances over the completed run in one step, and PEND falls as much (R190). -/
def tlAdvance (b : Block) (tl : Nat) : Block :=
  let w := tget b.tl tl 0
  let n := tlRun b.fin tl w
  { b with tl := tset b.tl tl (tlWord ((tlVal w + n) % 2 ^ 40) (tlPend w - n) (tlEv w) (tlEfirst w)),
           fin := b.fin.filter fun p => !(p.1 == tl && (List.range n).any fun i => p.2 == (tlVal w + i + 1) % 2 ^ 40) }

/-- An operation completes on its counter (R190, R191). -/
def tlComplete (b : Block) (tl num : Nat) (failed : Bool) : Block :=
  let w := tget b.tl tl 0
  let w := if failed then tlFailed w num else w
  tlAdvance { b with tl := tset b.tl tl w, fin := (tl, num) :: b.fin } tl

/-- The operation of the issuing group takes its number (R190). -/
def takeNumber (s : State) (tl : W3) : Nat × State :=
  let b := s.block s.lead
  let w := tget b.tl tl.toNat 0
  (tlNext w, s.setBlock s.lead { b with tl := tset b.tl tl.toNat (tlIssued w) })

/-- A counter has reached a number (R190, R413). -/
def tlReached (w : W64) (n : Nat) : Bool := decide ((tlVal w + 2 ^ 40 - n) % 2 ^ 40 < 2 ^ 39)

/-! ### Reading records (R211, R212, R409) -/

/-- A read of whole bytes from one address: the address of each byte, a fault, or an offset that parks. -/
inductive RecRes
  | ok (addrs : List Nat)
  | fault (code : W8)
  | park (off : Nat)
  deriving DecidableEq, Repr

/-- The walk of `n` bytes at an aligned address: a fault of any part comes before a park. -/
def recWalk (s : State) (die asid : Nat) (a : W64) (n : Nat) : RecRes :=
  let off := addrOff a
  if off % 64 ≠ 0 then .fault 0x26
  else match walkLane s die asid (addrObj a) off n .r with
    | .fault c => .fault c
    | _ =>
      let rs := (List.range n).map fun i => (off + i, walkLane s die asid (addrObj a) (off + i) 1 .r)
      match rs.findSome? (fun p => match p.2 with
        | .fault c => some c
        | _ => none) with
      | some c => .fault c
      | none =>
        match rs.find? fun p => p.2 == .park with
        | some p => .park p.1
        | none => .ok (rs.filterMap fun p => match p.2 with
            | .ok x => some x
            | _ => none)

/-- The bytes of a record through the group's own view (R243), or the trap of the poison they hold (R225). -/
def readView (s : State) (k : Nat) (addrs : List Nat) : Option (List W8) × State :=
  let s := touchLines s (k / 16) ((addrs.map fun a => a / 128).eraseDups)
  if addrs.any fun a => poisoned s (k / 16) (k % 16) a then (none, s)
  else (some (addrs.map fun a => viewByte (s.core (k / 16)) (k % 16) a), s)

/-! ### Tensor records (R407, R408) -/

def recNat (r : List W8) (off n : Nat) : Nat := leNat ((r.drop off).take n)
def recInt (r : List W8) (off : Nat) : Int := sgn 32 (recNat r off 4)
def recCtl (r : List W8) : Nat := recNat r 0 8
def recNdim (r : List W8) : Nat := bitsOf (recCtl r) 59 56
def recB (r : List W8) : Nat := 2 ^ bitsOf (recCtl r) 55 54
def recSscr (r : List W8) : Bool := (recCtl r).testBit 53
def recDscr (r : List W8) : Bool := (recCtl r).testBit 52

/-- The dimensions in use, the fastest first: SIZE, SSTR and DSTR. -/
def recDims (r : List W8) : List (Nat × Int × Int) :=
  (List.range (recNdim r)).map fun j => (recNat r (0x18 + 12 * j) 4, recInt r (0x1C + 12 * j), recInt r (0x20 + 12 * j))

/-- N (R408). -/
def recCount (r : List W8) : Nat := (recDims r).foldl (fun n d => n * d.1) 1

/-- A malformed record (R408). -/
def recBad (r : List W8) : Bool :=
  let nd := recNdim r
  bitsOf (recCtl r) 63 60 != 1 || nd == 0 || decide (12 < nd) || bitsOf (recCtl r) 51 0 != 0 ||
    recNat r (0x18 + 12 * nd) (0xC0 - 0x18 - 12 * nd) != 0 || decide (2 ^ 44 ≤ recCount r * recB r) ||
    (recSscr r && recNat r 0x08 8 / 2 ^ 18 != 0) || (recDscr r && recNat r 0x10 8 / 2 ^ 18 != 0)

/-- The strided sum of one side for an element (R408). -/
def strideSum (dims : List (Nat × Int × Int)) (src : Bool) (e : Nat) : Int :=
  match dims with
  | [] => 0
  | (n, ss, ds) :: r => ((e % n : Nat) : Int) * (if src then ss else ds) + strideSum r src (e / n)

/-- The lowest and the highest strided sum of one side (R410). -/
def strideLo (dims : List (Nat × Int × Int)) (src : Bool) : Int :=
  dims.foldl (fun t d => t + min 0 (((d.1 : Int) - 1) * (if src then d.2.1 else d.2.2))) 0
def strideHi (dims : List (Nat × Int × Int)) (src : Bool) : Int :=
  dims.foldl (fun t d => t + max 0 (((d.1 : Int) - 1) * (if src then d.2.1 else d.2.2))) 0

/-- Where a byte of a side lies. -/
inductive Place
  | mem (a : Nat)
  | scr (a : Nat)
  | far (a : Nat)
  | host (a : Nat)
  deriving DecidableEq, Repr

/-- What the engine meets at a byte (R410). -/
inductive PlaceRes
  | ok (p : Place)
  | access (code : W8)
  | parkAt (obj off : Nat)
  | page (key : Nat)
  | tier
  deriving DecidableEq, Repr

/-- The key of a host byte under a PASID (R222). -/
def hostKey (asid va : Nat) : Nat := asid * 2 ^ 64 + va

/-- The far-tier port of a tier address (R127). -/
def farPort (a : Nat) : Nat := if a < 2 ^ 44 then 0 else if a < 2 ^ 45 then 1 else a / 2 ^ 45 + 1

def portUp (s : State) (a : Nat) : Bool := s.farUp.getD (farPort a) false

/-- The checks of a side that an engine makes on the object as a whole (R410). -/
def engineFault (o : Obj) (obj die : Nat) : Option W8 :=
  if obj = 0 ∨ o.state = .invalid then some 0x20
  else if o.state = .lost then some 0x27
  else if o.kind = .die ∧ o.home ≠ die then some 0x24
  else none

/-- The check of a side at the start of a copy: the object, or the scratchpad, holds every byte (R410). -/
def sideFault (s : State) (c : Copy) (die : Nat) (src : Bool) : Option W8 :=
  let r := c.record
  let base := recNat r (if src then 0x08 else 0x10) 8
  let b : Int := recB r
  let lo := b * strideLo (recDims r) src
  let hi := b * strideHi (recDims r) src + b - 1
  if if src then recSscr r else recDscr r then
    if (base : Int) + lo < 0 ∨ ((s.slot c.slot).bind.scr4k.toNat * 4096 : Int) ≤ base + hi then some 0x28 else none
  else
    let o := s.obj c.asid.toNat (base / 2 ^ 44)
    let off : Int := (base % 2 ^ 44 : Nat)
    match engineFault o (base / 2 ^ 44) die with
    | some x => some x
    | none =>
      if off + lo < 0 ∨ (o.bound : Int) ≤ off + hi then some 0x21
      else if !o.holds (if src then .r else .w) then some 0x22
      else none

/-- The key of a byte of the far tier in the list of poisoned words (R225, R129). -/
def farKey (a : Nat) : Nat := 2 ^ 44 + a

/-- A byte of a side as the engine reaches it (R410, R222); a far-tier read that returns poison is a tier error (R129). -/
def placeAt (s : State) (c : Copy) (die : Nat) (src : Bool) (d : Int) : PlaceRes :=
  let base := recNat c.record (if src then 0x08 else 0x10) 8
  if if src then recSscr c.record else recDscr c.record then
    .ok (.scr (scrKey (c.lead / 16) ((s.slot c.slot).bind.sbase4k.toNat * 4096 + (base + d).toNat)))
  else
    let obj := base / 2 ^ 44
    let off := (((base % 2 ^ 44 : Nat) : Int) + d).toNat
    let o := s.obj c.asid.toNat obj
    match engineFault o obj die with
    | some x => .access x
    | none =>
      if o.bound ≤ off then .access 0x21
      else if !o.holds (if src then .r else .w) then .access 0x22
      else match o.kind with
        | .die => (match extentAt o off with
          | none => .access 0x23
          | some x =>
            if o.state = .moving || !x.p || !keyServes s die (extentAddr x off / 4096) o.key then .parkAt obj off else .ok (.mem (physKey die (extentAddr x off))))
        | .host =>
          let k := hostKey c.asid.toNat ((o.extbase.toNat + off) % 2 ^ 64)
          if s.hostAbsent.contains (k / 4096) then .page (k / 4096) else .ok (.host k)
        | .far =>
          let a := o.extbase.toNat + off
          if !portUp s a || (src && s.poison.contains (farKey a / 64)) then .tier else .ok (.far a)

/-- A byte of one of the memories. -/
def readPlace (mem scr far host : Mem) : Place → W8
  | .mem a => memRead mem a
  | .scr a => memRead scr a
  | .far a => memRead far a
  | .host a => memRead host a

/-- The aligned 8-byte word of a place. -/
def Place.word : Place → Place
  | .mem a => .mem (a / 8)
  | .scr a => .scr (a / 8)
  | .far a => .far (a / 8)
  | .host a => .host (a / 8)

/-- The byte of the source at a displacement lies where it did when the copy started. -/
def samePlace (s : State) (c : Copy) (x : Int) : Bool :=
  let base := recNat c.record 0x08 8
  let off := (((base % 2 ^ 44 : Nat) : Int) + x).toNat
  let o := s.obj c.asid.toNat (base / 2 ^ 44)
  recSscr c.record || (o.kind == c.from_.kind &&
    if o.kind = .die then objByteAddr o off == objByteAddr c.from_ off else o.extbase == c.from_.extbase)

/-- The bytes that the engine reads, in order. Where an aligned 8-byte word has changed since the copy started, it is read as its old or as
its new value, whole (R231, R243, R408). -/
def readSources (s : State) (c : Copy) (ps : List (Int × Place)) : List W8 × State :=
  let new (p : Place) : W8 := readPlace s.mem s.scr s.far s.hostMem p
  let old (p : Int × Place) : W8 := if samePlace s c p.1 then readPlace c.pre.mem c.pre.scr c.pre.far c.pre.host p.2 else new p.2
  let (ws, t) := pickWords s (((ps.filter fun p => old p != new p.2).map fun p => p.2.word).eraseDups)
  (ps.map fun p => if ws.contains p.2.word then old p else new p.2, t)

/-- The engine's writes, in order: at the memory points, or in place (R244, R411). -/
def writePlaces (s : State) (ws : List (Place × W8)) : State :=
  let s := s.pointWrite (ws.filterMap fun w => match w.1 with
    | .mem a => some (a, w.2)
    | _ => none)
  let s := { s with poison := clearPoison s.poison (ws.filterMap fun w => match w.1 with
    | .far a => some (farKey a, w.2)
    | _ => none) }
  ws.foldl (fun s w => match w.1 with
    | .mem _ => s
    | .scr a => { s with scr := memWrite s.scr a w.2 }
    | .far a => { s with far := memWrite s.far a w.2 }
    | .host a => { s with hostMem := memWrite s.hostMem a w.2 }) s

/-! ### Copies in progress (R410 to R412) -/

def State.setCopy (s : State) (d : Nat) (c : Copy) : State :=
  let x := s.die d
  s.setDie d { x with copies := x.copies.map fun y => if y.id = c.id then c else y }

def State.dropCopy (s : State) (d id : Nat) : State :=
  let x := s.die d
  s.setDie d { x with copies := x.copies.filter fun y => y.id != id }

/-- The 64 engine contexts serve copies in the order they issued (R409). -/
def inEngine (x : Die) (id : Nat) : Bool :=
  ((x.copies.filter fun c => c.stop != .saved).take 64).any fun c => c.id == id

/-- The start of a copy: its record is checked, and it fails at once or begins (R410). -/
def startCopy (s : State) (d : Nat) (c : Copy) : Copy :=
  let c := { c with started := true, pre := ⟨s.mem, s.scr, s.far, s.hostMem⟩,
                    from_ := s.obj c.asid.toNat (recNat c.record 0x08 8 / 2 ^ 44) }
  if recBad c.record then { c with stat := 1 }
  else if recCount c.record = 0 then c
  else match sideFault s c d true, sideFault s c d false with
    | some x, _ => { c with stat := 2, code := x }
    | none, some x => { c with stat := 2, code := x }
    | none, none => c

/-- The bytes of the next chunk: the displacement of each on both sides, in iteration order (R408). -/
def chunkBytes (c : Copy) : List (Int × Int) :=
  let b := recB c.record
  let n := min 256 (recCount c.record * b - c.done)
  (List.range n).map fun i =>
    let k := c.done + i
    let z : Int := (k % b : Nat)
    ((b : Int) * strideSum (recDims c.record) true (k / b) + z, (b : Int) * strideSum (recDims c.record) false (k / b) + z)

/-- What stops a chunk: the first event in iteration order, a source before its destination (R410). -/
def chunkStop (ps : List (PlaceRes × PlaceRes)) : Option PlaceRes :=
  (ps.flatMap fun p => [p.1, p.2]).find? fun r => match r with
    | .ok _ => false
    | _ => true

/-- A copy that stops, as R410 and R223 lay down; beyond the allocation of R222 its page request waits, and it tries again. -/
def stopCopy (s : State) (d : Nat) (c : Copy) (r : PlaceRes) : State :=
  match r with
  | .ok _ => s
  | .access x => s.setCopy d { c with stat := 2, code := x }
  | .tier => s.setCopy d { c with stat := 4 }
  | .page _ =>
    if (s.asid c.asid.toNat).priRefused then s.setCopy d { c with stat := 3 }
    else if s.priAlloc ≤ s.priOut.length then s
    else { s.setCopy d { c with prq := true, stop := .page } with priOut := s.priOut ++ [(d, c.id)] }
  | .parkAt obj off =>
    let (id, s) := s.fresh
    let s := s.setCopy d { c with stop := .fault }
    let x := s.die d
    s.setDie d { x with faults := x.faults ++ [{ id := id, copy := some c.id, asid := c.asid, obj := obj, off := off }] }

/-- Two writes of a copy are to one byte. -/
def sameByte (a b : Bool × Nat × W8) : Bool := a.1 == b.1 && a.2.1 == b.2.1

/-- Of several writes to one byte, the last (R408). -/
def lastWrites : List (Bool × Nat × W8) → List (Bool × Nat × W8)
  | [] => []
  | w :: r => if r.any (sameByte w) then lastWrites r else w :: lastWrites r

/-- The byte of a memory that a write names. -/
def wroteByte (mem scr : Mem) (w : Bool × Nat × W8) : W8 := memRead (if w.1 then scr else mem) w.2.1

/-- A copy notes a byte that it writes, after what a store has put there since the copy last wrote it, or started (R245, R408). -/
def noteWrite (s : State) (c : Copy) (w : Bool × Nat × W8) : Copy :=
  let mine := c.wrote.filter (sameByte w)
  let now := wroteByte s.mem s.scr w
  let known := match mine.getLast? with
    | some x => x.2.2
    | none => wroteByte c.pre.mem c.pre.scr w
  { c with wrote := c.wrote.filter (fun x => !sameByte w x) ++ mine.dropLast ++
      (if now = known then [] else [(w.1, w.2.1, now)]) ++ [w] }

/-- The next chunk of a running copy is written whole, or the copy stops before it (R410, R411). -/
def nextChunk (s : State) (d : Nat) (c : Copy) : State :=
  let ps := (chunkBytes c).map fun p => (placeAt s c d true p.1, placeAt s c d false p.2)
  match chunkStop ps with
  | some r => stopCopy s d c r
  | none =>
    let pick (r : PlaceRes) : Place := match r with
      | .ok p => p
      | _ => .mem 0
    let src := ps.map fun p => pick p.1
    let dst := ps.map fun p => pick p.2
    if src.any (fun p => match p with
      | .mem a => s.poison.contains (a / 64)
      | _ => false) then s.setCopy d { c with stat := 5 }
    else
      let (bs, s) := readSources s c (((chunkBytes c).map fun p => p.1).zip src)
      let ws := dst.zip bs
      let puts := lastWrites (ws.filterMap fun w => match w.1 with
        | .mem a => some (false, a, w.2)
        | .scr a => some (true, a, w.2)
        | _ => none)
      let c := puts.foldl (noteWrite s) c
      (writePlaces s ws).setCopy d { c with done := c.done + ws.length }

/-- COPY_CHUNK (R410, R411): the start check of a copy whose issue publish is complete, then a chunk at a time. -/
def execCopyChunk (s : State) : Out :=
  let d := s.arg.die.toNat
  match (s.die d).copies.find? fun c => c.id == s.arg.idx with
  | none => .next s
  | some c =>
    if !inEngine (s.die d) c.id || c.stop != .none || c.stat != 0 || !publishDone (s.slot c.slot) c.gate then .next s
    else if !c.started then .next (s.setCopy d (startCopy s d c))
    else if c.done < recCount c.record * recB c.record then .next (nextChunk s d c)
    else .next s

/-- The byte that a copy wrote is still its destination's. -/
def stillThere (s : State) (d : Nat) (c : Copy) (w : Bool × Nat × W8) : Bool :=
  let o := s.obj c.asid.toNat (recNat c.record 0x10 8 / 2 ^ 44)
  w.1 || (o.state != .invalid && o.state != .lost && o.kind == .die && o.home == d && o.exts.any fun x =>
    x.p && decide (physKey d (4096 * x.pfn) ≤ w.2.1 ∧ w.2.1 < physKey d (4096 * (x.pfn + extPages x))))

/-- The bytes of some words take the values of a list. -/
def putWords (s : State) (vs : List (Bool × Nat × W8)) (ws : List (Bool × Nat)) : State :=
  let at_ (scr : Bool) : List (Nat × W8) := vs.filterMap fun w =>
    if w.1 = scr ∧ ws.contains (scr, w.2.1 / 8) then some w.2 else none
  let scr : Mem := (at_ true).foldl (fun m w => memWrite m w.1 w.2) s.scr
  State.pointWrite { s with scr := scr } (at_ false)

def wordsOf (vs : List (Bool × Nat × W8)) : List (Bool × Nat) := (vs.map fun w => (w.1, w.2.1 / 8)).eraseDups

/-- A byte to which a group stored while the copy was outstanding ends with the store's value or the copy's, an aligned 8-byte word
whole (R231, R245, log 134: DEDUCED). -/
def settleWrites (s : State) (ws : List (Bool × Nat × W8)) : State :=
  let ends := lastWrites ws
  let now (w : Bool × Nat × W8) : W8 := wroteByte s.mem s.scr w
  let mine := ends.filter fun w => now w != w.2.2
  let theirs := lastWrites (ws.filter fun w => now w != w.2.2 && ends.any fun e => sameByte e w && now e == e.2.2)
  let (a, t) := pickWords s (wordsOf mine)
  let (b, t) := pickWords t (wordsOf theirs)
  putWords (putWords t mine a) theirs b

/-- A store that is still unpublished when the copy completes may lose its bytes to the copy (R245, R415). -/
def dropStores (s : State) (ck : Nat) (ws : List (Bool × Nat × W8)) : State :=
  let c := s.core ck
  let hit := c.dirty.filter fun x => ws.any fun w => !w.1 && w.2.1 == x.1
  let (ps, s) := pickWords s ((hit.map fun x => (x.1 / 8, x.2.2)).eraseDups)
  let lost := hit.filter fun x => ps.contains (x.1 / 8, x.2.2)
  if lost.isEmpty then s
  else s.setCore ck { c with dirty := c.dirty.filter (fun x => !lost.contains x),
                             snap := lost.foldl (fun m x => memWrite m x.1 (memRead s.mem x.1)) c.snap }

/-- COPY_COMPLETE (R190, R191, R411): the counter advances, with EV after a failure. -/
def execCopyComplete (s : State) : Out :=
  let d := s.arg.die.toNat
  match (s.die d).copies.find? fun c => c.id == s.arg.idx with
  | none => .next s
  | some c =>
    if !c.started || c.stop == .saved || (c.stat == 0 && decide (c.done < recCount c.record * recB c.record)) then .next s
    else
      let ws := c.wrote.filter (stillThere s d c)
      let s := (((s.cores.map (·.1)).filter fun k => k / 160 == d).foldl (fun s k => dropStores s k ws) (settleWrites s ws)).dropCopy d c.id
      .next (s.setBlock c.lead (tlComplete (s.block c.lead) c.tl.toNat c.num.toNat (c.stat != 0)))

/-! ### The host's answers (R222, R223) -/

/-- Whether the host has made a page resident, or not, is the host's (R223). -/
def hostResidency (s : State) (page : Nat) : State :=
  let (f, s) := s.freeBit
  { s with hostAbsent := if f then page :: s.hostAbsent.filter (· != page) else s.hostAbsent.filter (· != page) }

/-- ATS_INVALIDATION: a copy that uses the page translates again at its next chunk, as every chunk does; the page may have
gone (R222). -/
def execAtsInvalidation (s : State) : Out := .next (hostResidency s (hostKey s.arg.asid.toNat s.arg.addr / 4096))

/-- The pages that a copy's next chunk needs and lacks. -/
def missingPages (s : State) (d : Nat) (c : Copy) : List Nat :=
  (chunkBytes c).flatMap fun p => [placeAt s c d true p.1, placeAt s c d false p.2].filterMap fun r => match r with
    | .page k => some k
    | _ => none

/-- A copy with a request outstanding receives an answer. -/
def answerCopy (s : State) (d : Nat) (c : Copy) (r : PageReply) : State :=
  match r with
  | .success => ((missingPages s d c).eraseDups.foldl hostResidency s).setCopy d { c with prq := false, stop := .none, resp := none }
  | _ => s.setCopy d { c with prq := false, stop := .none, stat := 3, resp := none }

/-- An answer reaches a copy; a saved copy keeps it until its block resumes (R223). -/
def deliverPage (s : State) (d : Nat) (c : Copy) (r : PageReply) : State :=
  if c.stop = .saved then s.setCopy d { c with resp := some r } else answerCopy s d c r

/-- Every copy of a PASID with a request outstanding fails, on every die (R223). -/
def failPasid (s : State) (asid : BitVec 12) : State :=
  (List.range 8).foldl (fun s d =>
    ((s.die d).copies.filter fun c => c.asid == asid && c.prq && c.resp.isNone).foldl (fun s c => deliverPage s d c .failure) s) s

/-- PAGE_RESPONSE (R223): an answer that no copy awaits is discarded and counted in PRILATE; the request is outstanding no
longer (R222). -/
def execPageResponse (s : State) : Out :=
  let d := s.arg.die.toNat
  let s := { s with priOut := s.priOut.filter (· != (d, s.arg.idx)) }
  match (s.die d).copies.find? fun c => c.id == s.arg.idx && c.prq && c.resp.isNone with
  | none =>
    let x := s.die d
    .next (s.setDie d { x with prilate := if x.prilate = 0xFFFF then 0xFFFF else x.prilate + 1 })
  | some c =>
    match s.arg.reply with
    | .failure =>
      let a := c.asid.toNat
      .next (failPasid (s.setAsid a { s.asid a with priRefused := true }) c.asid)
    | r => .next (deliverPage s d c r)

/-! ### The copy instruction (R409) -/

/-- The group takes a fault of an engine record as a deferred trap, with FPC and RPC at the instruction (R279, R409). -/
def recordFault (s : State) (code : W8) (addr : W64) : State :=
  let g := s.grp
  let (id, s) := s.fresh
  let g' : Slot := joinFault g id { memTrap g.pc code 0xFFFFFFFF addr with rpc := g.pc }
  settleFault (s.issued g' false) s.cur

/-- MASK code 0x01 (R335). -/
def maskTrap (g : Slot) : Trap := preciseTrap g 0x06 0x01 g.em

/-- The publish that every engine operation begins with, the number it takes, and its timeline number in sD (R409). -/
def engineIssue (s : State) (tl : W3) (d : SReg) (sw : Bool) : Nat × Nat × State :=
  let (t, s) := startPublish s s.cur
  let (n, s) := takeNumber s tl
  (t, n, s.retire (setS s.grp d (BitVec.ofNat 64 n)) sw)

def tlFull (s : State) (tl : W3) : Bool := tlPend (tget (s.block s.lead).tl tl.toNat 0) == 127

/-- The copies of a block that are outstanding (R409). -/
def blockCopies (s : State) (lead : Nat) : Nat := ((s.die (slotDie lead)).copies.filter fun c => c.lead == lead).length

/-- TCOPY (R409). -/
def execTcopy (o : TCopy) (s : State) : Out :=
  let g := s.grp
  let d := slotDie s.cur
  let a := getS g o.qh
  if !(okS g o.d && okS g o.qh) then .next (s.regRange (activeSet g o.h))
  else if activeSet g o.h ≠ 0xFFFFFFFF then .next (s.trapCur { maskTrap g with lanes := activeSet g o.h })
  else if g.phase.isSome || decide (16 ≤ blockCopies s s.lead) || tlFull s o.tl then .next (s.stallAt .resource)
  else match recWalk s d g.bind.asid.toNat a 192 with
    | .fault c => .next (recordFault s c a)
    | .park off => .next (parkGroup (s.issued g false) s.cur none o.h.sw (addrObj a) off)
    | .ok addrs =>
      let (r, s) := readView s s.cur addrs
      match r with
      | none => .next (recordFault s 0x38 a)
      | some bs =>
        let slot := s.cur
        let lead := s.lead
        let (t, n, s) := engineIssue s o.tl o.d o.h.sw
        let (id, s) := s.fresh
        let x := s.die d
        .next (s.setDie d { x with copies := x.copies ++
          [{ id := id, slot := slot, lead := lead, asid := g.bind.asid, record := bs, tl := o.tl, num := BitVec.ofNat 40 n,
             gate := t }] })

/-! ### Timeline waits and reads (R191, R413, R414) -/

/-- COPY (R279, R282). -/
def copyTrap (g : Slot) (h : Hdr) (w : W64) (tl : W3) : Trap :=
  { preciseTrap g 0x0C 0 (activeSet g h) with rpc := nextPc g.pc, arg0 := w, arg1 := tl.setWidth 64 }

/-- A `twait` for a number (R413): it waits at its place, traps after a failure that it covers, or refreshes and goes on. -/
def twaitFor (s : State) (h : Hdr) (tl : W3) (n : Nat) : State :=
  let g := s.grp
  let w := tget (s.block s.lead).tl tl.toNat 0
  if !tlReached w n then s.setGrp (stopIfDraining { g with twait := some (tl, BitVec.ofNat 40 n), marked := false })
  else if tlEv w && decide ((n % 2 ^ 16 + 2 ^ 16 - tlEfirst w) % 2 ^ 16 < 2 ^ 15) then
    (s.setGrp { g with twait := none }).trapCur (copyTrap g h w tl)
  else refreshCore (s.retire { g with twait := none } h.sw) (s.cur / 16)

/-- The number of a wait: the one computed at its first issue, when it reissues (R413). -/
def twaitNum (g : Slot) (n : Nat) : Nat :=
  match g.twait with
  | some (_, m) => m.toNat
  | none => n

/-- TWAIT (R413). -/
def execTwait (o : TWait) (s : State) : Out :=
  let g := s.grp
  checked s (okS g o.a) (activeSet g o.h) (twaitFor s o.h o.tl (twaitNum g ((getS g o.a).toNat % 2 ^ 40)))

/-- TWAIT_IMM: n = (VAL + PEND − IMM24) mod 2^40 at the first issue (R413). -/
def execTwaitImm (o : TWaitImm) (s : State) : Out :=
  let g := s.grp
  let w := tget (s.block s.lead).tl o.tl.toNat 0
  .next (twaitFor s o.h o.tl (twaitNum g ((tlVal w + tlPend w + 2 ^ 40 - o.imm.toNat) % 2 ^ 40)))

/-- TLRD: the counter word as it stands when the instruction reaches the unit (R414). -/
def execTlrd (o : TLrd) (s : State) : Out :=
  let g := s.grp
  if !okS g o.d then .next (s.regRange (activeSet g o.h))
  else if outstFull g then .next (s.stallAt .resource)
  else .next (s.launch g (.tlrd o.d o.tl) none o.h.sw)

end Sys2Proof.Machine
end

