-- ==== Sys2Proof/Machine/Paging.lean ====
section
/-! DEFINITION. The physical pages of a die as its firmware hands them out (R207, R208), zero-fill (R218), and
shootdowns (R213). -/
namespace Sys2Proof.Machine

/-! ### Free pages (log 16: DESIGN CHOICE) -/

/-- The first free run that holds `need` pages from a multiple of `gran` on, and what then remains. -/
def takePages (gran need : Nat) : List (Nat × Nat) → Option (Nat × List (Nat × Nat))
  | [] => none
  | (p, n) :: r =>
    let a := (p + gran - 1) / gran * gran
    if a + need ≤ p + n then
      some (a, (if p < a then [(p, a - p)] else []) ++ (if a + need < p + n then [(a + need, p + n - a - need)] else []) ++ r)
    else match takePages gran need r with
      | none => none
      | some (q, r') => some (q, (p, n) :: r')

/-- Return pages, joining the runs that meet. -/
def givePages (p n : Nat) : List (Nat × Nat) → List (Nat × Nat)
  | [] => if n = 0 then [] else [(p, n)]
  | (q, m) :: r =>
    if p + n < q then (p, n) :: (q, m) :: r
    else if p + n = q then (p, n + m) :: r
    else if q + m = p then givePages q (m + n) r
    else (q, m) :: givePages p n r

def freePages (x : Die) : Nat := x.free.foldl (fun t r => t + r.2) 0

/-- Pages handed out anew read zero on every core and hold no poison (R208, R225). -/
def zeroRange (s : State) (lo hi : Nat) : State :=
  { s with
    mem := memClear s.mem lo hi
    poison := s.poison.filter fun w => 64 * w + 64 ≤ lo || hi ≤ 64 * w
    cores := s.cores.map fun c => (c.1, { c.2 with
      snap := memClear c.2.snap lo hi, dirty := c.2.dirty.filter fun d => d.1 < lo || hi ≤ d.1 }) }

/-- Take a run of pages for an object of a die, zeroed; none when the home lacks room. -/
def allocRun (s : State) (die gran need : Nat) : Option (Nat × State) :=
  match takePages gran need (s.die die).free with
  | none => none
  | some (p, r) => some (p, zeroRange (s.setDie die { s.die die with free := r }) (physKey die (4096 * p)) (physKey die (4096 * (p + need))))

def releaseRun (s : State) (die p n : Nat) : State := s.setDie die { s.die die with free := givePages p n (s.die die).free }

/-- A run of pages goes back to its die with nothing left in it (R102). -/
def freeRun (s : State) (die p n : Nat) : State :=
  releaseRun (zeroRange s (physKey die (4096 * p)) (physKey die (4096 * (p + n)))) die p n

/-- A run of granules from an object page on, in as many records as its length takes: NGM1 has 28 bits (R208). -/
def runOf (pg gran n : Nat) (p z : Bool) (pfn : Nat) : List Extent :=
  (List.range ((n + 2 ^ 28 - 1) / 2 ^ 28)).map fun i =>
    ⟨pg + i * 2 ^ 28 * gran, gran, p, z, min (2 ^ 28) (n - i * 2 ^ 28) - 1, if p then pfn + i * 2 ^ 28 * gran else 0⟩

/-- The present runs of a list go back to a die. -/
def releaseExts (s : State) (d : Nat) (xs : List Extent) : State :=
  xs.foldl (fun s x => if x.p then releaseRun s d x.pfn (extPages x) else s) s

/-- The present runs of an object go back to its home. -/
def releaseObj (s : State) (o : Obj) : State := releaseExts s o.home o.exts

/-- The present runs of a list are zeroed. -/
def zeroExts (s : State) (d : Nat) (xs : List Extent) : State :=
  xs.foldl (fun s x => if x.p then zeroRange s (physKey d (4096 * x.pfn)) (physKey d (4096 * (x.pfn + extPages x))) else s) s

/-! ### Descriptors and extent records as the firmware's tables hold them (R206, R208) -/

def objStateNo : ObjState → Nat
  | .invalid => 0
  | .valid => 1
  | .moving => 2
  | .lost => 3

def objKindNo : ObjKind → Nat
  | .die => 0
  | .host => 1
  | .far => 2

def bitAt (b : Bool) (n : Nat) : Nat := if b then 2 ^ n else 0

/-- A word of an object descriptor (R206): STATE to BOUND, EXTBASE, and NEXT, the number of its extent records. -/
def objWord (o : Obj) (i : Nat) : W64 := match i with
  | 0 => BitVec.ofNat 64 (objStateNo o.state * 2 ^ 60 + objKindNo o.kind * 2 ^ 58 + bitAt o.x 57 + bitAt o.a 56 + bitAt o.w 55 +
      bitAt o.r 54 + o.key * 2 ^ 47 + (if o.kind = .die then o.home else 0) * 2 ^ 44 + o.bound % 2 ^ 44)
  | 1 => o.extbase
  | 2 => BitVec.ofNat 64 (if o.kind = .die then o.exts.length * 2 ^ 32 else 0)
  | _ => 0

/-- The code of a granule (R208). -/
def granCode (g : Nat) : Nat := if g = 1 then 0 else if g = 16 then 1 else if g = 512 then 2 else 3

/-- The 16 bytes of an extent record (R208). -/
def extBytes (x : Extent) : List W8 :=
  leBytes 8 (x.offpg * 2 ^ 32 + granCode x.gran * 2 ^ 30 + bitAt x.p 29 + bitAt x.z 28 + x.ngm1) ++ leBytes 8 x.pfn

/-- Where the firmware's tables hold the extent list of a die-memory object: the spec leaves the place to the firmware (log 97: DESIGN CHOICE). -/
def extList (asid obj : Nat) : W64 := Config.extentList (asid * 2 ^ 20 + obj)

/-! ### Shootdowns (R213) -/

/-- V is clear in every translation register that names the object. -/
def shootDown (s : State) (asid : BitVec 12) (obj : Nat) : State :=
  { s with slots := s.slots.map fun k =>
      if k.2.bind.asid = asid then (k.1, { k.2 with b := k.2.b.map fun b => if b.2.obj.toNat = obj then (b.1, { b.2 with v := false }) else b })
      else k }

/-- An access to the object that has translated has not performed. -/
def accessing (s : State) (asid : BitVec 12) (obj : Nat) : Bool :=
  s.slots.any fun k => k.2.bind.asid == asid &&
    ((k.2.outst.any fun o => match o.op with
      | .mem m => !m.scr && m.obj == obj && o.res.isNone
      | _ => false) ||
     k.2.board.any fun b => match b.kind with
      | .load m => m.obj == obj
      | _ => false)

/-- TRANSLATION_SHOOTDOWN (R213): complete once no access under the old mapping is unperformed. -/
def execTranslationShootdown (s : State) : Out :=
  if accessing s s.arg.asid s.arg.addr then .next s else .next (shootDown s s.arg.asid s.arg.addr)

/-! ### Zero-fill (R208, R218) -/

/-- Make the run of an offset present: the state when it is, and none when the home lacks room. A run that is neither present
nor zero-fill stays as it is. -/
def makePresent (s : State) (asid : BitVec 12) (obj off : Nat) : Option State :=
  let o := s.obj asid.toNat obj
  match extentAt o off with
  | none => some s
  | some x =>
    if x.p || !x.z then some s
    else match allocRun s o.home x.gran (extPages x) with
      | none => none
      | some (p, s) =>
        let o := { o with exts := o.exts.map fun y => if y.offpg = x.offpg then { y with p := true, z := false, pfn := p } else y }
        some (shootDown (s.setObj asid.toNat obj o) asid obj)

/-- Make every run of a range present, as far as the home has room. -/
def populate (s : State) (asid : BitVec 12) (obj off n : Nat) : State :=
  (List.range ((off + n + 4095) / 4096 - off / 4096)).foldl (fun s i =>
    (makePresent s asid obj ((off / 4096 + i) * 4096)).getD s) s

/-! ### Writes of the firmware and the engines to an object (R120, R141, R149, R196) -/

/-- Bytes written at the memory points of an object's present runs. -/
def writeObject (s : State) (asid : BitVec 12) (obj off : Nat) (bs : List W8) : State :=
  let s := populate s asid obj off bs.length
  let o := s.obj asid.toNat obj
  s.pointWrite (bs.zipIdx.filterMap fun b => (objByteAddr o (off + b.2)).map fun a => (a, b.1))

/-- A write whose bytes all lie in runs that are present, or can be made so; none where it faults (R214, R218). -/
def tryWrite (s : State) (asid : BitVec 12) (obj off : Nat) (bs : List W8) : Option State :=
  let o := (populate s asid obj off bs.length).obj asid.toNat obj
  if (List.range bs.length).all fun i => (objByteAddr o (off + i)).isSome then some (writeObject s asid obj off bs) else none

/-- An address names `n` bytes of a Valid die-memory object of an ASID, homed on the die, with a right. -/
def namesBytes (s : State) (die asid : Nat) (a : W64) (n : Nat) (rt : Right) : Bool :=
  let o := s.obj asid (addrObj a)
  addrObj a != 0 && o.state == .valid && o.kind == .die && o.home == die && decide (addrOff a + n ≤ o.bound) && o.holds rt

/-- A completion word, or none when its address does not name 8 writable bytes homed on the die (R120, R149). -/
def writeCompletion (s : State) (die : Nat) (asid : BitVec 12) (a v : W64) : State :=
  if a ≠ 0 && namesBytes s die asid.toNat a 8 .w then writeObject s asid (addrObj a) (addrOff a) (leBytes 8 v.toNat) else s

end Sys2Proof.Machine
end

