-- ==== Sys2Proof/Machine/Merge.lean ====
section
/-! DEFINITION. Merge queues: what a contribution is and how two combine (R49, R448), and the marver of a port (R50, R52). -/
namespace Sys2Proof.Machine

/-! ### Combining (R49) -/

/-- Word `w` of a byte image. -/
def byteWord (bs : List W8) (w : Nat) : W32 := BitVec.ofNat 32 (leNat ((bs.drop (4 * w)).take 4))

def drawOf (bs : List W8) : Draw := readDraw (byteWord bs 0) (byteWord bs 1) (byteWord bs 2) (byteWord bs 3)
def drawBytes (d : Draw) : List W8 := d.words.flatMap fun w => leBytes 4 w.toNat

def bytesNat (bs : List W8) (off n : Nat) : Nat := leNat ((bs.drop off).take n)

/-- The element size that a merge kind fixes (R49). -/
def kindSize (kind : W3) : Nat := if kind = 2 then 64 else 16

/-- The element of a key with no contribution (R49). -/
def emptyElem (kind : W3) : List W8 :=
  if kind = 1 then drawBytes Draw.empty
  else if kind = 4 then leBytes 16 (2 ^ 63)
  else List.replicate (kindSize kind) 0

/-- A saturating contribution count. -/
def satCount (a b : Nat) : Nat := min (a + b) (2 ^ 32 - 1)

/-- Combine two values of a merge kind; `ctr` is the counter that a draw merge consumes (R49, R52, R271). -/
def combine (kind : W3) (key ctr : W64) (a b : List W8) : List W8 :=
  if kind = 1 then drawBytes (mergeDraw key ctr (drawOf a) (drawOf b))
  else if kind = 2 then
    leBytes 40 ((bytesNat a 0 40 + bytesNat b 0 40) % 2 ^ 320) ++
      leBytes 4 ((bytesNat a 40 4 ||| bytesNat b 40 4) % 8) ++ leBytes 4 (satCount (bytesNat a 44 4) (bytesNat b 44 4)) ++
      List.replicate 16 0
  else
    let x := sgn 64 (bytesNat a 0 8)
    let y := sgn 64 (bytesNat b 0 8)
    let n := satCount (bytesNat a 8 4) (bytesNat b 8 4)
    if kind = 3 then
      let ov := decide (x + y < -(2 ^ 63) ∨ 2 ^ 63 ≤ x + y)
      leBytes 8 (wrapN 64 (x + y)) ++ leBytes 4 n ++
        leBytes 4 (((bytesNat a 12 4 ||| bytesNat b 12 4) ||| if ov then 1 else 0) % 2)
    else leBytes 8 (wrapN 64 (maxInt x y)) ++ leBytes 4 n ++ leBytes 4 0

/-- The contribution that an image makes (R448). -/
def contribution (kind : W3) (img : List W8) : List W8 :=
  if kind = 1 then img.take 16
  else if kind = 2 then img.take 44 ++ leBytes 4 1 ++ List.replicate 16 0
  else img.take 8 ++ leBytes 4 1 ++ leBytes 4 0

/-! ### The marver (R50) -/

/-- What the marver knows of a queue: its KIND and its coin key and counter base. For a queue of another package the three
are open values, the same at each contribution (log 14: DESIGN CHOICE). -/
def homeKind (s : State) (p : W32) : W3 × W64 × W64 :=
  if pqPkg p = s.pkgid then
    let q := s.queue (queueKey (pqDie p).toNat (pqPort p).toNat (pqQueue p).toNat)
    (if q.state = .free then 0 else q.kind, q.coinKey, q.ctrBase)
  else
    let x := Config.remoteKind p
    (BitVec.ofNat 3 (1 + x.1.toNat % 4), x.2)

/-- The source's counter space of R52. -/
def marverCtr (s : State) (die : Nat) (base : W64) (m : Nat) : W64 :=
  base + 2 ^ 63 + BitVec.ofNat 64 ((s.pkgid.toNat * 8 + die) * 2 ^ 48 + m % 2 ^ 48)

/-- Evict the least recently used entry of a full marver: its value travels to its home (R50). -/
def evictMarver (s : State) (die port : Nat) : State :=
  let x := s.port (portKey die port)
  if x.marver.length < Config.marverEntries then s
  else match x.marver.getLast? with
    | none => s
    | some e => sendMsg (s.setPort (portKey die port) { x with marver := x.marver.dropLast }) (flowTo s die e.pqid) (mergeMsg e)

/-- An entry of the marver travels to its home (R50). -/
def sendEntry (s : State) (die : Nat) (e : MarEntry) : State :=
  let pk := portKey die (pqPort e.pqid).toNat
  let x := s.port pk
  sendMsg (s.setPort pk { x with marver := x.marver.filter fun y => y != e }) (flowTo s die e.pqid) (mergeMsg e)

/-- A contribution enters the marver of the port of its PQID: kind 0 stands for one that its home will refuse. A new one does not
combine with an entry of another kind, which goes to its home first (R50, R448, log 98: DEDUCED). -/
def contribute (s : State) (die ctx : Nat) (tenant : W6) (dev : Bool) (p : W32) (key : W8) (esz : W3) (img : List W8) : State :=
  let (kind, ck, cb) := homeKind s p
  let kind := if kind ≠ 0 ∧ kindSize kind = 16 * 2 ^ esz.toNat then kind else 0
  let pk := portKey die (pqPort p).toNat
  let old := (s.port pk).marver.find? fun e => e.pqid == p && e.key == key
  match old.filter fun e => e.kind == kind && kind != 0 with
  | some e =>
    let e' : MarEntry := { e with
      data := combine kind ck (marverCtr s die cb e.combines) e.data (contribution kind img), combines := e.combines + 1
      by_ := if e.by_.contains ctx then e.by_ else e.by_ ++ [ctx] }
    let x := s.port pk
    s.setPort pk { x with marver := e' :: x.marver.filter fun y => !(y.pqid == p && y.key == key) }
  | none =>
    let s := match old with
      | some e => sendEntry s die e
      | none => evictMarver s die (pqPort p).toNat
    let data := if kind = 0 then img else combine kind ck (marverCtr s die cb 0) (emptyElem kind) (contribution kind img)
    let x := s.port pk
    s.setPort pk { x with marver := ⟨p, tenant, key, kind, data, 1, [ctx], dev⟩ :: x.marver }

end Sys2Proof.Machine
end

