-- ==== Sys2Proof/Machine/QueueHome.lean ====
section
/-! DEFINITION. A queue at its home port: grants, slots, dequeues, sleepers, rounds and the lifecycle (R33 to R58, R442 to
R452), and the events by which messages perform there (R36). -/
namespace Sys2Proof.Machine

/-! ### A queue by itself (R33 to R42) -/

def Queue.win (q : Queue) : Nat := q.winM1 + 1
def Queue.cap (q : Queue) : Nat := q.win + q.spillN
def Queue.len (q : Queue) : Nat := (q.tail - q.head).toNat
def Queue.free (q : Queue) : Nat := q.cap - q.len
def Queue.keys (q : Queue) : Nat := q.keysM1.toNat + 1

def Queue.slot (q : Queue) (seq : BitVec 48) : QSlot := tget q.slots seq.toNat (.granted .none)
def Queue.put (q : Queue) (seq : BitVec 48) (x : QSlot) : Queue := { q with slots := tset q.slots seq.toNat x }

/-- A sequence number that a dequeue can take (R42). -/
def QSlot.ready : QSlot → Bool
  | .granted _ => false
  | _ => true

/-- The consecutive Filled or Void sequence numbers from H (R42). -/
def Queue.run (q : Queue) : Nat :=
  ((List.range q.len).takeWhile fun i => (q.slot (q.head + BitVec.ofNat 48 i)).ready).length

/-- A grant ticket (R38). -/
def ticketOf (n nw : Nat) (seq : BitVec 48) : W64 := BitVec.ofNat 7 n ++ BitVec.ofNat 7 nw ++ 0#2 ++ seq

def ticketN (t : W64) : Nat := (t.extractLsb' 57 7).toNat
def ticketSeq (t : W64) : BitVec 48 := t.extractLsb' 0 48

/-- Grant `n` slots (R37): the ticket, and the queue with the slots Granted. -/
def Queue.grant (q : Queue) (n : Nat) (who : Requester) : W64 × Queue :=
  let q' := (List.range n).foldl (fun (q : Queue) i => q.put (q.tail + BitVec.ofNat 48 i) (.granted who)) q
  (ticketOf n (min n (q.win - q.len)) q.tail, { q' with tail := q.tail + BitVec.ofNat 48 n })

/-- An element fills the next slot at once (R446). -/
def Queue.append (q : Queue) (data : List W8) : BitVec 48 × Queue :=
  let (_, q') := q.grant 1 .none
  (q.tail, q'.put q.tail (.filled data))

/-- H advances over its slot (R41, R42). -/
def Queue.advance (q : Queue) : Queue := { q with slots := tdel q.slots q.head.toNat, head := q.head + 1 }

/-! ### Ports: counters and sleepers (R44 to R47, R58) -/

/-- A 16-bit counter that saturates (R58). -/
def sat16 (c : W16) (n : Nat) : W16 := BitVec.ofNat 16 (min 0xFFFF (c.toNat + n))

/-- A port of a die and a queue number in it. -/
structure QRef where
  die : Nat
  port : Nat
  q : Nat
  deriving DecidableEq, Repr

def QRef.key (r : QRef) : Nat := queueKey r.die r.port r.q
def pqidOf (s : State) (r : QRef) : W32 := s.pkgid ++ BitVec.ofNat 3 r.die ++ BitVec.ofNat 4 r.port ++ BitVec.ofNat 16 r.q
def QRef.pkey (r : QRef) : Nat := portKey r.die r.port

def addVoids (s : State) (r : QRef) (n : Nat) : State :=
  let x := s.port r.pkey
  s.setPort r.pkey { x with voids := sat16 x.voids n }

/-- Arrivals for contexts already killed (R58). -/
def addLate (s : State) (die port : Nat) : State :=
  let x := s.port (portKey die port)
  s.setPort (portKey die port) { x with late := sat16 x.late 1 }

def isReserver : SleepKind → Bool
  | .reserve _ => true
  | .push _ => true
  | _ => false

/-- A sleeper of a queue that nothing has woken. -/
def asleepOn (q : Nat) (e : Sleeper) : Bool := e.queue == q && e.woken.isNone

def reserversOf (x : Port) (q : Nat) : List Sleeper := x.sleepers.filter fun e => asleepOn q e && isReserver e.kind
def consumersOf (x : Port) (q : Nat) : List Sleeper := x.sleepers.filter fun e => asleepOn q e && !isReserver e.kind

/-- The lowest free sleeper entry, if one of the 4,096 is free (R44). -/
def freeEntry (x : Port) : Option Nat :=
  if Config.sleepersPerPort ≤ x.sleepers.length then none
  else (List.range Config.sleepersPerPort).find? fun n => !(x.sleepers.any fun e => e.entry == n)

def State.putSleeper (s : State) (pk : Nat) (e : Sleeper) : State :=
  let x := s.port pk
  s.setPort pk { x with sleepers := x.sleepers.map fun y => if y.entry = e.entry then e else y }

def State.dropSleeper (s : State) (pk entry : Nat) : State :=
  let x := s.port pk
  s.setPort pk { x with sleepers := x.sleepers.filter fun y => y.entry != entry }

/-! ### Answers (R73) -/

/-- The code of the REPLY that reports a sleep, and the code by which the model reports that no sleeper entry was free
(R46, R73, log 15: DEDUCED). -/
def codeAsleep : W8 := 0x3F
def codeNoEntry : W8 := 0x3E

/-- A message of the home to a requester, with an ECHO if one is owed to its die (R74). -/
def sendBack (s : State) (f : Flow) (m : Msg) : State :=
  let x := s.flow f
  let s := if x.echo = 0 ∨ m.typ ≠ .reply then s else s.setFlow f { x with echo := x.echo - 1 }
  sendMsg s (revFlow f) { m with echo := decide (x.echo ≠ 0) && m.typ == .reply }

/-- The REPLY to a request. -/
def answer (s : State) (m : Msg) (code : W8) (seq : BitVec 48) (ticket : W64) (data : List W8) : State :=
  sendBack s m.flow { typ := .reply, num := m.fseq.toNat, code := code, seq := seq, ticket := ticket, data := data,
                      ctx := m.ctx, esz := if data.isEmpty then none else some (eszOf data.length) }

def answerCode (s : State) (m : Msg) (code : W8) : State := answer s m code 0 0 []

def reqRef (m : Msg) : QRef := ⟨m.flow.ddie.toNat, m.port.toNat, m.queue.toNat⟩

/-- A sleeping group of this package that a save has put away: its push is granted, and filled only by the reissue (R458). -/
def putAway (e : Sleeper) : Bool := match e.who with
  | .group _ 0 => true
  | _ => false

/-- An operation that sleeps on its queue as a reserver: a reservation or a push (R44). -/
def reserves (k : QKind) : Bool := k == .res || k == .push

/-- The operations of a context that a save put to sleep at a place, and that are yet to be issued again, take the status, the sequence
number and the ticket of the wake that has ended their sleep (R47, R458, log 13: DEDUCED). -/
def noteAway (s : State) (die : Nat) (mine : Nat → Bool) (at_ : QState) (w : W8 × W64 × W64) : State :=
  let note (q : QOp) : QOp := if q.st = at_ ∧ q.woken.isNone then { q with woken := some w } else q
  let x := s.die die
  { s.setDie die { x with saved := x.saved.map fun v =>
      { v with slept := v.slept.map fun p => (p.1, if mine (v.ctxs.getD p.1 0) then note p.2 else p.2) } } with
    slots := s.slots.map fun e =>
      if slotDie e.1 = die ∧ mine e.2.ctx then (e.1, { e.2 with slept := e.2.slept.map note }) else e }

/-- The operation by which a context has issued its sleep on a queue of this package again, before it has performed: its slot's
operation. -/
def reissued (s : State) (r : QRef) (ctx : Nat) (reserver : Bool) : Option Nat :=
  let asks (q : QOp) : Bool := (q.kind == .res || q.kind == .push || q.kind == .get || q.kind == .sleep) &&
    reserves q.kind == reserver && q.pqid == pqidOf s r
  s.slots.findSome? fun e =>
    if e.2.ctx = ctx then
      (e.2.outst.find? fun o => match o.op with
        | .queue q => o.res.isNone && asks q && (match q.st with
          | .held => true
          | .sent _ => true
          | _ => false) && !((s.port r.pkey).sleepers.any fun y => y.who == .group ctx o.id)
        | _ => false).map (·.id)
    else none

/-- The sleep of a context that a save has put away ends with a status, and its entry is free (R45, R55, R56). An operation that has been
issued again takes its request back, and ends with a wake of its own. -/
def endAway (s : State) (r : QRef) (e : Sleeper) (c : Nat) (code : W8) : State :=
  match reissued s r c (isReserver e.kind) with
  | none => noteAway (s.dropSleeper r.pkey e.entry) e.flow.sdie.toNat (· == c) (.asleep e.flow (BitVec.ofNat 4 r.port) e.entry) (code, 0, 0)
  | some op =>
    let x := s.flow e.flow
    let s := s.setFlow e.flow { x with arrived := x.arrived.filter fun m => m.ctx != .group c op }
    sendBack (s.putSleeper r.pkey { e with who := .group c op, woken := some (code, 0) }) e.flow
      { typ := .wake, port := BitVec.ofNat 4 r.port, entry := e.entry, code := code, ctx := .group c op }

/-- Wake a sleeper (R45, R47): the WAKE names the entry, and a context of this package holds the entry until it takes the
wake. -/
def sendWake (s : State) (r : QRef) (e : Sleeper) (code : W8) (seq : BitVec 48) (ticket : W64) : State :=
  let held := e.flow.spkg == s.pkgid
  let s := if held then s.putSleeper r.pkey { e with woken := some (code, if isReserver e.kind && ticket ≠ 0 then ticket else seq.setWidth 64) }
    else s.dropSleeper r.pkey e.entry
  sendBack s e.flow { typ := .wake, port := BitVec.ofNat 4 r.port, entry := e.entry, code := code, seq := seq,
                      ticket := ticket, ctx := e.who }

/-- A sleeper ends its sleep: woken where it sleeps, or, when a save has put it away and it ends with a status, with that status at its
reissue (R47, R458). -/
def wakeSleeper (s : State) (r : QRef) (e : Sleeper) (code : W8) (seq : BitVec 48) (ticket : W64) : State :=
  match e.who with
  | .group c 0 => if e.flow.spkg == s.pkgid && code != 0 then endAway s r e c code else sendWake s r e code seq ticket
  | _ => sendWake s r e code seq ticket

def State.qref (s : State) (r : QRef) : Queue := s.queue r.key
def State.setQref (s : State) (r : QRef) (q : Queue) : State := s.setQueue r.key q

/-! ### Wakes (R45, R451) -/

/-- The driver hears of a queue's wakes through the vector to which it has bound them: of elements that wake consumers, and of every wake
of a reserver and by the queue's end (R45, R92, log 101: DESIGN CHOICE). -/
def wakeVectors (s : State) (r : QRef) : State :=
  let p : W32 := s.pkgid ++ BitVec.ofNat 3 r.die ++ BitVec.ofNat 4 r.port ++ BitVec.ofNat 16 r.q
  s.ifaces.foldl (fun s i => (i.2.wakeVec.filter fun b => b.1 == p).foldl (fun s b => sendMsix s i.1 b.2.toNat) s) s

/-- Wake consumers for newly dequeueable elements: every wake-all sleeper, and one wake-one sleeper for each. -/
def wakeConsumers (s : State) (r : QRef) (newly : Nat) : State :=
  if newly = 0 then s
  else
    let s := wakeVectors s r
    let es := consumersOf (s.port r.pkey) r.q
    let ones := (es.filter fun e => !e.all).take newly
    (es.filter fun e => e.all || ones.contains e).foldl (fun s e => wakeSleeper s r e 0 (s.qref r).head 0) s

/-- Wake every sleeper of a list with a status. -/
def wakeAll (s : State) (r : QRef) (es : List Sleeper) (code : W8) : State :=
  let s := if es.isEmpty then s else wakeVectors s r
  es.foldl (fun s e => wakeSleeper s r e code (if isReserver e.kind then 0 else (s.qref r).head) 0) s

/-- Grant sleeping reservers in FIFO order while the first one's n fits (R37, R45). -/
def wakeReservers (s : State) (r : QRef) : Nat → State
  | 0 => s
  | n + 1 =>
    let q := s.qref r
    match reserversOf (s.port r.pkey) r.q with
    | [] => s
    | e :: _ =>
      match e.kind with
      | .reserve k =>
        if q.free < k then s
        else
          let (t, q') := q.grant k e.who
          wakeReservers (wakeSleeper (wakeVectors (s.setQref r q') r) r e 0 (ticketSeq t) t) r n
      | .push data =>
        if q.free = 0 then s
        else if putAway e then
          let (t, q') := q.grant 1 e.who
          wakeReservers (wakeSleeper (wakeVectors (s.setQref r q') r) r e 0 (ticketSeq t) t) r n
        else
          let (seq, q') := q.append data
          wakeReservers (wakeConsumers (wakeSleeper (wakeVectors (s.setQref r q') r) r e 0 seq 0) r (q'.run - q.run)) r n
      | _ => s

/-! ### Rounds of a merge queue (R51, R52, R448) -/

/-- A round is complete, or CLOSE closes it, and it waits for its closure. -/
def roundDue (q : Queue) : Bool := q.kind != 0 && ((q.fanin != 0 && decide (q.fanin ≤ q.round)) || (q.state == .closing && q.round != 0))

/-- Why the home refuses a contribution (R443, R448, R57). -/
def mergeRefusal (q : Queue) (key : W8) (size : Nat) : Option W8 :=
  if q.kind = 0 ∨ size ≠ kindSize q.kind then some 0x13
  else if q.keys ≤ key.toNat then some 0x15
  else if q.state ≠ .active then some 0x05
  else none

/-- A contribution combines into its key's accumulator (R51, R52). -/
def combineHome (q : Queue) (key : W8) (data : List W8) : Queue :=
  { q with
    acc := tset q.acc key.toNat
      (combine q.kind q.coinKey (q.ctrBase + BitVec.ofNat 64 (q.combines % 2 ^ 48)) (tget q.acc key.toNat (emptyElem q.kind)) data),
    combines := q.combines + 1 }

/-- A contribution that arrives by eviction (R448): a refused one is counted, and waits for a release of its source. -/
def applyMerge (s : State) (r : QRef) (m : Msg) : State :=
  let q := s.qref r
  match mergeRefusal q m.key m.data.length with
  | none => s.setQref r (combineHome q m.key m.data)
  | some c => addVoids (s.setQref r { q with refused := q.refused ++ [(m.flow, c)] }) r 1

/-- The first refusal of the contributions that a release brings, and the queue with the others combined. -/
def applyParts (q : Queue) : List (W8 × List W8) → Option W8 × Queue
  | [] => (none, q)
  | (k, d) :: r =>
    match mergeRefusal q k d.length with
    | none => applyParts (combineHome q k d) r
    | some c => (some c, (applyParts q r).2)

/-- A merge release (R50, R51, R448): on a Closing queue it fails, and its contributions are counted in VOIDS; so does one that was held
behind a waiting closure when CLOSE came (log 126: DESIGN CHOICE). -/
def applyRelease (s : State) (r : QRef) (m : Msg) : State :=
  let q := s.qref r
  let early := (q.refused.find? fun p => p.1 = m.flow).map (·.2)
  let q := { q with refused := q.refused.filter fun p => p.1 ≠ m.flow }
  if q.state ≠ .active then answerCode (addVoids (s.setQref r q) r m.parts.length) m ((early.getD 0x05))
  else
    let (first, q) := applyParts q m.parts
    answerCode (s.setQref r { q with round := q.round + 1 }) m (early.getD (first.getD 0))

/-- The closure of a round (R51): K sequence numbers, filled with the accumulators in key order. -/
def closeRound (s : State) (r : QRef) : State :=
  let q := s.qref r
  let q' := (List.range q.keys).foldl (fun (x : Queue) k => (x.append (tget q.acc k (emptyElem q.kind))).2) q
  wakeConsumers (s.setQref r { q' with acc := [], round := 0 }) r (q'.run - q.run)

/-- What arrived while a closure waited, in order, until a closure waits again (R51). -/
def applyHeld (s : State) (r : QRef) : Nat → State
  | 0 => s
  | n + 1 =>
    let q := s.qref r
    if roundDue q then (if q.free < q.keys then s else applyHeld (closeRound s r) r n)
    else match q.heldRel with
      | [] => s
      | m :: ms =>
        let s := s.setQref r { q with heldRel := ms }
        applyHeld (if m.typ = .merge then applyMerge s r m else applyRelease s r m) r n

/-- A due closure and what waits behind it, as far as space allows. -/
def settleRounds (s : State) (r : QRef) : State := applyHeld s r (2 * (s.qref r).heldRel.length + 2)

/-- What follows an advance of H (R41, R45, R51). -/
def afterAdvance (s : State) (r : QRef) : State :=
  let s := settleRounds (wakeReservers s r (s.port r.pkey).sleepers.length) r
  let q := s.qref r
  if q.state = .closing ∧ q.len = 0 then wakeAll s r (consumersOf (s.port r.pkey) r.q) 0x05 else s

/-! ### Operations at the home (R36 to R47, R443 to R452) -/

/-- A compute die is online (R21). -/
def dieOnline (s : State) (d : Nat) : Bool := s.mgmt.online.getLsbD d

/-- The fault of an operation whatever the queue holds (R56, R57). -/
def homeFault (s : State) (r : QRef) : Option W8 :=
  if Config.queuesPerPort ≤ r.q then some 0x17
  else if !dieOnline s r.die || (s.qref r).state == .lost then some 0x19
  else if (s.qref r).state = .free then some 0x17
  else none

/-- The sleeper entry that a context kept through a save, which its reissue claims (R458). -/
def claimable (s : State) (r : QRef) (m : Msg) (reserver : Bool) : Option Sleeper :=
  match m.ctx with
  | .group c _ => (s.port r.pkey).sleepers.find? fun e =>
      e.queue == r.q && e.who == .group c 0 && isReserver e.kind == reserver
  | _ => none

/-- What an operation answers: a status or fault code, a sequence number, and a ticket or a count. -/
structure Ans where
  code : W8
  seq : BitVec 48 := 0
  ticket : W64 := 0
  deriving DecidableEq, Repr

/-- The requester sleeps on an entry, or parks when none is free, and SLPOVF counts at every try that finds none (R44, R46, R73,
log 107: DEDUCED). -/
def sleepAt (s : State) (r : QRef) (who : Requester) (f : Flow) (kind : SleepKind) (all : Bool) : Ans × State :=
  let x := s.port r.pkey
  match freeEntry x with
  | none => (⟨codeNoEntry, 0, 0⟩, s.setPort r.pkey { x with slpovf := sat16 x.slpovf 1 })
  | some n =>
    (⟨codeAsleep, BitVec.ofNat 48 (r.port * 4096 + n), 0⟩,
     s.setPort r.pkey { x with sleepers := x.sleepers ++ [⟨n, r.q, who, f, kind, all, none⟩] })

def answerWith (m : Msg) (x : Ans × State) : State := answer x.2 m x.1.code x.1.seq x.1.ticket []

/-- A group's operation sleeps. -/
def sleepOn (s : State) (r : QRef) (m : Msg) (kind : SleepKind) (all : Bool) : State :=
  answerWith m (sleepAt s r m.ctx m.flow kind all)

/-- A kept entry goes on waiting for the reissued operation. -/
def resleep (s : State) (r : QRef) (m : Msg) (e : Sleeper) (kind : SleepKind) : State :=
  answer (s.putSleeper r.pkey { e with who := m.ctx, flow := m.flow, kind := kind }) m codeAsleep
    (BitVec.ofNat 48 (r.port * 4096 + e.entry)) 0 []

/-- A reservation (R37, R444). -/
def reserveAt (s : State) (r : QRef) (n : Nat) (try_ : Bool) (who : Requester) (f : Flow) : Ans × State :=
  let q := s.qref r
  if q.kind ≠ 0 then (⟨0x13, 0, 0⟩, s)
  else if q.state = .closing then (⟨0x05, 0, 0⟩, s)
  else if n = 0 then (⟨0, q.tail, ticketOf 0 0 q.tail⟩, s)
  else if 64 < n ∨ q.cap < n then (⟨0x14, 0, 0⟩, s)
  else if q.free < n ∨ (reserversOf (s.port r.pkey) r.q) ≠ [] then
    if try_ then (⟨0x03, 0, 0⟩, s) else sleepAt s r who f (.reserve n) false
  else
    let (t, q) := q.grant n who
    (⟨0, ticketSeq t, t⟩, s.setQref r q)

def homeReserve (s : State) (r : QRef) (m : Msg) : State := answerWith m (reserveAt s r m.n m.try_ m.ctx m.flow)

/-- A reissued reservation claims what the home holds for its context (R458). -/
def claimReserve (s : State) (r : QRef) (m : Msg) (e : Sleeper) : State :=
  match e.woken with
  | none => resleep s r m e e.kind
  | some (c, t) =>
    let s := s.dropSleeper r.pkey e.entry
    if c ≠ 0 then answerCode s m c
    else
      let q := s.qref r
      let own (q : Queue) (i : Nat) : Queue := match q.slot (ticketSeq t + BitVec.ofNat 48 i) with
        | .granted _ => q.put (ticketSeq t + BitVec.ofNat 48 i) (.granted m.ctx)
        | _ => q
      answer (s.setQref r ((List.range (ticketN t)).foldl own q)) m 0 (ticketSeq t) t []

/-- A push (R446), without its wakes. -/
def pushAt (s : State) (r : QRef) (data : List W8) (try_ : Bool) (who : Requester) (f : Flow) : Ans × State :=
  let q := s.qref r
  if q.kind ≠ 0 ∨ q.esizeB ≠ data.length then (⟨0x13, 0, 0⟩, s)
  else if q.state = .closing then (⟨0x05, 0, 0⟩, s)
  else if q.free = 0 ∨ (reserversOf (s.port r.pkey) r.q) ≠ [] then
    if try_ then (⟨0x03, 0, 0⟩, s) else sleepAt s r who f (.push data) false
  else
    let (seq, q') := q.append data
    (⟨0, seq, 0⟩, s.setQref r q')

/-- The wakes for elements that have become dequeueable since the queue stood at `q` (R45). -/
def wakeSince (s : State) (r : QRef) (q : Queue) : State := wakeConsumers s r ((s.qref r).run - q.run)

def homePush (s : State) (r : QRef) (m : Msg) : State :=
  wakeSince (answerWith m (pushAt s r m.data m.try_ m.ctx m.flow)) r (s.qref r)

/-- A reissued push fills the slot that the home granted to its saved context, or waits on with its new image (R458). -/
def claimPush (s : State) (r : QRef) (m : Msg) (e : Sleeper) : State :=
  match e.woken with
  | none => resleep s r m e (.push m.data)
  | some (c, t) =>
    let s := s.dropSleeper r.pkey e.entry
    if c ≠ 0 then answerCode s m c
    else
      let q := s.qref r
      match q.slot (ticketSeq t) with
      | .granted _ =>
        let q' := q.put (ticketSeq t) (.filled m.data)
        wakeConsumers (answer (s.setQref r q') m 0 (ticketSeq t) 0 []) r (q'.run - q.run)
      | _ => answer s m 0 (ticketSeq t) 0 []

/-- A write of element data (R39, R445). A distance of 2^47 or more from H is below H (log 106: DESIGN CHOICE). -/
def homeWrite (s : State) (r : QRef) (m : Msg) : State :=
  let q := s.qref r
  let d := (m.seq - q.head).toNat
  if q.kind ≠ 0 ∨ q.esizeB ≠ m.data.length then answerCode s m 0x13
  else if d < q.len then
    match q.slot m.seq with
    | .granted _ =>
      let q' := q.put m.seq (.filled m.data)
      wakeConsumers (answer (s.setQref r q') m 0 m.seq 0 []) r (q'.run - q.run)
    | .filled x => if x = m.data then answer s m 0 m.seq 0 [] else answerCode s m 0x16
    | .void => answer (addVoids s r 1) m 0x04 m.seq 0 []
  else if 2 ^ 47 ≤ d then
    let x := s.port r.pkey
    answer (s.setPort r.pkey { x with stale := sat16 x.stale 1 }) m 0 m.seq 0 []
  else answerCode s m 0x15

/-- The status of a dequeue or a peek, with the element (R42, R449). -/
def headStatus (q : Queue) : W8 × List W8 :=
  if q.len = 0 then (if q.state = .closing then 0x05 else 0x01, [])
  else match q.slot q.head with
    | .granted _ => (0x02, [])
    | .filled x => (0, x)
    | .void => (0x04, List.replicate q.esizeB 0)

/-- A dequeue (R42, R449). -/
def homeDequeue (s : State) (r : QRef) (m : Msg) : State :=
  let q := s.qref r
  if m.esz ≠ some q.esize then answerCode s m 0x13
  else
    let (c, x) := headStatus q
    if c = 0 ∨ c = 0x04 then afterAdvance (answer (s.setQref r q.advance) m c q.head 0 x) r
    else if c ≠ 0x05 ∧ m.mode = 0 then sleepOn s r m .dequeue q.wakeAll
    else answer s m c q.head 0 []

/-- A reissued dequeue or `qsleep` takes the wake that came during the save, and retries, or goes on sleeping (R45, R47). -/
def claimConsume (s : State) (r : QRef) (m : Msg) (e : Sleeper) (retry : State → State) : State :=
  match e.woken with
  | none => resleep s r m e e.kind
  | some (c, h) =>
    let s := s.dropSleeper r.pkey e.entry
    if c = 0 then retry s else answer s m c (h.setWidth 48) 0 []

/-- A peek (R449). -/
def homePeek (s : State) (r : QRef) (m : Msg) : State :=
  let q := s.qref r
  if m.esz ≠ some q.esize then answerCode s m 0x13
  else answer s m (headStatus q).1 q.head 0 (headStatus q).2

/-- A count (R450). -/
def homeCount (s : State) (r : QRef) (m : Msg) : State :=
  let q := s.qref r
  answer s m 0 0 (BitVec.ofNat 32 q.run ++ BitVec.ofNat 32 q.len) []

/-- `qsleep` at the home (R451). -/
def homeSleep (s : State) (r : QRef) (m : Msg) : State :=
  let q := s.qref r
  let c := (headStatus q).1
  if c = 0 ∨ c = 0x04 then answerCode s m 0
  else if c = 0x05 then answerCode s m 0x05
  else sleepOn s r m .sleep (m.mode == 1 || q.wakeAll)

/-- `qwake` at the home (R452): it answers the number woken. -/
def homeWake (s : State) (r : QRef) (m : Msg) : State :=
  let es := consumersOf (s.port r.pkey) r.q
  let es := if m.mode = 3 then es else es.take 1
  answer (es.foldl (fun s e => wakeSleeper s r e 0 (s.qref r).head 0) s) m 0 0 (BitVec.ofNat 64 es.length) []

/-- Void the Granted numbers among those of a list, and wake (R40, R56). -/
def voidSlots (s : State) (r : QRef) (seqs : List (BitVec 48)) : State :=
  let q := s.qref r
  let hit := seqs.filter fun x => decide ((x - q.head).toNat < q.len) && !(q.slot x).ready
  let q' := hit.foldl (fun (q : Queue) x => q.put x .void) q
  wakeConsumers (addVoids (s.setQref r q') r hit.length) r (q'.run - q.run)

/-- A release of a grant (R40, R447). -/
def homeRelease (s : State) (r : QRef) (m : Msg) : State :=
  if (s.qref r).kind ≠ 0 then answerCode s m 0x13
  else
    let s := voidSlots s r ((List.range (ticketN m.ticket)).map fun i => ticketSeq m.ticket + BitVec.ofNat 48 i)
    answerCode s m 0

/-- A merge release (R50, R51): it joins what waits for a closure, or applies at once. -/
def homeMergeRelease (s : State) (r : QRef) (m : Msg) : State :=
  let q := s.qref r
  if q.kind = 0 then answerCode s m 0x13
  else if q.state = .active ∧ roundDue q then s.setQref r { q with heldRel := q.heldRel ++ [m] }
  else settleRounds (applyRelease s r m) r

/-- A withdrawal of a sleeping push (R53): the model answers FULL for one still asleep, OK with its number for one already
granted, and else the status with which it ended, whatever has become of the queue since; an entry of another package that is
gone has ended by the WAKE that went ahead of this answer (log 15: DEDUCED). -/
def homeWithdraw (s : State) (r : QRef) (m : Msg) : State :=
  match (s.port r.pkey).sleepers.find? fun e => e.entry == m.entry && e.flow == m.flow && e.queue == r.q && isReserver e.kind with
  | none => answerCode s m (if dieOnline s r.die then 0 else 0x19)
  | some e =>
    let s := s.dropSleeper r.pkey e.entry
    match e.woken with
    | none => answerCode s m 0x03
    | some (c, x) => answer s m c (x.setWidth 48) 0 []

/-! ### The events by which messages perform (R36, R70) -/

/-- The oldest delivered message of a flow into this package, and the state without it. -/
def nextArrival (s : State) (f : Flow) : Option (Msg × State) :=
  if f.dpkg ≠ s.pkgid then none
  else match (s.flow f).arrived with
    | [] => none
    | m :: r => some (m, s.setFlow f { s.flow f with arrived := r })

/-- An event performs the oldest message of its flow, if that message is its own (log 1: DESIGN CHOICE). -/
def onArrival (s : State) (isMine : Msg → Bool) (act : State → Msg → State) : Out :=
  match nextArrival s s.arg.flow with
  | none => .next s
  | some (m, s') => if isMine m then .next (act s' m) else .next s

/-- A request performs at its queue, or its fault is answered (R57). -/
def atQueue (act : State → QRef → Msg → State) (s : State) (m : Msg) : State :=
  match homeFault s (reqRef m) with
  | some c => answerCode s m c
  | none => act s (reqRef m) m

/-- QUEUE_RESERVE (R37, R44). -/
def execQueueReserve (s : State) : Out :=
  onArrival s (fun m => m.typ == .reserve) <| atQueue fun s r m =>
    match claimable s r m true with
    | some e => claimReserve s r m e
    | none => homeReserve s r m

/-- QUEUE_PUSH (R446). -/
def execQueuePush (s : State) : Out :=
  onArrival s (fun m => m.typ == .push) <| atQueue fun s r m =>
    match claimable s r m true with
    | some e => claimPush s r m e
    | none => homePush s r m

/-- QUEUE_WRITE (R39). -/
def execQueueWrite (s : State) : Out := onArrival s (fun m => m.typ == .write) <| atQueue homeWrite

/-- QUEUE_DEQUEUE (R42). -/
def execQueueDequeue (s : State) : Out :=
  onArrival s (fun m => m.typ == .dequeue && decide (m.mode < 2)) <| atQueue fun s r m =>
    match claimable s r m false with
    | some e => claimConsume s r m e fun s => homeDequeue s r m
    | none => homeDequeue s r m

/-- QUEUE_PEEK (R449). -/
def execQueuePeek (s : State) : Out := onArrival s (fun m => m.typ == .dequeue && m.mode == 2) <| atQueue homePeek

/-- QUEUE_COUNT (R450). -/
def execQueueCount (s : State) : Out := onArrival s (fun m => m.typ == .dequeue && m.mode == 3) <| atQueue homeCount

/-- QUEUE_SLEEP (R451). -/
def execQueueSleep (s : State) : Out :=
  onArrival s (fun m => m.typ == .sleep && !m.withdraw && decide (m.mode < 2)) <| atQueue fun s r m =>
    match claimable s r m false with
    | some e => claimConsume s r m e fun s => answerCode s m 0
    | none => homeSleep s r m

/-- QUEUE_WAKE (R452). -/
def execQueueWake (s : State) : Out :=
  onArrival s (fun m => m.typ == .sleep && !m.withdraw && decide (2 ≤ m.mode)) <| atQueue homeWake

/-- SLEEPER_WITHDRAW (R53). -/
def execSleeperWithdraw (s : State) : Out := onArrival s (fun m => m.typ == .sleep && m.withdraw) fun s m => homeWithdraw s (reqRef m) m

/-- The flush of a release, which names the message before it, has been gathered: inside the package its marker came before it (R62, R71, R72). -/
def flushDone (s : State) (m : Msg) : Bool :=
  m.flow.spkg == s.pkgid || (s.flow m.flow).gathered.any fun g => g.fseq == m.fseq - 1 && g.done

/-- QUEUE_RELEASE (R40, R447). -/
def execQueueRelease (s : State) : Out :=
  onArrival s (fun m => m.typ == .release && !m.mrg && flushDone s m) <| atQueue homeRelease

/-- MERGE_RELEASE (R50, R51, R448). -/
def execMergeRelease (s : State) : Out :=
  onArrival s (fun m => m.typ == .release && m.mrg && flushDone s m) <| atQueue homeMergeRelease

/-- MARVER_EVICTION_ARRIVAL (R50, R51): a contribution to a queue that is Free or Lost is discarded and counted in VOIDS
(R58, log 127: DESIGN CHOICE), and one that comes while a closure waits for space is held for the next round (log 108: DEDUCED). -/
def execMarverEvictionArrival (s : State) : Out :=
  onArrival s (fun m => m.typ == .merge) fun s m =>
    let r := reqRef m
    match homeFault s r with
    | some _ => if r.q < Config.queuesPerPort then addVoids s r 1 else s
    | none =>
      let q := s.qref r
      if q.state = .active ∧ roundDue q then s.setQref r { q with heldRel := q.heldRel ++ [m] } else applyMerge s r m

def argRef (s : State) (q : Nat) : QRef := ⟨s.arg.die.toNat, s.arg.port.toNat, q⟩

/-- ROUND_CLOSE (R51): a closure that has waited for space. -/
def execRoundClose (s : State) : Out :=
  let r := argRef s s.arg.idx
  let q := s.qref r
  if roundDue q && decide (q.keys ≤ q.free) then .next (settleRounds s r) else .next s

/-! ### The lifecycle (R54 to R56) -/

/-- The window units of a queue in its port's pool (R33). -/
def winUnits (q : Queue) : Nat := (q.win * q.esizeB + 255) / 256

/-- Another queue of the port holds one of the window units. -/
def windowClash (s : State) (r : QRef) (q : Queue) : Bool :=
  s.queues.any fun e => e.1 / 65536 == r.pkey && e.1 != r.key && e.2.state != .free &&
    decide (q.winOff < e.2.winOff + winUnits e.2 ∧ e.2.winOff < q.winOff + winUnits q)

/-- The descriptor that CREATE refuses (R34, R49, R55); a merge queue with FANIN 0 is one (log 110: DEDUCED). -/
def descBad (s : State) (r : QRef) (q : Queue) : Bool :=
  q.rsv != 0 || decide (5 ≤ q.esize.toNat) || decide (5 ≤ q.kind.toNat) || q.sys != decide (r.q < 32) || decide (2 ^ 24 < q.spillN) ||
    q.spillBase.toNat % 256 != 0 || windowClash s r q ||
    (q.kind != 0 && (q.esizeB != kindSize q.kind || decide (q.cap < q.keys) || q.fanin == 0))

def State.qpDone (s : State) (r : QRef) (x : QpResult) : State :=
  let p := s.port r.pkey
  s.setPort r.pkey { p with result := x }

/-- A Free queue keeps its descriptor's RW fields alone: HEAD, TAIL and ROUND read zero from here on (R55, log 109: DEDUCED). -/
def freed (q : Queue) : Queue :=
  { q with state := .free, head := 0, tail := 0, round := 0, slots := [], acc := [], combines := 0, heldRel := [], refused := [] }

/-- CREATE (R55). A window that runs past the port's units exhausts the pool, and a number of 4,096 or more is a descriptor error
(log 111: DEDUCED). -/
def createQueue (s : State) (r : QRef) : State :=
  let q := s.qref r
  if Config.queuesPerPort ≤ r.q then s.qpDone r .descError
  else if q.state ≠ .free ∨ !dieOnline s r.die then s.qpDone r .wrongState
  else if descBad s r q then s.qpDone r .descError
  else if Config.poolUnits < q.winOff + winUnits q then s.qpDone r .poolExhausted
  else (s.setQref r { freed q with state := .active }).qpDone r .done

/-- CLOSE (R45, R55): a merge queue first closes its open round. -/
def closeQueue (s : State) (r : QRef) : State :=
  let q := s.qref r
  if q.state ≠ .active then s.qpDone r .wrongState
  else
    let s := settleRounds (s.setQref r { q with state := .closing }) r
    let s := wakeAll s r (reserversOf (s.port r.pkey) r.q) 0x05
    let s := if (s.qref r).len = 0 ∧ !roundDue (s.qref r) then wakeAll s r (consumersOf (s.port r.pkey) r.q) 0x05 else s
    s.qpDone r .done

/-- DESTROY (R55). -/
def destroyQueue (s : State) (r : QRef) : State :=
  let q := s.qref r
  if q.state ≠ .closing ∨ q.len ≠ 0 then s.qpDone r .wrongState
  else
    let x := s.port r.pkey
    ((s.setPort r.pkey { x with sleepers := x.sleepers.filter fun e => e.queue != r.q || (e.woken.isSome && !putAway e) }).setQref r
      (freed q)).qpDone r .done

/-- A sleeper of a queue whose sleep the queue's end ends: one asleep, or one whose wake a saved context has yet to claim. -/
def endsWith (q : Nat) (e : Sleeper) : Bool := asleepOn q e || (e.queue == q && putAway e)

/-- FORCE (R45, R55): sleepers, and releases that a closure held, end with CLOSED. -/
def forceQueue (s : State) (r : QRef) : State :=
  let q := s.qref r
  if q.state ≠ .active ∧ q.state ≠ .closing then s.qpDone r .wrongState
  else
    let x := s.port r.pkey
    let s := wakeAll (addVoids s r q.len) r (x.sleepers.filter (endsWith r.q)) 0x05
    let s := q.heldRel.foldl (fun s m => if m.typ = .merge then s else answerCode s m 0x05) s
    (s.setQref r (freed q)).qpDone r .done

/-- A busy port performs its command (R54). -/
def onCommand (s : State) (op : W4) (act : State → QRef → State) : Out :=
  let p := s.port (portKey s.arg.die.toNat s.arg.port.toNat)
  if p.result = .busy ∧ p.op = op then .next (act s (argRef s p.queue.toNat)) else .next s

/-- QUEUE_CREATE (R55). -/
def execQueueCreate (s : State) : Out := onCommand s 1 createQueue

/-- QUEUE_CLOSE (R55). -/
def execQueueClose (s : State) : Out := onCommand s 2 closeQueue

/-- QUEUE_DESTROY (R55). -/
def execQueueDestroy (s : State) : Out := onCommand s 3 destroyQueue

/-- QUEUE_FORCE (R55). -/
def execQueueForce (s : State) : Out := onCommand s 4 forceQueue

/-- The queues of a die, by reference. -/
def queuesOf (s : State) (d : Nat) : List QRef :=
  (s.queues.map (·.1)).filterMap fun k =>
    if k / 65536 / 16 = d then some ⟨d, k / 65536 % 16, k % 65536⟩ else none

/-- The queues of a die enter Lost: their sleepers wake with HOMELOST, and releases that a closure held are answered with it
(R45, R56, R73). -/
def loseQueues (s : State) (d : Nat) : State :=
  (queuesOf s d).foldl (fun s r =>
    let x := s.port r.pkey
    let s := wakeAll s r (x.sleepers.filter (endsWith r.q)) 0x19
    let s := (s.qref r).heldRel.foldl (fun s m => if m.typ = .merge then s else answerCode s m 0x19) s
    s.setQref r { s.qref r with state := .lost, heldRel := [] }) s

/-- Void every Granted slot of a context's grants, at their homes in this package (R56, R458). -/
def voidOwned (s : State) (ctx : Nat) : State :=
  (List.range 8).foldl (fun s d => (queuesOf s d).foldl (fun s r =>
    voidSlots s r ((s.qref r).slots.filterMap fun e => match e.2 with
      | .granted (.group c _) => if c = ctx then some (BitVec.ofNat 48 e.1) else none
      | _ => none)) s) s

/-- A killed context loses its sleeper entries without a wake (R47). -/
def dropSleepers (s : State) (ctx : Nat) : State :=
  { s with ports := s.ports.map fun p => (p.1, { p.2 with sleepers := p.2.sleepers.filter fun e => match e.who with
      | .group c _ => c != ctx
      | _ => true }) }

/-! ### What a context holds at homes in other packages (R47, R56, R158, R458; log 40: DEDUCED) -/

/-- A group is resident, or saved, on a die. -/
def contextLives (s : State) (d ctx : Nat) : Bool :=
  (s.slots.any fun e => slotDie e.1 == d && e.2.ctx == ctx && e.2.bind.sstate != .empty && e.2.bind.sstate != .done) ||
    (s.die d).saved.any fun v => v.ctxs.contains ctx

def grantOf (f : Flow) (ctx : Nat) (q : QOp) (ticket : W64) (dev : Bool) : HeldGrant :=
  ⟨ctx, f, pqPort q.pqid, pqQueue q.pqid, q.tenant, ticket, dev⟩

/-- A RELEASE that voids a grant at its home, behind the flush that every release takes (R72); no one waits for its answer. -/
def voidRemote (s : State) (g : HeldGrant) : State :=
  let (num, s) := sendFlush s g.flow g.tenant g.dev
  sendMsg s g.flow { typ := .release, port := g.port, queue := g.queue, tenant := g.tenant, ticket := g.ticket, seq := ticketSeq g.ticket,
                     num := num, dev := g.dev }

/-- A grant that a home has made to a group of a die: one that comes too late for its context is given back. -/
def noteGrant (s : State) (d : Nat) (g : HeldGrant) : State :=
  if ticketN g.ticket = 0 then s
  else if contextLives s d g.ctx then { s with grants := s.grants ++ [g] }
  else voidRemote s g

/-- A sleeper entry that nobody waits on any more; a reserver's is withdrawn (R53, R64). -/
def leaveEntry (s : State) (f : Flow) (port : W4) (queue : W16) (tenant : W6) (entry : Nat) (reserver dev : Bool) : State :=
  let s := { s with orphans := s.orphans ++ [⟨f, port, entry, queue, tenant, dev⟩] }
  if reserver then
    sendMsg s f { typ := .sleep, withdraw := true, port := port, queue := queue, tenant := tenant, entry := entry, dev := dev }
  else s

/-- An operation of a killed context that sleeps at its home, or whose wake came while the context could not take it. -/
def leaveOp (s : State) (ctx : Nat) (dev : Bool) (q : QOp) : State :=
  match q.st with
  | .asleep f port entry =>
    if inPackage s f then s
    else match q.woken with
      | some (_, _, t) => if q.kind = .res ∧ ticketN t ≠ 0 then voidRemote s (grantOf f ctx q t dev) else s
      | none => leaveEntry s f port (pqQueue q.pqid) q.tenant entry (reserves q.kind) dev
  | _ => s

/-- A killed context of an ASID with its operations: its sleeper entries end, and its grants are voided at their homes. -/
def releaseContext (s : State) (ctx : Nat) (asid : BitVec 12) (ops : List QOp) : State :=
  let dev := s.reserved asid
  let s := voidOwned (dropSleepers s ctx) ctx
  let s := (s.grants.filter fun g => g.ctx == ctx).foldl voidRemote { s with grants := s.grants.filter fun g => g.ctx != ctx }
  ops.foldl (fun s q => leaveOp s ctx dev q) s

/-- The queue operations of a group that are outstanding, or that a restored group has yet to issue again. -/
def groupOps (g : Slot) : List QOp :=
  (g.outst.filterMap fun o => match o.op with
    | .queue q => if o.res.isNone then some q else none
    | _ => none) ++ g.slept

end Sys2Proof.Machine
end

