-- ==== Sys2Proof/Machine/Scatter.lean ====
section
/-! DEFINITION. The dispatch engine and its cursor (R53, R454 to R457). -/
namespace Sys2Proof.Machine

/-! ### The cursor (R53) -/

def curToken (g : Slot) : Nat := bitsOf (tget g.cursor 0 0).toNat 31 0
def curRoute (g : Slot) : Nat := bitsOf (tget g.cursor 0 0).toNat 42 40
def curStat (g : Slot) : W8 := (tget g.cursor 0 0).extractLsb' 32 8

def setCur (g : Slot) (token route : Nat) (stat : W8) : Slot :=
  { g with cursor := tset g.cursor 0 (0#21 ++ BitVec.ofNat 3 route ++ stat ++ BitVec.ofNat 32 token) }

/-- The cursor stands at the route after the one at which it stood; after the last route of a token, at the next token (R53). -/
def nextRoute (g : Slot) (topk : Nat) (stat : W8) : Slot :=
  if curRoute g + 1 < topk then setCur g (curToken g) (curRoute g + 1) stat else setCur g (curToken g + 1) 0 stat

/-- SENT of a target grows by one. -/
def addSent (g : Slot) (j : Nat) : Slot :=
  let w := tget g.cursor (1 + j / 2) 0
  let lo := w.extractLsb' 0 32
  let hi := w.extractLsb' 32 32
  { g with cursor := tset g.cursor (1 + j / 2) (if j % 2 = 0 then hi ++ (lo + 1) else (hi + 1) ++ lo) }

def State.setDisp (s : State) (d : Nat) (x : Dispatch) : State :=
  let y := s.die d
  s.setDie d { y with dispatches := y.dispatches.map fun z => if z.id = x.id then x else z }

def State.disp (s : State) (d id : Nat) : Option Dispatch := (s.die d).dispatches.find? fun x => x.id == id

/-! ### The engine's reads (R454, R456) -/

/-- A read of die memory at the memory point: its bytes, a fault, or an offset that waits for the firmware. -/
inductive RowRead
  | ok (bs : List W8)
  | fault
  | wait (obj off : Nat)
  deriving DecidableEq, Repr

/-- `n` bytes at an offset from an address. -/
def readRow (s : State) (d asid : Nat) (base : W64) (delta n : Nat) : RowRead :=
  let obj := addrObj base
  let off := addrOff base + delta
  let rs := (List.range n).map fun i => (off + i, walkLane s d asid obj (off + i) 1 .r)
  if rs.any fun p => match p.2 with
    | .fault _ => true
    | .ok a => s.poison.contains (a / 64)
    | .park => false then .fault
  else match rs.find? fun p => p.2 == .park with
    | some p => .wait obj p.1
    | none => .ok (rs.map fun p => match p.2 with
        | .ok a => memRead s.mem a
        | _ => 0)

/-! ### Routes (R53, R455) -/

/-- The block of a dispatch is being pre-empted (R53, R165). -/
def dispDraining (s : State) (x : Dispatch) : Bool :=
  (blockSlots s x.lead).any fun k => (s.slot k).bind.sstate == .draining || (s.slot k).bind.sstate == .saving

/-- The dispatch fails at its route (R456). -/
def dispFail (s : State) (d : Nat) (x : Dispatch) (code : Option W8) : State :=
  let g := s.slot x.slot
  let s := s.setSlot x.slot (setCur g (curToken g) (curRoute g) (code.getD (curStat g)))
  s.setDisp d { x with pushing := none, asleep := none, parked := false, finished := some true }

/-- A row leaves as a blocking push (R446, R455). -/
def sendRow (s : State) (d : Nat) (x : Dispatch) (j : Nat) (row : List W8) : State :=
  let p := x.targets.getD j 0
  if unreachable s d p then dispFail s d x (some 0x19)
  else sendMsg (s.setDisp d { x with pushing := some j, parked := false }) (flowTo s d p)
    { typ := .push, port := pqPort p, queue := pqQueue p, tenant := x.tenant, data := row, esz := some x.esz,
      ctx := .dispatch d x.id, dev := s.reserved x.asid,
      via := (x.handles[j]?).map fun h => (x.asid, (h.extractLsb' 0 16).toNat) }

/-- A read waits for the firmware (R214, R217). -/
def dispWait (s : State) (d : Nat) (x : Dispatch) (obj off : Nat) : State :=
  let (id, s) := s.fresh
  let s := s.setDisp d { x with parked := true }
  let y := s.die d
  s.setDie d { y with faults := y.faults ++ [{ id := id, disp := some x.id, asid := x.asid, obj := obj, off := off }] }

/-- Go on from the cursor until a row is sent or the dispatch stops or ends; the number bounds the routes passed over. -/
def dispGo (s : State) (d : Nat) (x : Dispatch) : Nat → State
  | 0 => s
  | n + 1 =>
    let g := s.slot x.slot
    let t := curToken g
    let r := curRoute g
    if x.ntok ≤ t then s.setDisp d { x with finished := some false, parked := false }
    else if x.topk ≤ r then dispGo (s.setSlot x.slot (setCur g (t + 1) 0 (curStat g))) d x n
    else if r = 0 ∧ dispDraining s x then s.setDisp d { x with stopped := true, parked := false }
    else match readRow s d x.asid.toNat x.route (t * x.topk + r) 1 with
      | .fault => dispFail s d x none
      | .wait obj off => dispWait s d x obj off
      | .ok bs =>
        let j := (bs.headD 0).toNat
        if j = 0xFF then dispGo (s.setSlot x.slot (nextRoute g x.topk (curStat g))) d x n
        else if x.targets.length ≤ j then dispFail s d x (some 0x15)
        else match readRow s d x.asid.toNat x.rows (t * x.rowstr) (16 * 2 ^ x.esz.toNat) with
          | .fault => dispFail s d x none
          | .wait obj off => dispWait s d x obj off
          | .ok row => sendRow s d x j row

/-- A dispatch that may go on does so (R455). -/
def dispRun (s : State) (d id : Nat) : State :=
  match s.disp d id with
  | none => s
  | some x =>
    if x.pushing.isSome || x.withdrawn || x.stopped || x.finished.isSome || !publishDone (s.slot x.slot) x.gate then s
    else
      let g := s.slot x.slot
      dispGo s d { x with parked := false } ((x.ntok - curToken g) * (x.topk + 1) + 2)

/-- The row on its way has performed: the cursor moves past it (R53, R455). -/
def rowDone (s : State) (d : Nat) (x : Dispatch) : State :=
  let g := s.slot x.slot
  (s.setSlot x.slot (addSent (nextRoute g x.topk 0) (x.pushing.getD 0))).setDisp d
    { x with pushing := none, asleep := none }

/-- Withdraw a push that sleeps (R53). -/
def withdrawRow (s : State) (d : Nat) (x : Dispatch) : State :=
  match x.asleep with
  | none => s
  | some (f, port, entry) =>
    if x.withdrawn then s
    else sendMsg (s.setDisp d { x with withdrawn := true }) f
      { typ := .sleep, withdraw := true, port := port, queue := pqQueue (x.targets.getD (x.pushing.getD 0) 0), tenant := x.tenant,
        entry := entry, ctx := .dispatch d x.id, dev := s.reserved x.asid }

/-- A dispatch is abandoned while its row sleeps at a home in another package (R158, R192). -/
def leaveRow (s : State) (x : Dispatch) : State :=
  match x.asleep with
  | none => s
  | some (f, port, entry) =>
    if inPackage s f then s else leaveEntry s f port (pqQueue (x.targets.getD (x.pushing.getD 0) 0)) x.tenant entry (!x.withdrawn) (s.reserved x.asid)

/-- The home's answer to a withdrawal (R53). -/
def withdrawAnswer (s : State) (d : Nat) (x : Dispatch) (code : W8) : State :=
  let y : Dispatch := { x with withdrawn := false }
  if x.asleep.isNone then s.setDisp d { y with stopped := x.finished.isNone }
  else if code = 0x03 then s.setDisp d { y with pushing := none, asleep := none, stopped := true }
  else if code = 0 then rowDone s d { y with stopped := true }
  else dispFail s d y (some code)

/-- The REPLY to a row (R53, R446, R455). -/
def dispReply (s : State) (d : Nat) (x : Dispatch) (m : Msg) : State :=
  if x.withdrawn then withdrawAnswer s d x m.code
  else if m.code = 0 then dispRun (rowDone s d x) d x.id
  else if m.code = codeAsleep then
    let x : Dispatch := { x with asleep := some (revFlow m.flow, BitVec.ofNat 4 (m.seq.toNat / 4096), m.seq.toNat % 4096) }
    let s := s.setDisp d x
    if dispDraining s x then withdrawRow s d x else s
  else if m.code = codeNoEntry then
    s.setDisp d { x with pushing := none, parked := true, stopped := dispDraining s x }
  else dispFail s d x (some m.code)

/-- The WAKE of a row that slept (R53, R455): its place in the home's sleeper entries is free again. One that overtakes the
answer to a withdrawal says how the push has ended, and the dispatch waits for the answer. -/
def dispWake (s : State) (d : Nat) (x : Dispatch) (m : Msg) : State :=
  if m.code ≠ 0 then dispFail s d x (some m.code)
  else if x.withdrawn then rowDone s d x
  else dispRun (rowDone s d x) d x.id

/-- DISPATCH_COMPLETE (R190, R191, R455): the counter advances, with EV after a failure. -/
def execDispatchComplete (s : State) : Out :=
  let d := s.arg.die.toNat
  match s.disp d s.arg.idx with
  | none => .next s
  | some x =>
    match x.finished with
    | none => .next (dispRun s d x.id)
    | some failed =>
      if x.withdrawn then .next s
      else
        let y := s.die d
        let s := s.setDie d { y with dispatches := y.dispatches.filter fun z => z.id != x.id }
        .next (s.setBlock x.lead (tlComplete (s.block x.lead) x.tl.toNat x.num.toNat failed))

end Sys2Proof.Machine
end

