-- ==== Sys2Proof/Machine/QueueForms.lean ====
section
/-! DEFINITION. The queue instructions at their source (R28, R439 to R459). -/
namespace Sys2Proof.Machine

/-! ### Handles (R28) -/

/-- Bits of RIGHTS (R28). -/
def rEnq : Nat := 0
def rDeq : Nat := 1
def rPeek : Nat := 2
def rSleep : Nat := 3
def rMerge : Nat := 4
def rScat : Nat := 5

def State.qtte (s : State) (asid idx : Nat) : Qtte := tget s.qtt (asid * 65536 + idx) {}

/-- Translation of a handle: its PQID, or the fault (R28, R57). -/
def translate (s : State) (asid : Nat) (h : W32) (right : Nat) : Except W8 W32 :=
  let e := s.qtte asid (h.extractLsb' 0 16).toNat
  if !e.valid then .error 0x10
  else if e.gen ≠ h.extractLsb' 16 16 then .error 0x11
  else if !e.rights.getLsbD right then .error 0x12
  else .ok e.pqid

/-- QUEUE found at the source (R57, R279, R282): the handle has not been translated, or names the PQID. -/
def queuePrecise (g : Slot) (lanes : W32) (code : W8) (handle pqid : W32) : Trap :=
  { preciseTrap g 0x0A code lanes with arg0 := handle.setWidth 64, arg1 := pqid.setWidth 64 }

/-- A group of the device tenant (R103, R347). -/
def privileged (s : State) (g : Slot) : Bool := s.reserved g.bind.asid

/-! ### Results (R442, R444 to R452) -/

/-- The status word (R442). -/
def statusWord (code : W8) (seq : BitVec 48) : W64 := seq ++ 0#8 ++ code

/-- The result of an operation as its answer gives it. -/
def opResult (q : QOp) (fpc : W64) (code : W8) (seq : BitVec 48) (ticket : W64) (data : List W8) : Result :=
  if 0x10 ≤ code.toNat then { fault := some (queueFault fpc q.lanes code q.handle q.pqid) }
  else match q.kind with
    | .res => { sw := [(q.d, if code = 0 then ticket else 0), (q.d + 1, statusWord code 0)] }
    | .put => { sw := [(q.d, statusWord code seq)] }
    | .push => { sw := [(q.d, statusWord code seq)] }
    | .get | .peek =>
      { sw := [(q.d, statusWord code seq)],
        vw := if code = 0 ∨ code = 0x04 then elemWrites q.v (16 * 2 ^ q.esz.toNat) data else [] }
    | .count => { sw := [(q.d, ticket)] }
    | .wake => { sw := [(q.d, ticket)] }
    | .sleep | .rel | .relMrg => { sw := [(q.d, statusWord code 0)] }
    | .merge | .fence => {}

/-! ### Issue (R439, R441, R459) -/

/-- A queue operation joins the group's outstanding operations and leaves the source when it may; one that slept when its group was saved
takes its sleep up again: at a home of this package its request claims the entry that is kept there, and a wake that has ended the sleep
meanwhile is its answer (R458, log 13: DEDUCED). -/
def issueOp (s : State) (q : QOp) (sw : Bool) : State :=
  let g := s.grp
  match g.slept.find? fun x => x.kind == q.kind && x.pqid == q.pqid with
  | none => sendHeld (s.launch g (.queue q) none sw) s.cur
  | some x =>
    let g' : Slot := { g with slept := g.slept.erase x }
    let q' : QOp := { q with st := x.st }
    match x.woken with
    | none => if sleptHere s x then sendHeld (s.launch g' (.queue q) none sw) s.cur else s.launch g' (.queue q') none sw
    | some (c, seq, t) =>
      if q.kind = .get ∧ c = 0 then sendHeld (s.launch g' (.queue q) none sw) s.cur
      else
        let s := s.launch g' (.queue q') (some (opResult q g.pc c (seq.setWidth 48) t [])) sw
        match x.st with
        | .asleep f _ _ => if q.kind = .res ∧ c = 0 then noteGrant s f.sdie.toNat (grantOf f g.ctx q t (privileged s g)) else s
        | _ => s
where
  sleptHere (s : State) (x : QOp) : Bool := match x.st with
    | .asleep f _ _ => inPackage s f
    | _ => false

/-- A whole-group form on a queue (R441): the privilege of `qsys`, the allocation, the empty active set, the limit of R185,
the handle, and the checks made at the source (`pre`). -/
def queueForm (s : State) (h : Hdr) (sys ok : Bool) (qh : SReg) (right : Nat) (pre : Option W8) (q : QOp)
    (go : State → QOp → State) : Out :=
  let g := s.grp
  let act := activeSet g h
  let handle : W32 := (getS g qh).setWidth 32
  if sys && !privileged s g then .next (s.illegal 0x01)
  else if !(ok && okS g qh) then .next (s.regRange act)
  else if act = 0 then .next (s.retire g h.sw)
  else if outstFull g then .next (s.stallAt .resource)
  else match if sys then Except.ok handle else translate s g.bind.asid.toNat handle right with
    | .error c => .next (s.trapCur (queuePrecise g act c handle 0))
    | .ok p =>
      match pre with
      | some c => .next (s.trapCur (queuePrecise g act c handle p))
      | none => .next (go s { q with pqid := p, handle := handle, lanes := act,
                                     tenant := if privileged s g then s.mgmt.devten else g.bind.tenant })

/-- The element registers of a form (R31, R441). -/
def okElem (g : Slot) (v : VReg) (esz : W3) : Bool := okVn g (if esz = 4 then 2 else 1) v

def image (g : Slot) (v : VReg) (esz : W3) : List W8 := elemBytes g v (16 * 2 ^ esz.toNat)

def qresForm (o : QRes) (sys : Bool) (s : State) : Out :=
  let g := s.grp
  let n := if o.reg then (getS g o.a).toNat else o.n.toNat
  queueForm s o.h sys (okS2 g o.d && (!o.reg || okS g o.a)) o.qh rEnq none
    { kind := .res, pqid := 0, handle := 0, tenant := 0, d := o.d, try_ := o.try_, n := n } fun s q => issueOp s q o.h.sw

/-- The index of a `qput`, and its check at the source (R39, R441, R445). -/
def qputForm (o : QPut) (sys : Bool) (s : State) : Out :=
  let g := s.grp
  let t := getS g o.a
  let i := if o.reg then (getS g o.b).toNat else o.idx.toNat
  queueForm s o.h sys (okS g o.d && okS g o.a && (!o.reg || okS g o.b) && okElem g o.v o.esz) o.qh rEnq
    (if ticketN t ≤ i then some 0x15 else none)
    { kind := .put, d := o.d, esz := o.esz, seq := ticketSeq t + BitVec.ofNat 48 i, data := image g o.v o.esz } fun s q => issueOp s q o.h.sw

def qpushForm (o : QElem) (sys : Bool) (s : State) : Out :=
  let g := s.grp
  queueForm s o.h sys (okS g o.d && okElem g o.v o.esz) o.qh rEnq none
    { kind := .push, d := o.d, esz := o.esz, try_ := o.try_, data := image g o.v o.esz } fun s q => issueOp s q o.h.sw

def qgetForm (o : QElem) (sys : Bool) (s : State) : Out :=
  let g := s.grp
  queueForm s o.h sys (okS g o.d && okElem g o.v o.esz) o.qh rDeq none
    { kind := .get, d := o.d, v := o.v, esz := o.esz, try_ := o.try_ } fun s q => issueOp s q o.h.sw

def qpeekForm (o : QPeek) (sys : Bool) (s : State) : Out :=
  let g := s.grp
  queueForm s o.h sys (okS g o.d && okElem g o.v o.esz) o.qh rPeek none
    { kind := .peek, d := o.d, v := o.v, esz := o.esz } fun s q => issueOp s q o.h.sw

/-- A form that names only its destination and its queue. -/
def qplainForm (kind : QKind) (right : Nat) (h : Hdr) (d qh : SReg) (all sys : Bool) (s : State) : Out :=
  queueForm s h sys (okS s.grp d) qh right none { kind := kind, d := d, all := all } fun s q => issueOp s q h.sw

def qrelForm (h : Hdr) (d qh a : SReg) (sys : Bool) (s : State) : Out :=
  let g := s.grp
  let t := getS g a
  queueForm s h sys (okS g d && okS g a) qh rEnq none
    { kind := .rel, d := d, ticket := t, seq := ticketSeq t } fun s q => issueOp s q h.sw

/-- An operation of the group has not left the source. -/
def anyHeld (g : Slot) : Bool := g.outst.any fun o => match o.op with
  | .queue q => q.st == .held && o.res.isNone
  | _ => false

/-- A contribution enters the marver of its die at issue, behind the group's earlier operations and an outstanding `qfence` (R50,
R72, R247, R448). -/
def qmergeForm (o : QMerge) (sys : Bool) (s : State) : Out :=
  let g := s.grp
  let k := getS g o.a
  queueForm s o.h sys ((!o.reg || okS g o.a) && okElem g o.v o.esz) o.qh rMerge
    (if o.reg && decide (256 ≤ k.toNat) then some 0x15 else none)
    { kind := .merge, esz := o.esz, key := if o.reg then k.setWidth 8 else o.key, data := image g o.v o.esz } fun s q =>
      if g.phase.isSome || g.fence.isSome || anyHeld g then s.stallAt .resource
      else if unreachable s (slotDie s.cur) q.pqid then
        s.launch g .wait (some { fault := some (queueFault g.pc q.lanes 0x19 q.handle q.pqid) }) o.h.sw
      else contribute (s.retire g o.h.sw) (slotDie s.cur) g.ctx q.tenant (privileged s g) q.pqid q.key q.esz q.data

/-- Flush the flows used since the last fence (R72, R453). -/
def fenceFlows (s : State) (tenant : W6) (dev : Bool) : List Flow → List (Flow × Nat) × State
  | [] => ([], s)
  | f :: r =>
    let (n, s) := sendFlush s f tenant dev
    let (ns, s) := fenceFlows s tenant dev r
    ((f, n) :: ns, s)

/-- A fence (R453): the group goes on, and its later queue operations stay at the source until every flush has returned. -/
def qfenceForm (h : Hdr) (sys : Bool) (s : State) : Out :=
  let g := s.grp
  let act := activeSet g h
  if sys && !privileged s g then .next (s.illegal 0x01)
  else if act = 0 then .next (s.retire g h.sw)
  else if g.fence.isSome || g.phase.isSome || anyHeld g then .next (s.stallAt .resource)
  else if g.flows.any fun f => f.dpkg != s.pkgid && (s.limiter (limKey f.sdie.toNat f.dpkg)).unreachable then
    .next (s.launch { g with flows := [] } .wait (some { fault := some (queueFault g.pc act 0x19 0 0) }) h.sw)
  else
    let (ws, s) := fenceFlows s (if privileged s g then s.mgmt.devten else g.bind.tenant) (privileged s g) g.flows
    .next (s.retire { g with flows := [], fence := if ws.isEmpty then none else some ⟨g.pc, act, ws⟩ } h.sw)

/-! ### The forms -/

/-- QRES (R444). -/
def execQres (o : QRes) (s : State) : Out := qresForm o false s
/-- QPUT (R445). -/
def execQput (o : QPut) (s : State) : Out := qputForm o false s
/-- QPUSH (R446). -/
def execQpush (o : QElem) (s : State) : Out := qpushForm o false s
/-- QGET (R449). -/
def execQget (o : QElem) (s : State) : Out := qgetForm o false s
/-- QPEEK (R449). -/
def execQpeek (o : QPeek) (s : State) : Out := qpeekForm o false s
/-- QCOUNT (R450). -/
def execQcount (o : QCount) (s : State) : Out := qplainForm .count rPeek o.h o.d o.qh false false s
/-- QSLEEP (R451). -/
def execQsleep (o : QAll) (s : State) : Out := qplainForm .sleep rSleep o.h o.d o.qh o.all false s
/-- QWAKE (R452). -/
def execQwake (o : QAll) (s : State) : Out := qplainForm .wake rSleep o.h o.d o.qh o.all false s
/-- QREL (R447). -/
def execQrel (o : QRel) (s : State) : Out := qrelForm o.h o.d o.qh o.a false s
/-- QREL_MRG (R448). -/
def execQrelMrg (o : QCount) (s : State) : Out := qplainForm .relMrg rMerge o.h o.d o.qh false false s
/-- QFENCE (R453). -/
def execQfence (h : Hdr) (s : State) : Out := qfenceForm h false s
/-- QMERGE (R448). -/
def execQmerge (o : QMerge) (s : State) : Out := qmergeForm o false s

/-- QSYS_RES (R459). -/
def execQsysRes (o : QRes) (s : State) : Out := qresForm o true s
/-- QSYS_PUT (R459). -/
def execQsysPut (o : QPut) (s : State) : Out := qputForm o true s
/-- QSYS_PUSH (R459). -/
def execQsysPush (o : QElem) (s : State) : Out := qpushForm o true s
/-- QSYS_GET (R459). -/
def execQsysGet (o : QElem) (s : State) : Out := qgetForm o true s
/-- QSYS_PEEK (R459). -/
def execQsysPeek (o : QPeek) (s : State) : Out := qpeekForm o true s
/-- QSYS_COUNT (R459). -/
def execQsysCount (o : QCount) (s : State) : Out := qplainForm .count rPeek o.h o.d o.qh false true s
/-- QSYS_SLEEP (R459). -/
def execQsysSleep (o : QAll) (s : State) : Out := qplainForm .sleep rSleep o.h o.d o.qh o.all true s
/-- QSYS_WAKE (R459). -/
def execQsysWake (o : QAll) (s : State) : Out := qplainForm .wake rSleep o.h o.d o.qh o.all true s
/-- QSYS_REL (R459). -/
def execQsysRel (o : QSysRel) (s : State) : Out :=
  if o.mrg then qplainForm .relMrg rMerge o.h o.d o.qh false true s else qrelForm o.h o.d o.qh o.a true s
/-- QSYS_FENCE (R459). -/
def execQsysFence (h : Hdr) (s : State) : Out := qfenceForm h true s
/-- QSYS_MERGE (R459). -/
def execQsysMerge (o : QMerge) (s : State) : Out := qmergeForm o true s

/-! ### Dispatch (R454, R455, R457) -/

/-- A dispatch of the group is outstanding. -/
def scattering (s : State) (k : Nat) : Bool := (s.die (slotDie k)).dispatches.any fun x => x.slot == k

/-- A malformed descriptor (R454, R455). -/
def descMalformed (r : List W8) : Bool :=
  let w := recCtl r
  let w2 := recNat r 0x10 8
  bitsOf w 63 60 != 1 || decide (5 ≤ bitsOf w 59 57) || bitsOf w 56 45 != 0 || bitsOf w 35 32 != 0 || w2 / 2 ^ 32 != 0 ||
    recNat r 0x28 0x18 != 0 || bitsOf w 39 36 == 0 || decide (8 < bitsOf w 39 36) || w2 % 16 != 0

/-- Read the descriptor or the target table while the instruction waits at issue: the bytes, or the state in which its
precise fault or its park leaves the group (R455). -/
def scatterRead (s : State) (h : Hdr) (a : W64) (n : Nat) : Except State (List W8 × State) :=
  let g := s.grp
  match recWalk s (slotDie s.cur) g.bind.asid.toNat a n with
  | .fault c => .error (s.trapCur { memPrecise g c a with lanes := activeSet g h })
  | .park off => .error (parkGroup (s.issued g false) s.cur none h.sw (addrObj a) off)
  | .ok addrs => match readView s s.cur addrs with
    | (none, s) => .error (s.trapCur { memPrecise g 0x38 a with lanes := activeSet g h })
    | (some bs, s) => .ok (bs, s)

/-- The PQIDs of the targets, or the first handle that fails and its fault (R455). -/
def translateAll (s : State) (asid : Nat) : List W32 → Except (W8 × W32) (List W32)
  | [] => .ok []
  | h :: r => match translate s asid h rScat with
    | .error c => .error (c, h)
    | .ok p => match translateAll s asid r with
      | .error e => .error e
      | .ok ps => .ok (p :: ps)

/-- QSCATTER (R455). -/
def execQscatter (o : QScatter) (s : State) : Out :=
  let g := s.grp
  let act := activeSet g o.h
  if !(okS g o.d && okS g o.qh) then .next (s.regRange act)
  else if act ≠ 0xFFFFFFFF then .next (s.trapCur { maskTrap g with lanes := act })
  else if scattering s s.cur || g.fence.isSome || g.phase.isSome || anyHeld g || tlFull s o.tl then
    .next (s.stallAt .resource)
  else match scatterRead s o.h (getS g o.qh) 64 with
    | .error s => .next s
    | .ok (r, s) =>
      match scatterRead s o.h (BitVec.ofNat 64 (recNat r 0x20 8)) (4 * (bitsOf (recCtl r) 44 40 + 1)) with
      | .error s => .next s
      | .ok (tb, s) =>
        match translateAll s g.bind.asid.toNat ((List.range (tb.length / 4)).map fun i => BitVec.ofNat 32 (recNat tb (4 * i) 4)) with
        | .error (c, h) => .next (s.trapCur (queuePrecise g act c h 0))
        | .ok ts =>
          let slot := s.cur
          let lead := s.lead
          let d := slotDie s.cur
          let (gate, n, s) := engineIssue s o.tl o.d o.h.sw
          let s := if o.cont || descMalformed r then s else s.setSlot slot { s.slot slot with cursor := [] }
          let (id, s) := s.fresh
          let x : Dispatch := {
            id := id, slot := slot, lead := lead, asid := g.bind.asid, tenant := if privileged s g then s.mgmt.devten else g.bind.tenant, tl := o.tl,
            num := BitVec.ofNat 40 n, esz := BitVec.ofNat 3 (bitsOf (recCtl r) 59 57), topk := bitsOf (recCtl r) 39 36,
            ntok := bitsOf (recCtl r) 31 0, rows := BitVec.ofNat 64 (recNat r 0x08 8),
            rowstr := recNat r 0x10 4, route := BitVec.ofNat 64 (recNat r 0x18 8), targets := ts, gate := gate,
            handles := (List.range (tb.length / 4)).map fun i => BitVec.ofNat 32 (recNat tb (4 * i) 4),
            finished := if descMalformed r then some true else none }
          let y := s.die d
          .next (dispRun (s.setDie d { y with dispatches := y.dispatches ++ [x] }) d id)

/-- QCURRD: the cursor word as it stands when the instruction performs (R457). -/
def execQcurrd (o : QCurRd) (s : State) : Out :=
  let g := s.grp
  let act := activeSet g o.h
  if !okS g o.d then .next (s.regRange act)
  else if act = 0 then .next (s.retire g o.h.sw)
  else if outstFull g then .next (s.stallAt .resource)
  else .next (s.launch g (.qcurrd o.d o.w.toNat) none o.h.sw)

/-- QCURWR: it waits while a dispatch of the group is outstanding (R457). -/
def execQcurwr (o : QCurWr) (s : State) : Out :=
  let g := s.grp
  let act := activeSet g o.h
  let v := getS g o.a
  if !okS g o.a then .next (s.regRange act)
  else if act = 0 then .next (s.retire g o.h.sw)
  else if scattering s s.cur then .next (s.stallAt .resource)
  else .next (s.retire { g with cursor := tset g.cursor o.w.toNat (if o.w = 0 then v &&& 0x000007FFFFFFFFFF else v) } o.h.sw)

end Sys2Proof.Machine
end

