-- ==== Sys2Proof/Machine/Expert.lean ====
section
/-! DEFINITION. The expert residency table, its pools, holds and fetches (R133 to R144, R147, R150), and the expert
instructions (R433 to R438). -/
namespace Sys2Proof.Machine

/-! ### Entries, pools and ranges (R131, R133 to R137) -/

def poolKey (die tenant pool : Nat) : Nat := (die * 64 + tenant) * 16 + pool
def State.pool (s : State) (die : Nat) (e : Ert) : Option Pool := tfind s.pools (poolKey die e.tenant.toNat e.pool.toNat)

/-- The index lies in the tenant's range (R131). -/
def inRange (s : State) (tenant : W6) (idx : Nat) : Bool :=
  let i := s.iface tenant.toNat
  decide (i.ebase.toNat ≤ idx ∧ idx < i.ebase.toNat + i.ecnt.toNat)

/-- The check of an operation on an entry, with the code of EXPERT (R134, R279). -/
def expertCode (s : State) (die : Nat) (tenant : W6) (asid : BitVec 12) (idx : W16) (eid : W32) : Option W8 :=
  let e := s.ert die idx.toNat
  if !inRange s tenant idx.toNat then some 0x01
  else if !e.valid then some 0x02
  else if e.eid ≠ eid then some 0x03
  else if e.asid ≠ asid then some 0x04
  else none

/-- The entries of a die, by index. -/
def ertsOf (s : State) (die : Nat) : List (Nat × Ert) :=
  s.erts.filterMap fun p => if p.1 / 65536 = die then some (p.1 % 65536, p.2) else none

def samePool (a b : Ert) : Bool := a.valid && b.valid && a.tenant == b.tenant && a.pool == b.pool

/-- A pin would leave the pool with no frame outside Pinned and Split; recorded pins and parts on their way count
(R137, log 17: DEDUCED). -/
def pinFull (s : State) (die idx : Nat) (e : Ert) : Bool :=
  let n := ((ertsOf s die).filter fun p => p.1 != idx && samePool p.2 e &&
    (p.2.state == .pinned || p.2.state == .split || p.2.pin || (p.2.parted && p.2.state == .fetching))).length
  match s.pool die e with
  | none => true
  | some p => decide (p.nf ≤ n + 1)

/-! ### Fetches (R136, R141 to R143) -/

def State.setFetch (s : State) (die : Nat) (f : Fetch) : State :=
  let x := s.die die
  s.setDie die { x with fetches := x.fetches.map fun y => if y.id = f.id then f else y }

def State.fetch (s : State) (die id : Nat) : Option Fetch := (s.die die).fetches.find? fun f => f.id == id

def selfFlow (s : State) (die : Nat) : Flow := ⟨s.pkgid, BitVec.ofNat 3 die, s.pkgid, BitVec.ofNat 3 die⟩

/-- The wait queue of an entry, which its die homes (R149). -/
def waitRef (e : Ert) : QRef := ⟨(pqDie e.wq).toNat, (pqPort e.wq).toNat, (pqQueue e.wq).toNat⟩

/-- A landing record (R141). -/
def landingRecord (eid : W32) (status frame : Nat) : List W8 :=
  leBytes 4 0xFFFFFFFF ++ leBytes 4 eid.toNat ++ leBytes 4 status ++ leBytes 4 frame

/-- The landing record fills its slot, and the port wakes sleepers (R141, R142). -/
def fillLanding (s : State) (r : QRef) (seq : BitVec 48) (rec : List W8) : State :=
  let q := s.qref r
  if (homeFault s r).isNone && decide ((seq - q.head).toNat < q.len) && !(q.slot seq).ready then
    wakeSince (s.setQref r (q.put seq (.filled rec))) r q
  else s

/-- A frame goes back to its pool. -/
def freeFrame (s : State) (die : Nat) (e : Ert) : State :=
  match s.pool die e with
  | none => s
  | some p => { s with pools := tset s.pools (poolKey die e.tenant.toNat e.pool.toNat) { p with free := p.free ++ [e.frame.toNat] } }

/-- The end of a fetch (R141, R142): the landing record and the entry's new state in one operation. -/
def endFetch (s : State) (die : Nat) (f : Fetch) (status : Nat) : State :=
  let e := s.ert die f.idx
  let x := s.die die
  let s := s.setDie die { x with fetches := x.fetches.filter fun y => y.id != f.id }
  let s := if status ≠ 0 ∧ f.step = .copying then freeFrame s die e else s
  let e' : Ert := if status = 0 then
      { e with state := if e.parted then .split else if e.pin then .pinned else .resident, pin := false }
    else { e with state := .absent, ferr := true, pin := false, parted := false, pdies := 0, part := 0, npm1 := 0, cq := 0, cqn := 0 }
  let s := s.setErt die f.idx e'
  if f.step = .reserve ∨ f.step = .parked then s
  else fillLanding s (waitRef e) f.seq (landingRecord e.eid status (if status = 0 then e.frame.toNat else 0))

/-- What the reservation of the landing slot has come to (R141). -/
def fetchReserved (s : State) (die : Nat) (f : Fetch) (code : W8) (seq : BitVec 48) : State :=
  if code = 0 then s.setFetch die { f with seq := seq, step := .ready }
  else if code = codeAsleep then s.setFetch die { f with step := .reserve }
  else if code = codeNoEntry then s.setFetch die { f with step := .parked }
  else endFetch s die f 1

/-- Step 2 of a fetch start: the landing slot (R141). -/
def reserveLanding (s : State) (die : Nat) (f : Fetch) : State :=
  let r := waitRef (s.ert die f.idx)
  match homeFault s r with
  | some c => fetchReserved s die f c 0
  | none =>
    let (a, s) := reserveAt s r 1 false (.fetch die f.id) (selfFlow s die)
    fetchReserved s die f a.code a.seq

/-- A fetch start: steps 1 and 2 (R141). -/
def startFetch (s : State) (die idx : Nat) (demand : Bool) : State :=
  let (id, s) := s.fresh
  let s := s.setErt die idx { s.ert die idx with state := .fetching, wait := 0, wovf := false, ferr := false }
  let f : Fetch := { id := id, idx := idx, demand := demand }
  let x := s.die die
  reserveLanding (s.setDie die { x with fetches := x.fetches ++ [f] }) die f

/-- Steps 3 to 5 run for the fetch. -/
def fetchInEngine (f : Fetch) : Bool := f.step == .noFrame || f.step == .evicting || f.step == .copying

/-- The better of two waiting fetches: demand first, then WOVF, then WAIT, then the one that has waited longest (R143). -/
def betterFetch (s : State) (die : Nat) (a b : Fetch) : Fetch :=
  if a.demand ≠ b.demand then (if a.demand then a else b)
  else if !a.demand then a
  else
    let x := s.ert die a.idx
    let y := s.ert die b.idx
    if x.wovf ≠ y.wovf then (if x.wovf then a else b) else if x.wait < y.wait then b else a

/-- The fetch that the engine takes next (R143). -/
def nextFetch (s : State) (die : Nat) : Option Fetch :=
  let fs := (s.die die).fetches
  if 16 ≤ (fs.filter fetchInEngine).length then none
  else match fs.filter fun f => f.step == .ready with
    | [] => none
    | f :: r => some (r.foldl (betterFetch s die) f)

/-- The victim of a pool (R136). -/
def victimOf (s : State) (die : Nat) (e : Ert) : Option Nat :=
  let cs := (ertsOf s die).filter fun p => samePool p.2 e && p.2.state == .resident && p.2.use == 0
  match cs with
  | [] => none
  | c :: r =>
    some (r.foldl (fun (a b : Nat × Ert) =>
      if b.2.lastuse.toNat < a.2.lastuse.toNat ∨ (b.2.lastuse = a.2.lastuse ∧ b.1 < a.1) then b else a) c).1

/-- Step 3: a free frame, or a victim, or a wait (R136). -/
def takeFrame (s : State) (die : Nat) (f : Fetch) : State :=
  let e := s.ert die f.idx
  match s.pool die e with
  | none => endFetch s die f 1
  | some p =>
    match p.free with
    | n :: r =>
      let s := { s with pools := tset s.pools (poolKey die e.tenant.toNat e.pool.toNat) { p with free := r } }
      (s.setErt die f.idx { e with frame := BitVec.ofNat 16 n }).setFetch die { f with step := .copying }
    | [] =>
      if f.step = .evicting && (ertsOf s die).any (fun x => samePool x.2 e && x.2.state == .evicting) then s
      else match victimOf s die e with
        | some v => (s.setErt die v { s.ert die v with state := .evicting }).setFetch die { f with step := .evicting }
        | none => s.setFetch die { f with step := .noFrame }

/-- FETCH_FRAME_TAKE (R136, R141, R143). -/
def execFetchFrameTake (s : State) : Out :=
  let die := s.arg.die.toNat
  match s.fetch die s.arg.idx with
  | none => .next s
  | some f =>
    match f.step with
    | .reserve | .copying => .next s
    | .parked => .next (reserveLanding s die f)
    | .ready => .next (if nextFetch s die = some f then takeFrame s die f else s)
    | .noFrame | .evicting => .next (takeFrame s die f)

/-- EVICTION_DONE (R137): the victim is Absent and its frame free; a command that asked for it finishes, and a recorded pin
starts its fetch (R144, R149). -/
def execEvictionDone (s : State) : Out :=
  let die := s.arg.die.toNat
  let idx := s.arg.idx
  let e := s.ert die idx
  if e.state ≠ .evicting then .next s
  else
    let s := freeFrame s die e
    let s := s.setErt die idx { e with state := .absent, parted := false, pdies := 0, part := 0, npm1 := 0, cq := 0, cqn := 0,
                                       compl := none, refetch := false }
    let s := match e.compl with
      | some a => writeCompletion s die e.asid a (1#64 <<< 55)
      | none => s
    .next (if e.refetch && e.valid then startFetch s die idx true else s)

/-- SRC still names the far-tier range registered for the entry, and every part of it answers (R129, R141). -/
def sourceGood (s : State) (e : Ert) (off : Nat) : Bool :=
  let o := s.obj e.asid.toNat (addrObj e.src)
  !e.srcGone && o.state == .valid && o.kind == .far && o.extbase == e.srcBase && decide (addrOff e.src + off + e.size.toNat * 4096 ≤ o.bound) &&
    portUp s (o.extbase.toNat + addrOff e.src + off) &&
    !(s.poison.any fun w => decide (farKey (o.extbase.toNat + addrOff e.src + off) ≤ 64 * w + 63 ∧
        64 * w < farKey (o.extbase.toNat + addrOff e.src + off + e.size.toNat * 4096)))

/-- A page written at its memory points from the far tier. -/
def fillPage (s : State) (dst src : Nat) : State :=
  let s := (List.range 32).foldl (fun s i => s.letObserve (dst / 128 + i)) s
  { s with mem := memCopy s.mem dst s.far src 4096, poison := s.poison.filter fun w => 64 * w < dst || dst + 4096 ≤ 64 * w }

/-- Steps 4 and 5: the frame is written from the far tier and published (R141). -/
def fillFrame (s : State) (p : Pool) (e : Ert) (src : Nat) : State :=
  let obj := addrObj p.base
  let off := addrOff p.base + e.frame.toNat * p.fsize * 4096
  let s := populate s p.asid obj off (e.size.toNat * 4096)
  (List.range e.size.toNat).foldl (fun s i =>
    match objByteAddr (s.obj p.asid.toNat obj) (off + 4096 * i) with
    | some a => fillPage s a (src + 4096 * i)
    | none => s) s

/-- FETCH_LANDING (R141, R142). -/
def execFetchLanding (s : State) : Out :=
  let die := s.arg.die.toNat
  match s.fetch die s.arg.idx with
  | none => .next s
  | some f =>
    if f.step ≠ .copying then .next s
    else
      let e := s.ert die f.idx
      let off := if e.parted then e.part.toNat * e.size.toNat * 4096 else 0
      match s.pool die e with
      | none => .next (endFetch s die f 1)
      | some p =>
        if sourceGood s e off then
          let o := s.obj e.asid.toNat (addrObj e.src)
          .next (endFetch (fillFrame s p e (o.extbase.toNat + addrOff e.src + off)) die f 0)
        else .next (endFetch s die f 1)

/-! ### Holds (R138) -/

/-- A use of an entry ends. -/
def unuse (s : State) (die idx : Nat) : State :=
  let e := s.ert die idx
  s.setErt die idx { e with use := if e.use = 0 then 0 else e.use - 1 }

/-- The block takes a hold, unless its table is full. -/
def holdAdd (s : State) (lead : Nat) (idx : W16) : Option State :=
  let b := s.block lead
  let die := slotDie lead
  if b.holds.contains idx then some s
  else if 16 ≤ b.holds.length then none
  else
    let e := s.ert die idx.toNat
    some ((s.setBlock lead { b with holds := b.holds ++ [idx] }).setErt die idx.toNat { e with use := e.use + 1 })

/-- The block drops an index that it holds. -/
def holdDrop (s : State) (lead : Nat) (idx : W16) : State :=
  let b := s.block lead
  if b.holds.contains idx then unuse (s.setBlock lead { b with holds := b.holds.erase idx }) (slotDie lead) idx.toNat else s

/-- A block that retires or is killed drops every hold. -/
def dropHolds (s : State) (lead : Nat) : State := (s.block lead).holds.foldl (fun s i => holdDrop s lead i) s

/-! ### Lookups (R139, R434) -/

/-- One entry looked up: its result word (R434). -/
def lookOne (s : State) (lead : Nat) (hold : Bool) (idx : W16) : W32 × State :=
  let die := slotDie lead
  let e := s.ert die idx.toNat
  let word (st : Nat) (fr : W16) : W32 := BitVec.ofNat 16 st ++ fr
  if e.state = .resident ∨ e.state = .pinned ∨ e.state = .split then
    match if hold then holdAdd s lead idx else some s with
    | none => (word 3 0, s)
    | some s =>
      let e := s.ert die idx.toNat
      (word (if e.state = .split then 2 else 0) e.frame, s.setErt die idx.toNat { e with lastuse := (s.die die).clock })
  else if e.state = .absent then (word 1 0, startFetch s die idx.toNat true)
  else (word 1 0, s)

/-- Later loads from a frame follow its landing (R139): the core's snapshot of the frame is renewed. -/
def refreshFrame (s : State) (ck die : Nat) (e : Ert) : State :=
  match s.pool die e with
  | none => s
  | some p =>
    let o := s.obj p.asid.toNat (addrObj p.base)
    let off := addrOff p.base + e.frame.toNat * p.fsize * 4096
    let c := s.core ck
    let snap : Mem := (List.range p.fsize).foldl (fun (m : Mem) (i : Nat) => (match objByteAddr o (off + 4096 * i) with
      | some a => memCopy m a s.mem a 4096
      | none => m)) c.snap
    s.setCore ck { c with snap := snap }

/-- Each distinct index in order of first occurrence (R139). -/
def lookAll (s : State) (k lead : Nat) (hold : Bool) : List W16 → List (W16 × W32) × State
  | [] => ([], s)
  | i :: r =>
    let (w, s) := lookOne s lead hold i
    let st := w.toNat / 65536
    let s := if st = 0 ∨ st = 2 then refreshFrame s (k / 16) (slotDie k) (s.ert (slotDie k) i.toNat) else s
    let (ws, s) := lookAll s k lead hold r
    ((i, w) :: ws, s)

/-! ### Parks (R140, R436) -/

/-- A fetch of the die has yet to reserve its landing slot in a queue, where no sleeper entry was free (R46, R141). -/
def landingParked (s : State) (die : Nat) (r : QRef) : Bool :=
  (s.die die).fetches.any fun f => f.step == .parked && decide (waitRef (s.ert die f.idx) = r)

/-- One token record is pushed; it answers whether it was placed (R140); while the reservation of a landing slot waits, parks meet FULL
(R141). -/
def parkOne (s : State) (die : Nat) (x : XLane) : Bool × State :=
  let e := s.ert die x.idx.toNat
  let r := waitRef e
  let rec_ := leBytes 4 x.token.toNat ++ leBytes 4 x.eid.toNat ++ leBytes 4 x.gate.toNat ++ leBytes 4 x.user.toNat
  if (homeFault s r).isSome || landingParked s die r then (false, s)
  else
    let (a, s') := pushAt s r rec_ true .none (selfFlow s die)
    if a.code ≠ 0 then (false, s)
    else
      let s' := wakeSince s' r (s.qref r)
      let e := s'.ert die x.idx.toNat
      (true, s'.setErt die x.idx.toNat (if 0xFFFFFF ≤ e.wait then { e with wovf := true } else { e with wait := e.wait + 1 }))

/-- The lanes that were not placed. -/
def parkAll (s : State) (die : Nat) : List XLane → W32 × State
  | [] => (0, s)
  | x :: r =>
    let (ok, s) := parkOne s die x
    let (m, s) := parkAll s die r
    (if ok then m else m ||| (1#32 <<< x.lane), s)

/-! ### Pins (R144) -/

/-- A pin: whether it is refused. -/
def pinEntry (s : State) (die idx : Nat) : Bool × State :=
  let e := s.ert die idx
  if e.state = .pinned ∨ e.state = .split then (false, s)
  else if pinFull s die idx e then (true, s)
  else match e.state with
    | .resident => (false, s.setErt die idx { e with state := .pinned })
    | .absent => (false, startFetch (s.setErt die idx { e with pin := true }) die idx true)
    | .evicting => (false, s.setErt die idx { e with pin := true, refetch := true })
    | _ => (false, s.setErt die idx { e with pin := true })

/-- An unpin. -/
def unpinEntry (s : State) (die idx : Nat) : State :=
  let e := s.ert die idx
  s.setErt die idx (if e.state = .pinned then { e with state := .resident } else { e with pin := false })

/-! ### Entry words (R133) -/

def ertStateNum : ErtState → Nat
  | .absent => 0
  | .fetching => 1
  | .resident => 2
  | .pinned => 3
  | .evicting => 4
  | .split => 5

def ertWord0 (e : Ert) : W64 :=
  e.eid ++ BitVec.ofNat 3 (ertStateNum e.state) ++ BitVec.ofBool e.wovf ++ BitVec.ofBool e.valid ++ BitVec.ofBool e.ferr ++ 0#2 ++
    BitVec.ofNat 24 e.wait

def ertWord8 (e : Ert) : W64 := e.tenant ++ e.asid ++ e.pool ++ 0#10 ++ e.use ++ e.frame

/-! ### The controller serves an instruction (R134, R433) -/

/-- EXPERT (R279, R282). -/
def expertTrap (fpc : W64) (code : W8) (lanes : W32) (x : XLane) : Trap :=
  { cause := 0x0B, code := code, precise := false, lanes := lanes, fpc := fpc, arg0 := x.eid ++ 0#16 ++ x.idx }

/-- The lanes whose entry is checked (R433, R436), and those that a W form's fault names (`all`). -/
def expertFault (s : State) (k : Nat) (fpc : W64) (all : Option W32) (xs : List XLane) : Option Trap :=
  let b := (s.slot k).bind
  let bad := xs.filterMap fun x => (expertCode s (slotDie k) b.tenant b.asid x.idx x.eid).map fun c => (x, c)
  match bad with
  | [] => none
  | (x, c) :: _ => some (expertTrap fpc c (all.getD (maskOf fun l => bad.any fun p => p.1.lane == l)) x)

/-- A park's selected lanes (R436). -/
def missLanes (xs : List XLane) : List XLane := xs.filter fun x => x.word.extractLsb' 16 2 == 1

/-- A park: RANGE for a reserved TOKEN, or the mask of the lanes not parked (R436). -/
def performPark (s : State) (k : Nat) (fpc : W64) (d : SReg) (xs : List XLane) : Result × State :=
  let bad := xs.filter fun x => x.token == 0xFFFFFFFF
  match bad with
  | x :: _ =>
    (faultResult (queueFault fpc (maskOf fun l => bad.any fun y => y.lane == l) 0x15 0 (s.ert (slotDie k) x.idx.toNat).wq), s)
  | [] =>
    let (m, s) := parkAll s (slotDie k) xs
    ({ sw := [(d, m.setWidth 64)] }, s)

/-- An expert instruction performs at the controller of its die (R134, R433 to R438). -/
def performExpert (s : State) (k : Nat) (fpc : W64) (kind : XKind) (xs : List XLane) (act : W32) : Result × State :=
  let die := slotDie k
  let lead := leadOf k (s.slot k)
  let xs := match kind with
    | .park _ => missLanes xs
    | _ => xs
  let whole := match kind with
    | .look _ _ | .drop | .park _ => none
    | _ => some act
  match expertFault s k fpc whole xs with
  | some t => (faultResult t, s)
  | none =>
    let idx := ((xs.map fun x => x.idx.toNat).headD 0)
    let e := s.ert die idx
    match kind with
    | .look hold d =>
      let (ws, s) := lookAll s k lead hold ((xs.map (·.idx)).eraseDups)
      let word (l : Nat) : W32 := match xs.find? fun x => x.lane == l with
        | none => 0
        | some x => ((ws.find? fun p => p.1 == x.idx).map (·.2)).getD 0
      ({ vw := [⟨d, maskOf fun l => xs.any fun x => x.lane == l, genVec word⟩] }, s)
    | .drop => ({}, ((xs.map (·.idx)).eraseDups).foldl (fun s i => holdDrop s lead i) s)
    | .park d => performPark s k fpc d xs
    | .fetch => ({}, if e.state = .absent then startFetch s die idx false else s)
    | .pin d =>
      let (no, s) := pinEntry s die idx
      ({ sw := [(d, if no then 1 else 0)] }, s)
    | .unpin => ({}, unpinEntry s die idx)
    | .stat d => ({ sw := [(d, ertWord0 e), (d + 1, ertWord8 e)] }, s)

/-! ### The forms (R433) -/

/-- The operand block of a lane form: `n` registers from vN. -/
def xLanes (g : Slot) (v : VReg) (act : W32) (n : Nat) : List XLane :=
  let r (i l : Nat) : W32 := if i < n then lane (getVn g (v.toNat + i)) l else 0
  (lanesOf act).map fun l => ⟨l, (r 0 l).extractLsb' 0 16, r 1 l, r 2 l, r 3 l, r 4 l, r 5 l⟩

/-- A park writes its mask also when no lane is active (R436). -/
def isPark : XKind → Bool
  | .park _ => true
  | _ => false

/-- An expert form: with no active lane the others do nothing (R181, R437). -/
def expertForm (s : State) (h : Hdr) (ok : Bool) (kind : XKind) (xs : List XLane) : Out :=
  let g := s.grp
  let act := activeSet g h
  if !ok then .next (s.regRange act)
  else if act = 0 && !isPark kind then .next (s.retire g h.sw)
  else if outstFull g then .next (s.stallAt .resource)
  else .next (s.launch g (.expert kind xs act) none h.sw)

def xlookForm (o : XLook) (hold : Bool) (s : State) : Out :=
  let g := s.grp
  expertForm s o.h (okV g o.d && okVn g 2 o.v) (.look hold o.d) (xLanes g o.v (activeSet g o.h) 2)

/-- XLOOK (R434). -/
def execXlook (o : XLook) (s : State) : Out := xlookForm o false s

/-- XLOOK_HOLD (R139, R434). -/
def execXlookHold (o : XLook) (s : State) : Out := xlookForm o true s

/-- XDROP (R435). -/
def execXdrop (o : VSrc) (s : State) : Out :=
  let g := s.grp
  expertForm s o.h (okVn g 2 o.a) .drop (xLanes g o.a (activeSet g o.h) 2)

/-- XPARK (R436). -/
def execXpark (o : XPark) (s : State) : Out :=
  let g := s.grp
  expertForm s o.h (okS g o.d && okVn g 6 o.v) (.park o.d) (xLanes g o.v (activeSet g o.h) 6)

/-- The entry of a W form (R433). -/
def xOne (g : Slot) (a b : SReg) : List XLane := [⟨0, (getS g a).setWidth 16, (getS g b).setWidth 32, 0, 0, 0, 0⟩]

/-- XFETCH (R437). -/
def execXfetch (o : XOp) (s : State) : Out :=
  let g := s.grp
  expertForm s o.h (okS g o.a && okS g o.b) .fetch (xOne g o.a o.b)

/-- XPIN (R437). -/
def execXpin (o : XOpD) (s : State) : Out :=
  let g := s.grp
  expertForm s o.h (okS g o.d && okS g o.a && okS g o.b) (.pin o.d) (xOne g o.a o.b)

/-- XUNPIN (R437). -/
def execXunpin (o : XOp) (s : State) : Out :=
  let g := s.grp
  expertForm s o.h (okS g o.a && okS g o.b) .unpin (xOne g o.a o.b)

/-- XSTAT (R437). -/
def execXstat (o : XOpD) (s : State) : Out :=
  let g := s.grp
  expertForm s o.h (okS2 g o.d && okS g o.a && okS g o.b) (.stat o.d) (xOne g o.a o.b)

end Sys2Proof.Machine
end

