-- ==== Sys2Proof/Machine/Cross.lean ====
section
/-! DEFINITION. Cross-lane and draw instructions (R384 to R389, R392, R393): variable-latency results. -/
namespace Sys2Proof.Machine

/-- VPERM: any source lane, active or not (R385). -/
def execVperm (o : VPair) (s : State) : Out :=
  let g := s.grp
  let act := activeSet g o.h
  let a := getV g o.a
  let b := getV g o.b
  vLater s o.h (okV g o.d && okV g o.a && okV g o.b) [⟨o.d, act, genVec fun l => lane a ((lane b l).toNat % 32)⟩]
    noFlags noFlags

/-- VBCAST: the source lane that the lowest active lane names (R385). -/
def execVbcast (o : VPair) (s : State) : Out :=
  let g := s.grp
  let act := activeSet g o.h
  let j := (lanesOf act).headD 0
  let x := lane (getV g o.a) ((lane (getV g o.b) j).toNat % 32)
  vLater s o.h (okV g o.d && okV g o.a && okV g o.b) [⟨o.d, act, genVec fun _ => x⟩] noFlags noFlags

/-! ### Scans and reductions (R386, R387) -/

/-- A logical operation on the low `w` bits of two exact values. -/
def logicInt (t : Ty) (op : Nat → Nat → Nat) (a b : Int) : Int :=
  tyVal t (op (wrapN (tyWidth t) a) (wrapN (tyWidth t) b))

def xInt (t : Ty) (op : XOper) (a b : Int) : Int :=
  match op with
  | .add => a + b
  | .min => minInt a b
  | .max => maxInt a b
  | .and => logicInt t (· &&& ·) a b
  | .or => logicInt t (· ||| ·) a b
  | .xor => logicInt t (· ^^^ ·) a b

/-- The integer identities (R386). -/
def xIdInt (t : Ty) (op : XOper) : Int :=
  match op with
  | .min => tyMax t
  | .max => tyMin t
  | .and => tyVal t (2 ^ tyWidth t - 1)
  | .add | .or | .xor => 0

/-- The `.f32` identities (R386). -/
def xIdF (op : XOper) : Nat :=
  match op with
  | .min => 0x7F800000
  | .max => 0xFF800000
  | _ => 0x80000000

/-- One step of a scan or reduction of `.f32` (R387). -/
def xF (rm : Rm) (op : XOper) (a b : Nat) : FRes :=
  match op with
  | .min => minMaxF false a b
  | .max => minMaxF true a b
  | _ => addF rm false a b

/-- The running combinations of a list, each with the flags of the steps that formed it. -/
def scanList {α : Type} (f : α → α → α × W8) (acc : α) (fl : W8) : List α → List (α × W8)
  | [] => [(acc, fl)]
  | x :: r =>
    let (y, fy) := f acc x
    (acc, fl) :: scanList f y (fl ||| fy) r

/-- s_0 to s_31 of R387. -/
def scanOf {α : Type} (f : α → α → α × W8) (xs : List α) : List (α × W8) :=
  match xs with
  | [] => []
  | x :: r => scanList f x 0 r

/-- One level of the pairwise tree (R387). -/
def treeLevel {α : Type} (f : α → α → α × W8) : List (α × W8) → List (α × W8)
  | a :: b :: r =>
    let (y, fy) := f a.1 b.1
    (y, a.2 ||| b.2 ||| fy) :: treeLevel f r
  | l => l

/-- The reduction of 32 values in five levels (R387). -/
def treeOf {α : Type} (f : α → α → α × W8) (d : α) (xs : List α) : α × W8 :=
  ((List.range 5).foldl (fun l _ => treeLevel f l) (xs.map fun x => (x, 0))).headD (d, 0)

/-- The exclusive scan: lane 0 takes the value an inactive lane reads, and raises nothing (R386, R387). -/
def exclusive {α : Type} (z : α) (l : List (α × W8)) : List (α × W8) := (z, 0) :: l.take 31

/-- The lanes' results as a value and flags. -/
def scanInt (t : Ty) (op : XOper) (excl idn : Bool) (act : W32) (a : Vec) : List LaneRes :=
  let z := if idn then xIdInt t op else 0
  let xs := (List.range 32).map fun l => if laneOn act l then tyVal t (lane a l).toNat else z
  let r := scanOf (fun x y => (xInt t op x y, 0)) xs
  (if excl then exclusive z r else r).map fun p => intLane t false p.1

/-- A scan of `.f32`: a NaN that stands alone is canonical as any result is (R252), and raises only what the steps raise (R387, log 123: DEDUCED). -/
def scanF (rm : Rm) (op : XOper) (excl idn : Bool) (act : W32) (a : Vec) : List LaneRes :=
  let z := if idn then xIdF op else 0
  let xs := (List.range 32).map fun l => if laneOn act l then (lane a l).toNat else z
  let r := scanOf (fun x y => ((xF rm op x y).bits, (xF rm op x y).fl)) xs
  (if excl then exclusive z r else r).map fun p => ⟨BitVec.ofNat 32 (if (fval fp32 p.1).isNan then qnan fp32 else p.1), p.2, 0⟩

def redInt (t : Ty) (op : XOper) (idn : Bool) (act : W32) (a : Vec) : LaneRes :=
  let z := if idn then xIdInt t op else 0
  let xs := (List.range 32).map fun l => if laneOn act l then tyVal t (lane a l).toNat else z
  intLane t false (treeOf (fun x y => (xInt t op x y, 0)) z xs).1

def redF (rm : Rm) (op : XOper) (idn : Bool) (act : W32) (a : Vec) : LaneRes :=
  let z := if idn then xIdF op else 0
  let xs := (List.range 32).map fun l => if laneOn act l then (lane a l).toNat else z
  let r := treeOf (fun x y => ((xF rm op x y).bits, (xF rm op x y).fl)) z xs
  ⟨BitVec.ofNat 32 r.1, r.2, 0⟩

def laneRes (rs : List LaneRes) (l : Nat) : LaneRes := rs.getD l ⟨0, 0, 0⟩

/-- A cross-lane result with a value and flags for each lane. -/
def xLater (s : State) (h : Hdr) (ok : Bool) (d : VReg) (rs : List LaneRes) : Out :=
  let act := activeSet s.grp h
  vLater s h ok [⟨d, act, genVec fun l => (laneRes rs l).bits⟩]
    (genVec fun l => if laneOn act l then (laneRes rs l).ff else 0)
    (genVec fun l => if laneOn act l then (laneRes rs l).iff else 0)

/-- VSCAN (R386, R387). -/
def execVscan (o : VScan) (s : State) : Out :=
  let g := s.grp
  let act := activeSet g o.h
  xLater s o.h (okV g o.d && okV g o.a) o.d
    (if o.ty = .f32 then scanF o.rm o.op o.excl o.idn act (getV g o.a)
     else scanInt o.ty o.op o.excl o.idn act (getV g o.a))

/-- VRED (R386, R387). -/
def execVred (o : VRed) (s : State) : Out :=
  let g := s.grp
  let act := activeSet g o.h
  let r := if o.ty = .f32 then redF o.rm o.op o.idn act (getV g o.a) else redInt o.ty o.op o.idn act (getV g o.a)
  xLater s o.h (okV g o.d && okV g o.a) o.d (List.replicate 32 r)

/-! ### Top-k and histogram (R388, R389) -/

/-- The order of two keys: `a` ranks strictly above `b` (R388). -/
def keyAbove (t : Ty) (a b : Nat) : Bool :=
  if t = .f32 then
    let x := fval fp32 a
    let y := fval fp32 b
    if x.isNan then false else if y.isNan then true else decide (0 < cmpV x y)
  else decide (tyVal t b < tyVal t a)

/-- Insert a candidate, key, payload and lane, below every earlier one that it does not outrank (R388). -/
def topInsert (t : Ty) (c : Nat × W32) : List (Nat × W32) → List (Nat × W32)
  | [] => [c]
  | x :: r => if keyAbove t c.1 x.1 then c :: x :: r else x :: topInsert t c r

/-- VTOPK (R388): candidates in descending key, ties to the lower lane. -/
def execVtopk (o : VTopk) (s : State) : Out :=
  let g := s.grp
  let act := activeSet g o.h
  let a := getV g o.a
  let b := getV g o.b
  let cs := (lanesOf act).foldl (fun r l => topInsert o.ty ((lane a l).toNat, lane b l) r) []
  let fill : Nat := if o.ty = .f32 then 0xFF800000 else (tyV o.ty (tyMin o.ty)).toNat
  let c := fun j => cs.getD j (fill, 0xFFFFFFFF)
  let key := fun n => if o.ty = .f32 then BitVec.ofNat 32 n else tyV o.ty (tyVal o.ty n)
  let m := act &&& maskOf fun l => decide (l < o.k.toNat)
  let nv := o.ty == .f32 && (lanesOf act).any fun l => (fval fp32 (lane a l).toNat).isSig
  vLater s o.h (okVn g 2 o.d && okV g o.a && okV g o.b)
    [⟨o.d, m, genVec fun j => key (c j).1⟩, ⟨o.d + 1, m, genVec fun j => (c j).2⟩]
    (genVec fun l => if laneOn act l then nvIf nv else 0) noFlags

/-- VHIST (R389): counts in place, with CNTOV on a wrapped count. -/
def execVhist (o : VHist) (s : State) : Out :=
  let g := s.grp
  let act := activeSet g o.h
  let a := getV g o.a
  let d := getV g o.d
  let n := fun b => ((lanesOf act).filter fun l => (lane a l).toNat / 2 ^ o.sh.toNat == b).length
  xLater s o.h (okV g o.d && okV g o.a) o.d ((List.range 32).map fun b =>
    ⟨lane d b + BitVec.ofNat 32 (n b), 0, if 2 ^ 32 ≤ (lane d b).toNat + n b then iCNTOV else 0⟩)

/-! ### Draws (R392, R393) -/

/-- VDRAW (R392). -/
def execVdraw (o : VDraw) (s : State) : Out :=
  let g := s.grp
  let act := activeSet g o.h
  let t := getS g (o.b + 1)
  let ls := (List.range 32).map fun l =>
    if laneOn act l then some (BitVec.ofNat 32 l + t.extractLsb' 32 32, (lane (getV g o.a) l).toNat) else none
  let root := canonRec (drawTree (getS g o.b) (getS g o.c) 5 0 (leaves (t.toNat % 2 ^ 32) ls))
  vLater s o.h (okV g o.d && okV g o.a && okS2 g o.b && okS g o.c)
    [⟨o.d, act, genVec fun l => root.words.getD (l % 4) 0⟩] noFlags noFlags

/-- Record j of a register (R393). -/
def recordAt (v : Vec) (j : Nat) : Draw :=
  readDraw (lane v (4 * j)) (lane v (4 * j + 1)) (lane v (4 * j + 2)) (lane v (4 * j + 3))

/-- DMERGE (R393): a record with an inactive lane is skipped. -/
def execDmerge (o : DMerge) (s : State) : Out :=
  let g := s.grp
  let act := activeSet g o.h
  let whole := maskOf fun l => (List.range 4).all fun i => laneOn act (l / 4 * 4 + i)
  let r := fun j => mergeDraw (getS g o.c) (getS g (o.c + 1) + BitVec.ofNat 64 j) (recordAt (getV g o.a) j) (recordAt (getV g o.b) j)
  vLater s o.h (okV g o.d && okV g o.a && okV g o.b && okS2 g o.c)
    [⟨o.d, whole, genVec fun l => (r (l / 4)).words.getD (l % 4) 0⟩] noFlags noFlags

end Sys2Proof.Machine
end

