-- ==== Sys2Proof/Machine/Tile.lean ====
section
/-! DEFINITION. Tile, matrix and row-draw instructions (R174, R177, R187, R188, R260 to R263, R416 to R432). -/
namespace Sys2Proof.Machine

/-! ### Issue and acceptance (R174, R188, R418, R419) -/

/-- The matrix engine holds four accepted instructions (R174). -/
def engineFull (s : State) : Bool := decide (4 ≤ (s.core (s.cur / 16)).engine.length)

/-- Accept a matrix-engine instruction under a name of its own. -/
def acceptTile (s : State) (reads writes : List Nat) (kind : TileKind) (sw : Bool) (later : Bool) : State :=
  let (id, s) := s.fresh
  let g := s.grp
  let fpc := g.pc
  let c := s.core (s.cur / 16)
  let s := s.setCore (s.cur / 16) { c with engine := c.engine ++ [(s.cur, id)] }
  let outst := if later then g.outst ++ [⟨id, fpc, .wait, none⟩] else g.outst
  s.retire { g with board := g.board ++ [⟨id, fpc, reads, writes, true, kind⟩], outst := outst } sw

/-- A matrix-engine form: it waits for a place at the engine, and for the scoreboard (R188, R198, R419). -/
def tileForm (s : State) (h : Hdr) (ok : Bool) (reads writes : List Nat) (kind : TileKind) (later : Bool := false) : Out :=
  let g := s.grp
  if !ok then .next (s.regRange (activeSet g h))
  else if engineFull s || (later && outstFull g) then .next (s.stallAt .resource)
  else if writerOf g reads || userOf g writes then .next (s.stallAt .tile)
  else .next (acceptTile s reads writes kind h.sw later)

/-- The bits of quarter q of a mask. -/
def quarterBits (m : W32) (q : Nat) : W8 := m.extractLsb' (8 * q) 8

/-- Every quarter is all set or all clear (R174). -/
def quartersUniform (m : W32) : Bool :=
  (List.range 4).all fun q => quarterBits m q == 0 || quarterBits m q == 0xFF

/-- The performed quarters. -/
def quartersOf (m : W32) : List Nat := (List.range 4).filter fun q => quarterBits m q == 0xFF

/-- MASK code 0x00 (R335). -/
def quarterTrap (s : State) (h : Hdr) : Out := .next (s.trapCur (preciseTrap s.grp 0x06 0x00 (activeSet s.grp h)))

/-! ### Configuration, zeroing and moves (R177, R420 to R422) -/

/-- A configuration value with FMT 7 or a reserved bit (R177). -/
def tcBad (v : W64) : Bool := bitsOf v.toNat 5 3 == 7 || bitsOf v.toNat 2 0 != 0 || bitsOf v.toNat 63 16 != 0

/-- TCSET (R177, R420): it waits for the users of its tile, and a change of shape zeros the tile. -/
def execTcset (o : TcSet) (s : State) : Out :=
  let g := s.grp
  let v := getS g o.sa
  let t := o.td.toNat
  if !(okT g o.td && okS g o.sa) then .next (s.regRange g.em)
  else if tcBad v then .next (s.trapCur (preciseTrap g 0x07 0 g.em))
  else if userOf g [t] then .next (s.stallAt .interlock)
  else
    let keep := bitsOf v.toNat 15 6 == bitsOf (tcWord g o.td).toNat 15 6
    .next (s.retire { g with tc := tset g.tc t v, t := if keep then g.t else memClear g.t (4096 * t) (4096 * t + 4096) } o.sw)

/-- TZERO (R421). -/
def execTzero (o : TZero) (s : State) : Out :=
  let g := s.grp
  tileForm s o.h (okT g o.td) [] [o.td.toNat] (.zero o.td (activeSet g o.h))

/-- TMOV_TV: a tile read, and a variable-latency vector result (R422). -/
def execTmovTv (o : TMov) (s : State) : Out :=
  let g := s.grp
  tileForm s o.h (okT g o.t && okV g o.v) [o.t.toNat] [] (.movTv o (activeSet g o.h)) true

/-- TMOV_VT: a tile write (R422). -/
def execTmovVt (o : TMov) (s : State) : Out :=
  let g := s.grp
  tileForm s o.h (okT g o.t && okV g o.v) [] [o.t.toNat] (.movVt o (activeSet g o.h) (getV g o.v))

/-! ### Matrix multiply (R423 to R429) -/

def isFp8 (t : Ty) : Bool := t == .e4m3 || t == .e5m2

/-- The descriptor register of a `.qd` form (R424). -/
def tmmaDesc (g : Slot) (o : Tmma) : Vec := if isFp8 o.tya then getVn g (o.vs.toNat + 1) else getV g o.vs

/-- The B tile of a quarter (R425). -/
def tmmaB (o : Tmma) (desc : Vec) (q : Nat) : Nat := if o.qd then (lane desc (8 * q)).toNat % 8 else o.tb.toNat

/-- The registers that a dense `tmma` reads are allocated. -/
def tmmaRegs (g : Slot) (o : Tmma) : Bool :=
  okT g o.td && okT g o.ta && (o.qd || okT g o.tb) &&
    (if isFp8 o.tya then okVn g (if o.qd then 2 else 1) o.vs && (o.qd || okS g o.sa) else !o.qd || okV g o.vs)

/-- TMMA (R425): checks in the order of R418. -/
def execTmma (o : Tmma) (s : State) : Out :=
  let g := s.grp
  let m := activeSet g o.h
  let desc := tmmaDesc g o
  let bs := (quartersOf m).map (tmmaB o desc)
  if !tmmaRegs g o then .next (s.regRange m)
  else if !quartersUniform m then quarterTrap s o.h
  else tileForm s o.h (bs.all fun b => decide (b < g.bind.tiles.toNat)) (o.ta.toNat :: bs) [o.td.toNat]
    (.mma o m (getV g o.vs) desc ((getS g o.sa).setWidth 32))

/-- TMMA_SPARSE (R427 to R429). -/
def execTmmaSparse (o : TmmaSparse) (s : State) : Out :=
  let g := s.grp
  let m := activeSet g o.h
  let ok := okT g o.td && decide (o.ta.toNat + 1 < g.bind.tiles.toNat) && okT g o.tb && okVn g 2 o.vs && okS2 g o.sa && okS g o.sb
  if !ok then .next (s.regRange m)
  else if !quartersUniform m then quarterTrap s o.h
  else tileForm s o.h true [o.ta.toNat, o.ta.toNat + 1, o.tb.toNat] [o.td.toNat]
    (.sparse o m (getV g o.vs) (getVn g (o.vs.toNat + 1)) (getS g o.sa) ((getS g (o.sa + 1)).setWidth 32) (getS g o.sb))

/-- TCONV (R430). -/
def execTconv (o : TConv) (s : State) : Out :=
  let g := s.grp
  let m := activeSet g o.h
  if !(okT g o.td && okT g o.ta) then .next (s.regRange m)
  else if !quartersUniform m then quarterTrap s o.h
  else tileForm s o.h true [o.ta.toNat] [o.td.toNat] (.conv o m)

/-- TDRAW (R431, R432). -/
def execTdraw (o : TDraw) (s : State) : Out :=
  let g := s.grp
  let m := activeSet g o.h
  if !(okT g o.td && okT g o.ta && okV g o.vs && okS2 g o.sa && okS g o.sb) then .next (s.regRange m)
  else if !quartersUniform m then quarterTrap s o.h
  else tileForm s o.h true [o.ta.toNat] [o.td.toNat]
    (.draw o m (getV g o.vs) (getS g o.sa) ((getS g (o.sa + 1)).setWidth 32) (getS g o.sb))

/-! ### What the engine computes (R261 to R263, R417, R425, R429, R430, R432) -/

/-- Element j of a tile row, of z bytes (R417). -/
def tileElem (g : Slot) (t row j z : Nat) : Nat := memNat g.t (4096 * t + 128 * row + j * z) z

/-- The exact partial sum, and whether it raises NV (R261). -/
def dotV (ps : List (FVal × FVal)) : FVal × Bool :=
  if ps.any fun p => p.1.isNan || p.2.isNan then (.nan false, ps.any fun p => p.1.isSig || p.2.isSig)
  else
    let ms := ps.map fun p => mulV p.1 p.2
    if ms.any (·.2) then (.nan false, true)
    else
      let pos := ms.any fun m => m.1 == .inf false
      let neg := ms.any fun m => m.1 == .inf true
      if pos && neg then (.nan false, true)
      else if pos then (.inf false, false)
      else if neg then (.inf true, false)
      else match ms with
        | [] => (.fin false 0 0, false)
        | m :: r => (r.foldl (fun a b => (addV .rn a b.1).1) m.1, false)

/-- c + u × P with one rounding (R262). -/
def accStep (c : Nat) (u : FVal) (p : FVal × Bool) : FRes :=
  let cv := fval fp32 c
  let m := mulV u p.1
  let r := addV .rn m.1 cv
  finish fp32 .rn false r.1 (p.2 || m.2 || r.2 || cv.isSig)

/-- The values of a tile row in a format. -/
def rowVals (g : Slot) (t row : Nat) (f : Fmt) (z n : Nat) : List FVal :=
  (List.range n).map fun k => fval f (tileElem g t row k z)

def rowInts (g : Slot) (t row : Nat) : List Int := (List.range 128).map fun k => sgn 8 (tileElem g t row k 1)

/-- An element of the accumulator's row: its 32-bit word. -/
def accWord (g : Slot) (z : Bool) (t row c : Nat) : Nat := if z then 0 else tileElem g t row c 4

/-- A row of words with the flags it raises. -/
structure RowRes where
  row : Nat
  bytes : List W8
  ff : W8 := 0
  iff : W8 := 0
  deriving DecidableEq, Repr

/-- The words of an FP32 accumulator row. -/
def fpRow (row : Nat) (u : FRes) (cs : List FRes) : RowRes :=
  ⟨row, cs.flatMap fun c => leBytes 4 c.bits, cs.foldl (fun f c => f ||| c.fl) u.fl, 0⟩

/-- Row i of a dense `tmma` (R425). -/
def mmaRow (g : Slot) (o : Tmma) (scales desc : Vec) (sb : W32) (q i : Nat) : RowRes :=
  let bt := tmmaB o desc q
  let td := o.td.toNat
  if o.tya = .i8 then
    let a := rowInts g o.ta.toNat i
    let cs := (List.range 32).map fun c => sgn 32 (accWord g o.z td i c) +
      ((a.zip (rowInts g bt c)).foldl (fun s p => s + p.1 * p.2) 0)
    ⟨i, cs.flatMap fun c => leBytes 4 (wrapN 32 c), 0,
     if cs.any fun c => decide (tyMax .i32 < c) || decide (c < tyMin .i32) then iOV else 0⟩
  else
    let fa := (tyFmt o.tya).getD fp32
    let fb := (tyFmt o.tyb).getD fp32
    let (z, n) := if isFp8 o.tya then (1, 128) else (2, 64)
    let sbq := if o.qd then lane desc (8 * q + 1) else sb
    let u : FRes := if isFp8 o.tya then mulF .rn false (lane scales i).toNat sbq.toNat else ⟨0x3F800000, 0⟩
    let a := rowVals g o.ta.toNat i fa z n
    fpRow i u ((List.range 32).map fun c =>
      accStep (accWord g o.z td i c) (fval fp32 u.bits) (dotV (a.zip (rowVals g bt c fb z n))))

/-- The kept values of row c in a k-block, each with its position in that k-block (R277, R428). -/
def keptVals (g : Slot) (tb c : Nat) (f : Fmt) (seed base : W64) (kb : Nat) : List (Nat × FVal) :=
  (List.range 32).flatMap fun j =>
    let cc := 4 * kb + j / 8
    let quad := j % 8
    let p := keptPair (patternOf seed base c cc quad)
    let b := 16 * cc + 2 * quad
    let k := 32 * (j / 8) + 4 * quad
    [(k + p.1, fval f (tileElem g tb c b 1)), (k + p.2, fval f (tileElem g tb c (b + 1) 1))]

/-- One seeded-sparse quarter operation on one element (R429). -/
def sparseStep (g : Slot) (o : TmmaSparse) (seed base : W64) (i c kb : Nat) (u : FRes) (acc : FRes) : FRes :=
  let fa := (tyFmt o.tya).getD fp32
  let fb := (tyFmt o.tyb).getD fp32
  let ps := (keptVals g o.tb.toNat c fb seed base kb).map fun p => (fval fa (tileElem g (o.ta.toNat + kb) i p.1 1), p.2)
  let r := accStep acc.bits (fval fp32 u.bits) (dotV ps)
  ⟨r.bits, acc.fl ||| r.fl⟩

/-- Row i of `tmma.sparse` (R429). -/
def sparseRow (g : Slot) (o : TmmaSparse) (s0 s1 : Vec) (seed : W64) (sb : W32) (base : W64) (i : Nat) : RowRes :=
  let u0 := mulF .rn false (lane s0 i).toNat sb.toNat
  let u1 := mulF .rn false (lane s1 i).toNat sb.toNat
  fpRow i ⟨0, u0.fl ||| u1.fl⟩ ((List.range 32).map fun c =>
    sparseStep g o seed base i c 1 u1 (sparseStep g o seed base i c 0 u0 ⟨accWord g o.z o.td.toNat i c, 0⟩))

/-- The type and the size of a FMT code (R177, R417). -/
def fmtTy : Nat → Ty
  | 0 => .e4m3
  | 1 => .e5m2
  | 2 => .bf16
  | 3 => .f16
  | 4 => .f32
  | 5 => .i8
  | _ => .i32

/-- Row i of `tconv` (R430): its elements converted from the format of tA to that of tD. -/
def convRow (g : Slot) (o : TConv) (i : Nat) : RowRes :=
  let ca := tcWord g o.ta
  let cd := tcWord g o.td
  let ta := fmtTy (tcFmt ca)
  let td := fmtTy (tcFmt cd)
  let za := tyWidth ta / 8
  let zd := tyWidth td / 8
  let n := min (tcWidth ca / za) (tcWidth cd / zd)
  if tcFmt ca = tcFmt cd then ⟨i, tileRow g o.ta.toNat i (n * za), 0, 0⟩
  else
    let rs := (List.range n).map fun j => convert td ta o.rm o.sat (tileElem g o.ta.toNat i j za)
    ⟨i, rs.flatMap fun r => leBytes zd r.bits.toNat, rs.foldl (fun f r => f ||| r.ff) 0, rs.foldl (fun f r => f ||| r.iff) 0⟩

/-- Row i of `tdraw` (R432). -/
def drawRow (g : Slot) (o : TDraw) (temps : Vec) (key : W64) (ofs : W32) (base : W64) (i : Nat) : RowRes :=
  let ca := tcWord g o.ta
  let ls := (List.range 32).map fun c =>
    if i < tcRows ca && c < tcWidth ca / 4 then some (BitVec.ofNat 32 c + ofs, tileElem g o.ta.toNat i c 4) else none
  let rec_ := canonRec (drawTree key (base + BitVec.ofNat 64 (64 * i)) 5 0 (leaves (lane temps i).toNat ls))
  ⟨i, (rec_.words.flatMap fun w => leBytes 4 w.toNat) ++ List.replicate 112 0, 0, 0⟩

def quarterRows (m : W32) : List (Nat × Nat) :=
  (quartersOf m).flatMap fun q => (List.range 8).map fun j => (q, 8 * q + j)

/-- The rows that a tile instruction writes, and its tile. -/
def tileRows (g : Slot) (kind : TileKind) : Nat × List RowRes :=
  match kind with
  | .load _ => (0, [])
  | .zero t m => (t.toNat, (lanesOf m).map fun i => ⟨i, List.replicate 128 0, 0, 0⟩)
  | .mma o m sc d sb => (o.td.toNat, (quarterRows m).map fun qi => mmaRow g o sc d sb qi.1 qi.2)
  | .sparse o m s0 s1 seed sb base => (o.td.toNat, (quarterRows m).map fun qi => sparseRow g o s0 s1 seed sb base qi.2)
  | .conv o m =>
    (o.td.toNat, ((quarterRows m).filter fun qi =>
      decide (qi.2 < min (tcRows (tcWord g o.ta)) (tcRows (tcWord g o.td)))).map fun qi => convRow g o qi.2)
  | .draw o m temps key ofs base => (o.td.toNat, (quarterRows m).map fun qi => drawRow g o temps key ofs base qi.2)
  | .movTv _ _ => (0, [])
  | .movVt _ _ _ => (0, [])

/-- Write rows of a tile, with their flags in the lanes of their numbers (R260). -/
def writeRows (g : Slot) (t : Nat) (rs : List RowRes) : Slot :=
  let g' := { g with t := rs.foldl (fun m (r : RowRes) => memStore m (4096 * t + 128 * r.row) r.bytes) g.t }
  let at_ := fun (i : Nat) => rs.find? fun r => r.row == i
  raise g' 0xFFFFFFFF (genVec fun i => ((at_ i).map (·.ff)).getD 0) (genVec fun i => ((at_ i).map (·.iff)).getD 0)

/-- The effect of a matrix-engine instruction when it retires. -/
def tileEffect (g : Slot) (b : TileOp) : Slot :=
  match b.kind with
  | .movTv o m =>
    let v : Vec := genVec fun i => BitVec.ofNat 32 (tileElem g o.t.toNat i o.w.toNat 4)
    { g with outst := g.outst.map fun x => if x.id == b.id then { x with res := some { vw := [⟨o.v, m, v⟩] } } else x }
  | .movVt o m v =>
    { g with t := (lanesOf m).foldl (fun r i =>
        memStore r (4096 * o.t.toNat + 128 * i + 4 * o.w.toNat) (leBytes 4 (lane v i).toNat)) g.t }
  | k => writeRows g (tileRows g k).1 (tileRows g k).2

/-- A tile load moves its rows, unless they are poisoned (R225, R402); an ended group, which does not wait for its tile results, takes
no trap (R157, R183, R367, log 27: DEDUCED). -/
def retireLoad (s : State) (k : Nat) (b : TileOp) (m : MemOp) : State :=
  let (t, w) := match m.kind with
    | .tload t w => (t.toNat, w)
    | _ => (0, 0)
  let s := touchLines s (k / 16) (linesOf w m.lanes)
  let g := s.slot k
  let board := g.board.filter fun x => x.id != b.id
  match poisonFault s k b.fpc m.obj w m.lanes with
  | some tr =>
    let g : Slot := { g with board := board }
    s.setSlot k (if groupGone g || g.bind.sstate == .retiring then g else joinFault g b.id tr)
  | none =>
    let put (r : Mem) (x : LaneOp) : Mem := memStore r (4096 * t + 128 * x.lane) (laneBytes s k x.addr w)
    s.setSlot k { g with board := board, t := m.lanes.foldl put g.t }

/-- An accepted tile instruction completes and retires (R187, R188, R260): tile loads in any order, and the matrix engine
in its acceptance order (R174). -/
def retireTile (s : State) (k id : Nat) : State :=
  let g := s.slot k
  match g.board.find? fun b => b.id == id with
  | none => s
  | some b =>
    match b.kind with
    | .load m => if performable g id && readsFirst g id m then settle (retireLoad s k b m) k else s
    | _ =>
      let c := s.core (k / 16)
      if c.engine.head? = some (k, id) then
        let s := s.setCore (k / 16) { c with engine := c.engine.tail }
        let g := tileEffect g b
        settle (s.setSlot k { g with board := g.board.filter fun x => x.id != id }) k
      else s

/-- TILE_INSTRUCTION_RETIRE (R187). -/
def execTileInstructionRetire (s : State) : Out :=
  .next (retireTile s (slotKey s.arg.die.toNat s.arg.core.toNat s.arg.slot.toNat) s.arg.idx)

end Sys2Proof.Machine
end

