-- ==== Sys2Proof/Machine/Results.lean ====
section
/-! DEFINITION. Results on their way back to a group (R185, R186), publishes and atomics at the memory points (R235, R240),
and the answers to queue operations (R46, R47, R71 to R75). -/
namespace Sys2Proof.Machine

/-- The slot that an event names. -/
def argSlot (s : State) : Nat := slotKey s.arg.die.toNat s.arg.core.toNat s.arg.slot.toNat

def argCore (s : State) : Nat := coreKey s.arg.die.toNat s.arg.core.toNat

/-! ### Results (R185, R186) -/

/-- An operation performs, where a result comes from performing here: its result and the state. -/
def performOp (s : State) (k : Nat) (o : Outst) : Option Result × State :=
  let g := s.slot k
  match o.op with
  | .mem m => if readsFirst g o.id m then performMem s k o.fpc m else (none, s)
  | .expert kind xs act =>
    let (r, s) := performExpert s k o.fpc kind xs act
    (some r, s)
  | .tlrd d tl => (some { sw := [(d, tget (s.block (leadOf k g)).tl tl.toNat 0)] }, s)
  | .qcurrd d w => (some { sw := [(d, tget g.cursor w 0)] }, s)
  | .wait | .claim _ _ _ | .queue _ => (none, s)

/-- The lanes of a mask are written; what remains of the result. -/
def writeLanes (g : Slot) (r : Result) (lanes : W32) : Slot × Result :=
  (r.vw.foldl (fun (g : Slot) (w : VWrite) => setVn g w.reg.toNat (w.mask &&& lanes) w.val) g,
   { r with vw := (r.vw.map fun (w : VWrite) => { w with mask := w.mask &&& ~~~lanes }).filter fun w => w.mask != 0 })

/-- The result is whole: its scalar writes, its flags and its fault reach the group (R185, R186, R280). -/
def finishResult (s : State) (k : Nat) (g : Slot) (o : Outst) (r : Result) : State :=
  let g := r.sw.foldl (fun (g : Slot) (p : SReg × W64) => setS g p.1 p.2) g
  let g := raise g 0xFFFFFFFF r.ff r.iff
  let g : Slot := { g with outst := g.outst.filter fun x => x.id != o.id }
  let g := match r.fault with
    | some t => joinFault g o.id t
    | none => g
  settle (s.setSlot k g) k

/-- Some lanes of a result are written, and it ends with the last of them; an empty mask writes nothing. -/
def returnLanes (s : State) (k : Nat) (o : Outst) (r : Result) (lanes : W32) : State :=
  let g := s.slot k
  if lanes = 0 then settle (s.setSlot k (setOutst g { o with res := some r })) k
  else
    let (g, r') := writeLanes g r lanes
    if r'.vw.isEmpty then finishResult s k g o r' else s.setSlot k (setOutst g { o with res := some r' })

/-- An operation that a phase instruction holds back (R238): the memory accesses and queue operations after it, and not what only its
result orders (R438). -/
def behindPhase (g : Slot) (o : Outst) : Bool :=
  match o.op with
  | .mem _ | .queue _ => !performable g o.id
  | .expert _ _ _ | .tlrd _ _ | .qcurrd _ _ | .wait | .claim _ _ _ => false

/-- RESULT_RETURN (R185, R186): an operation that may perform does so, and the lanes that the event names are written. -/
def execResultReturn (s : State) : Out :=
  let k := argSlot s
  let g := s.slot k
  match g.outst.find? fun o => o.id == s.arg.idx with
  | none => .next s
  | some o =>
    match o.res with
    | some r => .next (returnLanes s k o r s.arg.lanes)
    | none =>
      if behindPhase g o then .next s
      else match performOp s k o with
        | (none, _) => .next s
        | (some r, s) => .next (returnLanes s k o r s.arg.lanes)

/-! ### Publishes (R235) -/

/-- A line of a core has been accepted: the publishes that waited for it go on, and so do dispatches (R455). -/
def lineAccepted (s : State) (ck line : Nat) : State :=
  (coreSlots ck).foldl (fun s k =>
    let g := s.slot k
    if g.pubs.any fun p => p.1 == line then
      let s := settle (s.setSlot k { g with pubs := g.pubs.filter fun p => p.1 != line }) k
      let d := slotDie k
      ((s.die d).dispatches.filter fun x => x.slot == k).foldl (fun s x => dispRun s d x.id) s
    else s) s

/-- PUBLISH_LINE_ACCEPT (R235): a slice accepts in one step every byte of the line that the publishing groups of the core
have stored. -/
def execPublishLineAccept (s : State) : Out :=
  let ck := argCore s
  let line := s.arg.addr
  let pub := (List.range 16).filter fun i => (s.slot (ck * 16 + i)).pubs.any fun p => p.1 == line
  .next (if pub.isEmpty then s else lineAccepted (acceptLine s ck line pub) ck line)

/-! ### Atomics (R240, R241, R401) -/

/-- Nothing of the group must come first: earlier atomics of the group on the location, and lower lanes of this one. -/
def atomTurn (g : Slot) (id : Nat) (m : MemOp) (x : LaneOp) : Bool :=
  readsFirst g id { m with lanes := [x] } &&
    m.lanes.all fun y => y.addr != x.addr || decide (x.lane ≤ y.lane) || m.got.any fun p => p.1 == y.lane

/-- A lane performs; with the last lane the result is ready. -/
def atomLane (s : State) (k : Nat) (o : Outst) (m : MemOp) (op : AtomOp) (ty : Ty) (ret : Option VReg) (x : LaneOp) : State :=
  let (old, s) := atomPoint s k op ty x
  let m : MemOp := { m with got := m.got ++ [(x.lane, old)] }
  let res := if m.lanes.length ≤ m.got.length then some (atomResult ret m.got) else none
  settle (s.setSlot k (setOutst (s.slot k) { o with op := .mem m, res := res })) k

/-- The trap of an atomic whose unperformed lanes meet poison (R225). -/
def atomPoison (s : State) (k : Nat) (o : Outst) (m : MemOp) : Option Trap :=
  match poisonedLanes s k (m.lanes.filter fun x => !(m.got.any fun p => p.1 == x.lane)) with
  | [] => none
  | x :: r => some (memTrap o.fpc 0x38 (maskOf fun l => (x :: r).any fun b => b.lane == l) (objAddr m.obj x.off))

/-- ATOMIC_PERFORM (R240, R241, R401): a lane's read-modify-write at its memory point. An atomic that meets poison in the lanes
still to perform raises MEMUE for them, and performs in no further lane (R215, R225, log 96: DEDUCED). -/
def execAtomicPerform (s : State) : Out :=
  let k := argSlot s
  let g := s.slot k
  match g.outst.find? fun o => o.id == s.arg.idx && o.res.isNone with
  | none => .next s
  | some o =>
    match o.op with
    | .mem m =>
      (match m.kind, m.lanes.find? fun x => x.lane == s.arg.lanes.toNat with
       | .atom op ty ret, some x =>
         if m.scr || !performable g o.id || !atomTurn g o.id m x || m.got.any fun p => p.1 == x.lane then .next s
         else match atomPoison s k o m with
           | some t => .next (settle (s.setSlot k (setOutst g { o with res := some (faultResult t) })) k)
           | none => .next (atomLane s k o m op ty ret x)
       | _, _ => .next s)
    | _ => .next s

/-! ### Echoes (R74, R75) -/

/-- The ticks of a limiter that have fallen due, all at once: 8 more units for each window of 10 µs without an echo (R75). -/
def dueTicks (s : State) (l : Limiter) : Limiter :=
  let n := (s.time - l.tickAt) / 10000
  let last := l.tickAt + 10000 * n
  let loud := ((l.echoes.filter fun e => decide (l.tickAt < e) && decide (e ≤ last)).map fun e => (e - l.tickAt - 1) / 10000).eraseDups
  if n = 0 then l
  else { credited s l with tickAt := last, units := min (l.units + 8 * (n - loud.length)) 512, echoes := l.echoes.filter fun e => decide (last < e) }

/-- An ECHO reaches the rate limiter of a die for a package, behind the ticks that come before it (R75). -/
def onEcho (s : State) (die : Nat) (pkg : BitVec 9) : State :=
  let k := limKey die pkg
  let l := dueTicks s (s.limiter k)
  let cut := match l.lastCut with
    | none => true
    | some t => decide (t + s.fabric.rttw.toNat * 1000 ≤ s.time)
  let l := { credited s l with echoes := l.echoes ++ [s.time] }
  s.setLimiter k (if cut then { l with units := max (l.units / 2) 1, lastCut := some s.time } else l)

def heard (s : State) (f : Flow) (m : Msg) : State := if m.echo then onEcho s f.ddie.toNat f.spkg else s

/-! ### Answers at the source (R46, R47, R73) -/

/-- A resident operation by its context: its slot, and the queue operation. -/
def findOp (s : State) (ctx op : Nat) : Option (Nat × Outst × QOp) :=
  s.slots.findSome? fun e =>
    if e.2.ctx = ctx ∧ e.2.bind.sstate ≠ .empty then
      (e.2.outst.find? fun o => o.id == op).bind fun o => match o.op with
        | .queue q => some (e.1, o, q)
        | _ => none
    else none

def setQop (s : State) (k : Nat) (o : Outst) (q : QOp) : State := s.setSlot k (setOutst (s.slot k) { o with op := .queue q })

/-- The operation has its result. -/
def opDone (s : State) (k : Nat) (o : Outst) (q : QOp) (m : Msg) : State :=
  settle (s.setSlot k (setOutst (s.slot k) { o with res := some (opResult q o.fpc m.code m.seq m.ticket m.data) })) k

/-- The answer to a merge release, with the refusal by a switch of a MERGE that came before it (R78, R448, log 100: DESIGN CHOICE). -/
def withRefusal (s : State) (f : Flow) (q : QOp) (m : Msg) : Msg × State :=
  let fwd := revFlow f
  let x := s.flow fwd
  let at_ := (pqPort q.pqid, pqQueue q.pqid)
  if q.kind = .relMrg ∧ x.refusedMerge.contains at_ then
    ({ m with code := 0x18 }, s.setFlow fwd { x with refusedMerge := x.refusedMerge.filter (· != at_) })
  else (m, s)

/-- A REPLY to a group's operation (R73): it sleeps at the home, or parks at its core for want of an entry (R46), or has its
result. -/
def groupReply (s : State) (f : Flow) (m : Msg) (k : Nat) (o : Outst) (q : QOp) : State :=
  if m.code = codeAsleep then
    let s := setQop s k o { q with st := .asleep (revFlow f) (BitVec.ofNat 4 (m.seq.toNat / 4096)) (m.seq.toNat % 4096) }
    s.setSlot k (sleepIfDraining (s.slot k))
  else if m.code = codeNoEntry then
    let s := setQop s k o { q with st := .parked ((s.die (slotDie k)).clock.toNat + 1024) }
    s.setSlot k (sleepIfDraining (s.slot k))
  else
    let (m, s) := withRefusal s f q m
    opDone s k o q m

/-- The answer to an aperture's push waits to be written (R91). -/
def apertureAnswer (s : State) (t k : Nat) (code : W8) : State :=
  let i := s.iface t
  let a := tget i.apertures k {}
  s.setIface t { i with apertures := tset i.apertures k { a with result := some code } }

/-- An answer of this package to a context that has been killed is counted in LATE (R58), and what the home has done for its operation
meanwhile is undone: its sleeper entry is gone, and its Granted slots are Void (R47, R56, R158). -/
def lateReply (s : State) (f : Flow) (port ctx : Nat) : State :=
  let d := f.ddie.toNat
  if contextLives s d ctx then s
  else
    let s := addLate s d port
    if f.spkg = s.pkgid then voidOwned (dropSleepers s ctx) ctx else s

/-- A REPLY reaches whoever asked; one for a context that has been killed is counted in LATE (R58). -/
def deliverReply (s : State) (f : Flow) (m : Msg) (who : Requester) : State :=
  let die := f.ddie.toNat
  match who with
  | .group ctx op => (match findOp s ctx op with
    | some (k, o, q) => groupReply s f m k o q
    | none => lateReply s f m.port.toNat ctx)
  | .dispatch d id => (match s.disp d id with
    | some x => dispReply s d x m
    | none => addLate s die m.port.toNat)
  | .fetch d id => (match s.fetch d id with
    | some x => fetchReserved s d x m.code m.seq
    | none => s)
  | .aperture t k => apertureAnswer s t k m.code
  | .notice d => if m.code = 0 then s else s.setDie d { s.die d with nqFail := (s.die d).nqFail + 1 }
  | .none => s

/-- A REPLY or an ACK frees the place of its request at the source (R69). -/
def freePlace (s : State) (f : Flow) (fseq : W16) : State :=
  let fwd := revFlow f
  let x := s.flow fwd
  releaseHeld (s.setFlow fwd { x with answers := x.answers.filter fun a => a.fseq != fseq }) fwd (x.held.length + 1)

/-- What an answer from another package says about grants and abandoned sleepers: an operation that fell asleep after its context was
killed is left behind there (R47, R158). -/
def remoteAnswer (s : State) (a : Asked) (f : Flow) (m : Msg) : State :=
  match a.who with
  | .group c _ =>
    if a.typ = .reserve ∧ m.code = 0 then noteGrant s f.ddie.toNat ⟨c, revFlow f, a.port, a.queue, a.tenant, m.ticket, a.dev⟩
    else if m.code = codeAsleep ∧ !contextLives s f.ddie.toNat c then
      leaveEntry s (revFlow f) a.port a.queue a.tenant (m.seq.toNat % 4096) (a.typ == .reserve || a.typ == .push) a.dev
    else s
  | .none =>
    if a.typ = .sleep ∧ m.code = 0x03 then
      { s with orphans := s.orphans.filter fun x => !(x.flow == revFlow f && x.port == a.port && x.entry == a.entry) }
    else s
  | _ => s

/-- REPLY_RECEIVE (R73): a REPLY from another package is matched by the FSEQ of its request. -/
def execReplyReceive (s : State) : Out :=
  onArrival s (fun m => m.typ == .reply) fun s m =>
    let f := s.arg.flow
    if f.spkg = s.pkgid then deliverReply s f m m.ctx
    else
      let s := heard s f m
      match (s.flow (revFlow f)).answers.find? fun a => a.fseq.toNat == m.num with
      | none => s
      | some a => freePlace (deliverReply (remoteAnswer s a f m) f m a.who) f a.fseq

/-- Who sleeps on an entry of a home in another package. -/
def remoteSleeper (s : State) (f : Flow) (m : Msg) : Requester :=
  let die := f.ddie.toNat
  let at_ : QState := .asleep (revFlow f) m.port m.entry
  match s.slots.findSome? fun e => if slotDie e.1 = die then
      (e.2.outst.find? fun o => match o.op with
        | .queue q => q.st == at_
        | _ => false).map fun o => (e.2.ctx, o.id)
    else none with
  | some (c, o) => .group c o
  | none =>
    match (s.die die).dispatches.find? fun x => x.asleep == some (revFlow f, m.port, m.entry) with
    | some x => .dispatch die x.id
    | none => .none

/-- A wake for a context that a save has put away stays with what the context will issue again (R47, log 13: DEDUCED). -/
def wakeSaved (s : State) (f : Flow) (m : Msg) : State :=
  let die := f.ddie.toNat
  let at_ : QState := .asleep (revFlow f) m.port m.entry
  let x := s.die die
  let known := (x.saved.any fun v => v.slept.any fun p => p.2.st == at_) ||
    s.slots.any fun e => slotDie e.1 == die && e.2.slept.any fun q => q.st == at_
  if known then noteAway s die (fun _ => true) at_ (m.code, m.seq.setWidth 64, m.ticket)
  else match s.orphans.find? fun x => x.flow == revFlow f && x.port == m.port && x.entry == m.entry with
    | none => addLate s die m.port.toNat
    | some x =>
      let s := addLate { s with orphans := s.orphans.erase x } die m.port.toNat
      if ticketN m.ticket = 0 then s else voidRemote s ⟨0, x.flow, x.port, x.queue, x.tenant, m.ticket, x.dev⟩

/-- A WAKE reaches a resident operation (R45, R47): it stays pending on a halted die (R48); a group that its sleep has stopped keeps it
for its restore (R164), and its entry in this package keeps a wake that is no status; a blocking dequeue is issued anew; any other
operation ends with it. -/
def groupWake (s : State) (f : Flow) (m : Msg) (k : Nat) (o : Outst) (q : QOp) : State :=
  if (s.die (slotDie k)).halted.isSome then setQop s k o { q with woken := some (m.code, m.seq.setWidth 64, m.ticket) }
  else if (s.slot k).sleepStop then
    if f.spkg ≠ s.pkgid then setQop s k o { q with woken := some (m.code, m.seq.setWidth 64, m.ticket) }
    else if m.code = 0 then s
    else (setQop s k o { q with woken := some (m.code, 0, 0) }).dropSleeper (portKey f.sdie.toNat m.port.toNat) m.entry
  else
    let s := if f.spkg = s.pkgid then s.dropSleeper (portKey f.sdie.toNat m.port.toNat) m.entry else s
    if q.kind = .get ∧ m.code = 0 then sendHeld (setQop s k o { q with st := .held }) k else opDone s k o q m

/-- A WAKE reaches whoever slept. -/
def deliverWake (s : State) (f : Flow) (m : Msg) (who : Requester) : State :=
  let drop (s : State) : State :=
    if f.spkg = s.pkgid then s.dropSleeper (portKey f.sdie.toNat m.port.toNat) m.entry else s
  match who with
  | .group _ 0 => s
  | .group ctx op => (match findOp s ctx op with
    | some (k, o, q) => groupWake s f m k o q
    | none => if contextLives s f.ddie.toNat ctx then s else addLate s f.ddie.toNat m.port.toNat)
  | .dispatch d id => (match s.disp d id with
    | some x => if x.withdrawn && decide (f.spkg = s.pkgid) then s else dispWake (drop s) d x m
    | none => addLate (drop s) f.ddie.toNat m.port.toNat)
  | .fetch d id => (match s.fetch d id with
    | some x => fetchReserved (drop s) d x m.code m.seq
    | none => drop s)
  | _ => drop s

/-- The wakes that have stayed pending while a die was halted reach their operations (R48). -/
def pendingWakes (s : State) (d : Nat) : State :=
  ((s.slots.map (·.1)).filter fun k => slotDie k == d).foldl (fun s k => (s.slot k).outst.foldl (fun s o =>
    match o.op with
    | .queue q => (match q.woken, q.st with
      | some (c, seq, t), .asleep f port entry =>
        if o.res.isSome then s
        else
          let q : QOp := { q with woken := none }
          groupWake (setQop s k o q) (revFlow f)
            { typ := .wake, code := c, seq := seq.setWidth 48, ticket := t, port := port, entry := entry } k o q
      | _, _ => s)
    | _ => s) s) s

/-- A resident context of the device tenant (R103). -/
def devContext (s : State) (ctx : Nat) : Bool := s.slots.any fun e => e.2.ctx == ctx && s.reserved e.2.bind.asid

/-- The grant that a WAKE from another package brings to a resident reservation. -/
def wakeGrant (s : State) (f : Flow) (m : Msg) (who : Requester) : State :=
  match who with
  | .group c op => (match findOp s c op with
    | some (_, _, q) => if q.kind = .res ∧ m.code = 0 then noteGrant s f.ddie.toNat (grantOf (revFlow f) c q m.ticket (devContext s c)) else s
    | none => s)
  | _ => s

/-- WAKE_RECEIVE (R45, R47, R73). -/
def execWakeReceive (s : State) : Out :=
  onArrival s (fun m => m.typ == .wake) fun s m =>
    let f := s.arg.flow
    if f.spkg = s.pkgid then deliverWake s f m m.ctx
    else
      let s := heard s f m
      match remoteSleeper s f m with
      | .none => wakeSaved s f m
      | who => deliverWake (wakeGrant s f m who) f m who

/-- SLEEPER_PARK_RETRY (R46): operations that found no sleeper entry are issued again, 1,024 cycles later; a halted die issues
none (R48). -/
def execSleeperParkRetry (s : State) : Out :=
  let k := argSlot s
  let g := s.slot k
  let d := slotDie k
  let now := (s.die d).clock.toNat
  if g.sleepStop || (s.die d).halted.isSome then .next s
  else
    let back (o : Outst) : Outst := match o.op with
      | .queue q => (match q.st with
        | .parked t => if t ≤ now then { o with op := .queue { q with st := .held } } else o
        | _ => o)
      | _ => o
    let s := sendHeld (s.setSlot k { g with outst := g.outst.map back }) k
    .next (((s.die d).dispatches.filter fun x => x.slot == k && x.parked && !((s.die d).faults.any fun r => r.disp == some x.id)).foldl
      (fun s x => dispRun s d x.id) s)

/-! ### Flushes (R71, R72, R453) -/

/-- A flush has returned: the fences that waited for it go on. -/
def flushReturned (s : State) (fwd : Flow) (num : Nat) : State :=
  let x := s.flow fwd
  let s := s.setFlow fwd { x with flushes := x.flushes.filter fun u => u.num != num }
  (s.slots.map (·.1)).foldl (fun s k =>
    let g := s.slot k
    match g.fence with
    | none => s
    | some c =>
      if slotDie k = fwd.sdie.toNat ∧ c.waits.contains (fwd, num) then
        let ws := c.waits.erase (fwd, num)
        if ws.isEmpty then sendHeld (s.setSlot k { g with fence := none }) k
        else s.setSlot k { g with fence := some { c with waits := ws } }
      else s) s

end Sys2Proof.Machine
end

