-- ==== Sys2Proof/Machine/Issue.lean ====
section
/-! DEFINITION. The choice of a group and the fetch of its instruction (R166, R169, R280, R298, R314), and the passage of
time on a die (R16, R160, R197). -/
namespace Sys2Proof.Machine

/-! ### Time -/

/-- A countdown runs for `n` cycles from clock `c`: the expiries, one each period, and what is left (R197). -/
def countDown (x : Sampling) (period c n : Nat) : Sampling :=
  if n < x.countdown then { x with countdown := x.countdown - n }
  else
    { x with countdown := period - (n - x.countdown) % period,
             due := x.due ++ (List.range ((n - x.countdown) / period + 1)).map fun i => c + x.countdown + period * i }

/-- Cycles pass on a die: its clock counts them, slots that hold a group are charged for them, and armed cores count down,
unless the die is halted (R160, R171, R178, R197). -/
def cycles (s : State) (d n : Nat) : State :=
  let x := s.die d
  let s := s.setDie d { x with clock := x.clock + BitVec.ofNat 64 n }
  if n = 0 ∨ x.halted.isSome then s
  else
    { s with
      slots := s.slots.map fun e =>
        if slotDie e.1 = d ∧ e.2.bind.sstate ≠ .empty ∧ e.2.bind.sstate ≠ .ready then
          (e.1, { e.2 with bind := { e.2.bind with cyc := e.2.bind.cyc + n } })
        else e
      cores := s.cores.map fun e =>
        if e.1 / 160 = d then
          (e.1, { e.2 with samp := e.2.samp.map fun p => (p.1, countDown p.2 (s.iface p.1).smpPeriod.toNat x.clock.toNat n) })
        else e }

/-- The compute die of a socket's home, if it has one (R10, R12). -/
def socketDie (k : Nat) : Option Nat :=
  if k < 8 then some k else if k < 16 then some (k - 8) else if k < 32 then some ((k - 16) / 2) else none

/-- A socket that the lehr brings up: its home's compute die is present (R13, R20). -/
def socketPresent (s : State) (k : Nat) : Bool :=
  match socketDie k with
  | some d => s.mgmt.present.getLsbD d
  | none => decide (k < 34)

/-- A compute die is out of reset (R20, R178). -/
def released (s : State) (d : Nat) : Bool :=
  s.mgmt.present.getLsbD d && match s.lehr with
    | .stageA => false
    | .stageB k => decide (d < k)
    | _ => true

/-- The cycles of a die's clock in a span of time, at its operating point, once it is out of reset (R15, R16, R178). -/
def cyclesIn (s : State) (d ns : Nat) : Nat :=
  let f := Config.pointMHz (s.die d).cur.toNat
  if released s d then (s.time + ns) * f / 1000 - s.time * f / 1000 else 0

/-- The dies' clocks, and nanoseconds, pass. -/
def passCycles (s : State) (ns : Nat) : State :=
  let s' := (List.range 8).foldl (fun x d => cycles x d (cyclesIn s d ns)) s
  { s' with time := s.time + ns }

/-! ### Readiness (R169) -/

/-- An operation of the group sleeps at a home, or is parked for want of a sleeper entry (R44, R46). -/
def asleep (g : Slot) : Bool := g.outst.any fun o => match o.op with
  | .queue q => o.res.isNone && (match q.st with
    | .asleep _ _ _ => true
    | .parked _ => true
    | _ => false)
  | _ => false

/-- The wait of a group in `twait` is satisfied (R190, R413), or the group is to stop at it (R164). -/
def waitOver (s : State) (k : Nat) (g : Slot) : Bool :=
  match g.twait with
  | none => true
  | some (tl, n) => g.bind.sstate == .draining || tlReached (tget (s.block (leadOf k g)).tl tl.toNat 0) n.toNat

/-- A group that its core may issue from (R164, R169, R171, R185, R186). -/
def slotReady (s : State) (k : Nat) : Bool :=
  let g := s.slot k
  (g.bind.sstate == .running || (g.bind.sstate == .draining && !g.stopped)) && (s.core (k / 16)).awake &&
    (s.die (slotDie k)).halted.isNone && !g.exiting && g.pend.isNone && g.dfault.isNone &&
    !(g.marked && !g.outst.isEmpty) && g.barrier.isNone && g.fpark.isNone && !asleep g && waitOver s k g

/-- The earlier of two groups: one that has never issued counts as oldest, and ties go to the lowest slot (R169). -/
def older (a b : Slot) : Bool :=
  match a.last, b.last with
  | none, _ => true
  | some _, none => false
  | some x, some y => decide (x ≤ y)

/-- The group that a core issues from, among those that have not been found to wait at issue in this cycle. -/
def pickGroup (s : State) (ck : Nat) (tried : List Nat) : Option Nat :=
  match (coreSlots ck).filter fun k => slotReady s k && !tried.contains k with
  | [] => none
  | k :: r => some (r.foldl (fun b j => if older (s.slot b) (s.slot j) then b else j) k)

/-! ### Fetch (R280, R292, R298, R314) -/

/-- The bits of a line word that its check reads. -/
def lineReserved (line : List W8) : Bool := bitsOf (lineWord line) 31 20 != 0
def lineVer (line : List W8) : Nat := bitsOf (lineWord line) 19 17

def isSafept : Instr → Bool
  | .safept _ => true
  | _ => false

/-- The bound trap comes before the instruction (R166); an instruction that goes on with unfinished lanes has been
counted. -/
def boundDue (g : Slot) (i : Except Reject Instr) : Bool :=
  decide (8192 ≤ g.count) && g.replay.isNone && !(match i with
    | .ok i => isSafept i
    | .error _ => false)

/-- Errors of the fetches of the group at `cur` count: `c` failed fetches, and `u` lines that trap (R229, R292). -/
def countFetch (s : State) (c u : Nat) : State :=
  let d := slotDie s.cur
  let x := s.die d
  let up (c : W16) (n : Nat) : W16 := if 0xFFFF < c.toNat + n then 0xFFFF else c + BitVec.ofNat 16 n
  s.setDie d { x with cecc := up x.cecc c, uecc := up x.uecc u }

/-- The three failed fetches of a line, and the trap (R229, R292). -/
def countParity (s : State) : State := countFetch s 3 1

/-- How many of the next fetches of a line by a core fail (R292). -/
def flawOf (s : State) (ck asid : Nat) (line : W64) : Nat :=
  match (s.core ck).flaws.find? fun f => f.1 == asid && f.2.1 == line with
  | some f => f.2.2
  | none => 0

/-- The errors of a line have been met. -/
def dropFlaw (s : State) (ck asid : Nat) (line : W64) : State :=
  let c := s.core ck
  s.setCore ck { c with flaws := c.flaws.filter fun f => !(f.1 == asid && f.2.1 == line) }

/-- The fetch of a group's line that fails once or twice and then reads good: the failed fetches count, and the group goes
on (R292). Nothing is fetched where the translation refuses the line, and a line whose stored bytes are bad fails every time. -/
def refetch (s : State) : State :=
  let g := s.grp
  let asid := g.bind.asid.toNat
  let n := flawOf s (s.cur / 16) asid (lineOf g.pc)
  if n = 0 || decide (3 ≤ n) || (fetchFault s (slotDie s.cur) asid g.pc).isSome || !parityOk (fetchLine s (slotDie s.cur) asid g.pc) then s
  else countFetch (dropFlaw s (s.cur / 16) g.bind.asid.toNat (lineOf g.pc)) n 0

/-- The line that the group at `cur` fetches has failed three times: its bytes do not match their parity, or each of the
fetches met an error (R292, R298). -/
def lineFails (s : State) (line : List W8) : Bool :=
  !parityOk line || decide (3 ≤ flawOf s (s.cur / 16) s.grp.bind.asid.toNat (lineOf s.grp.pc))

/-- What the group at `cur` issues: an instruction, or the trap it takes before its next instruction issues (R280). -/
def fetchNext (s : State) : Except State Instr :=
  let g := s.grp
  let asid := g.bind.asid.toNat
  match fetchFault s (slotDie s.cur) asid g.pc with
  | some c => .error (s.trapCur { preciseTrap g 0x09 c g.em with arg0 := g.pc })
  | none =>
    let line := fetchLine s (slotDie s.cur) asid g.pc
    let word := lineSlot line (g.pc.toNat % 8)
    let i := decode word
    if lineFails s line then
      .error ((countParity (dropFlaw s (s.cur / 16) asid (lineOf g.pc))).trapCur (preciseTrap g 0x04 3 g.em))
    else if boundDue g i then .error (s.trapCur (preciseTrap g 0x05 0 g.em))
    else if lineReserved line || decide (4 < g.pc.toNat % 8) then .error (s.illegal 0x01)
    else if lineVer line ≠ 1 then .error (s.illegal 0x03)
    else match i with
      | .ok i => .ok i
      | .error _ => .error (s.illegal 0x01)

/-- A core has tried its groups in the current cycle of its die's clock (R169). -/
def hadCycle (s : State) (ck : Nat) : Bool := (s.core ck).cycle == some (s.die (ck / 160)).clock.toNat

/-- A core begins to try its groups in the current cycle (R169). -/
def beginCycle (s : State) (ck : Nat) : State :=
  s.setCore ck { s.core ck with cycle := some (s.die (ck / 160)).clock.toNat, issued := none }

/-- The core tries a group, with its line fetched again where that is needed; `last` shows afterwards whether an instruction
has issued. -/
def turnTo (s : State) (k : Nat) : State :=
  refetch { s.setSlot k { s.slot k with stall := .none, last := none } with cur := k }

/-- A group that has not issued keeps its place among the groups. -/
def keepLast (s s' : State) (k : Nat) : State :=
  if (s'.slot k).last.isNone then s'.setSlot k { s'.slot k with last := (s.slot k).last } else s'

/-- The core notes what it has issued. -/
def noteIssue (s : State) (k : Nat) (pair : Bool) (pc : W64) : State :=
  let c := s.core (k / 16)
  s.setCore (k / 16) { c with issued := some (k % 16, pair, pc) }

/-! ### Pairs (R170, R173, R299) -/

/-- The units of R172, as R335 to R346 assign the forms to them. -/
inductive ExecUnit
  | sc | vp | sf | xl | mu | me | qe
  deriving DecidableEq, Repr

/-- The unit of an instruction word. -/
def unitOf (w : W96) : ExecUnit :=
  let fmt := (w.extractLsb' 88 3).toNat
  let op := (w.extractLsb' 80 8).toNat
  if fmt ≤ 1 then
    (if op ≤ 1 then .sc else if op ≤ 4 then .vp else if op = 5 then .sf else if op ≤ 7 then .xl else .vp)
  else if fmt = 3 then (if op = 9 then .sc else .mu)
  else if fmt = 5 then (if op = 0 then .sc else .me)
  else if fmt = 6 then (if op = 4 then .mu else .qe)
  else .sc

/-- The two words may issue together: different units, or the two vector pipes (R173). -/
def unitsPair (a b : W96) : Bool := unitOf a != unitOf b || unitOf a == .vp

/-- The instruction is a branch, call, return or jump that the group takes (R170, R361). -/
def takesBranch (g : Slot) : Instr → Bool
  | .br o => brTaken o.cond (getS g o.a)
  | .brmz o => maskReg g o.a == 0
  | .brmnz o => maskReg g o.a != 0
  | .call _ => true
  | .ret _ => true
  | .jmp _ => true
  | _ => false

/-- The first instruction of a pair is none of these (R170). -/
def endsPair : Instr → Bool
  | .tret _ => true
  | .tretReg _ => true
  | .exit _ => true
  | .safept _ => true
  | _ => false

/-- The slot after the instruction `i` that group `k`, then `g0`, has issued at `pc` issues in the same cycle (R170, R299). -/
def pairs (s : State) (k : Nat) (g0 : Slot) (pc : W64) (i : Instr) : Bool :=
  let g := s.slot k
  let n := pc.toNat % 8
  let line := fetchLine s (slotDie k) g.bind.asid.toNat pc
  decide (n < 4) && (lineWord line).testBit (8 + n) && g.last.isSome && slotReady s k && !g.marked && g.pc == pc + 1 &&
    !endsPair i && !takesBranch g0 i && unitsPair (lineSlot line n) (lineSlot line (n + 1))

end Sys2Proof.Machine
end

