-- ==== Sys2Proof/Machine/Regions.lean ====
section
/-! DEFINITION. Graphs and their nodes in the firmware: validation (R109 to R113, R118), capture and readiness (R116, R117),
completion, edges and fences (R114, R115, R120 to R122), gangs as a launch sees them (R125), and notification records
(R288 to R290). -/
namespace Sys2Proof.Machine

/-! ### Notification records (R288 to R290) -/

/-- The key of a byte of a tenant VF's DMA space. -/
def dmaKey (tenant addr : Nat) : Nat := (4096 + tenant) * 2 ^ 64 + addr

/-- What a notification record says beside its launch (R289, R290). -/
structure Notice where
  cause : Nat
  code : Nat := 0
  fpol : Nat
  die : Nat
  core : Nat := 0
  slot : Nat := 0
  gidx : Nat := 0
  block : Nat := 0
  lanes : Nat := 0
  fpc : W64 := 0
  arg0 : W64 := 0
  arg1 : W64 := 0
  inner : W64 := 0
  time : W64
  deriving DecidableEq, Repr

/-- The 64 bytes of a record (R289). -/
def recordBytes (s : State) (n : Node) (r : Notice) : List W8 :=
  leBytes 8 (r.cause * 2 ^ 56 + r.code * 2 ^ 48 + r.fpol * 2 ^ 46 + n.fdom.toNat * 2 ^ 34 + r.die * 2 ^ 31 + r.core * 2 ^ 23 +
      r.slot * 2 ^ 19 + r.gidx * 2 ^ 15) ++
    leBytes 8 (r.block * 2 ^ 32 + r.lanes) ++ leBytes 8 n.addr.toNat ++ leBytes 8 r.fpc.toNat ++ leBytes 8 r.arg0.toNat ++
    leBytes 8 r.arg1.toNat ++ leBytes 8 r.inner.toNat ++ leBytes 8 (s.pkgid.toNat * 2 ^ 55 + r.time.toNat % 2 ^ 40)

/-- The tenant of a device ASID (R94). -/
def tenantOf (asid : BitVec 12) : Nat := asid.toNat / 64

/-- A record is written to the ring, or dropped and counted, and FVEC is sent (R289); the device tenant has no
interface (R103). -/
def notify (s : State) (asid : BitVec 12) (n : Node) (r : Notice) : State :=
  if s.reserved asid then s else
  let t := tenantOf asid
  let i := s.iface t
  let size := 2 ^ i.fdrLog2n.toNat
  let s :=
    if i.fdrBase = 0 ∨ (i.fdrWr - i.fdrRd).toNat = size then
      s.setIface t { i with fdrDrop := if i.fdrDrop = 0xFFFFFFFF then i.fdrDrop else i.fdrDrop + 1 }
    else
      let s := { s with hostMem := memStore s.hostMem (dmaKey t (i.fdrBase.toNat + 64 * (i.fdrWr.toNat % size))) (recordBytes s n r) }
      s.setIface t { i with fdrWr := i.fdrWr + 1 }
  sendMsix s t n.fvec.toNat

/-! ### Graphs and nodes -/

def findGraph (s : State) (asid : BitVec 12) (hdr : W64) : Option Graph :=
  s.graphs.find? fun g => g.asid == asid && g.hdr == hdr

def State.setGraph (s : State) (g : Graph) : State :=
  { s with graphs := s.graphs.map fun x => if x.asid = g.asid ∧ x.hdr = g.hdr then g else x }

def noNode : Node := { addr := 0, kind := .interior }

def Graph.node (g : Graph) (j : Nat) : Node := g.nodes.getD j noNode
def Graph.setNode (g : Graph) (j : Nat) (n : Node) : Graph := { g with nodes := g.nodes.set j n }

/-- The node with an event's name, if its graph runs. -/
def State.launchNode (s : State) (r : NodeRef) : Option (Graph × Node) :=
  match findGraph s r.asid r.graph with
  | none => none
  | some g => g.nodes[r.node]?.map fun n => (g, n)

def State.putNode (s : State) (r : NodeRef) (n : Node) : State :=
  match findGraph s r.asid r.graph with
  | none => s
  | some g => s.setGraph (g.setNode r.node n)

def nodeRef (g : Graph) (j : Nat) : NodeRef := ⟨g.asid, g.hdr, j⟩

/-- A node and its ancestors, up to the root (R111: at most 8 levels). -/
def pathFrom (nodes : List Node) (j : Nat) : Nat → List Nat
  | 0 => [j]
  | f + 1 => j :: (match (nodes[j]?).bind (·.parent) with
    | none => []
    | some p => pathFrom nodes p f)

def Graph.path (g : Graph) (j : Nat) : List Nat := pathFrom g.nodes j 8

/-- A node lies in the subtree of another. -/
def Graph.under (g : Graph) (a j : Nat) : Bool := (g.path j).contains a

/-! ### Reading structures (R109, R111) -/

/-- `n` bytes translate with a right, and are homed on the die, within one object (R111). -/
def structOk (s : State) (die asid : Nat) (a : W64) (n : Nat) (rt : Right) : Bool :=
  namesBytes s die asid a n rt &&
    (List.range ((addrOff a + n + 4095) / 4096 - addrOff a / 4096)).all fun i =>
      (extentAt (s.obj asid (addrObj a)) ((addrOff a / 4096 + i) * 4096)).isSome

/-- A byte of a range is poisoned (R225). -/
def structPoison (s : State) (asid : Nat) (a : W64) (n : Nat) : Bool :=
  (List.range n).any fun i => match objByteAddr (s.obj asid (addrObj a)) (addrOff a + i) with
    | some k => s.poison.contains (k / 64)
    | none => false

/-- The words of a structure, if it can be read. -/
def structWords (s : State) (die asid : Nat) (a : W64) (n : Nat) : Option (List W64) :=
  if structOk s die asid a (8 * n) .r && !structPoison s asid a (8 * n) then
    let bs := readObj s (s.obj asid (addrObj a)) (addrOff a) (8 * n)
    some ((List.range n).map fun i => BitVec.ofNat 64 (leNat ((bs.drop (8 * i)).take 8)))
  else none

/-! ### Region control blocks (R112, R113) -/

/-- A node as its record has it, with its parent still to be found. -/
def parseNode (a : W64) (ws : List W64) : Node :=
  let w (i : Nat) : Nat := (ws.getD i 0).toNat
  let f (i hi lo : Nat) : Nat := bitsOf (w i) hi lo
  { addr := a
    kind := if f 0 63 60 = 1 then .launch else if f 0 63 60 = 2 then .fence else .interior
    ovr := BitVec.ofNat 8 (f 0 59 52)
    prio := BitVec.ofNat 3 (f 0 51 49)
    diemask := BitVec.ofNat 8 (f 0 47 40)
    fdom := BitVec.ofNat 12 (f 0 39 28)
    fpol := BitVec.ofNat 2 (f 0 27 26)
    fvec := BitVec.ofNat 6 (f 0 25 20)
    persist := (w 0).testBit 19
    idemp := (w 0).testBit 18
    l1fuse := (w 0).testBit 17
    wdog := BitVec.ofNat 16 (f 0 15 0)
    budget := ws.getD 2 0
    maxcore := f 3 10 0
    trapv := ws.getD 5 0
    compl := BitVec.ofNat 64 (w 6 / 8 * 8)
    cvv := (w 7).testBit 40
    cvec := BitVec.ofNat 6 (f 7 39 34)
    nqv := (w 7).testBit 32
    nq := BitVec.ofNat 32 (f 7 31 0)
    kernel := BitVec.ofNat 64 (w 8 / 64 * 64)
    param := ws.getD 9 0
    countW := ws.getD 10 0
    cntind := (w 11).testBit 63
    isGang := (w 11).testBit 62
    parlen := BitVec.ofNat 6 (f 11 61 56)
    grpm1 := BitVec.ofNat 4 (f 11 55 52)
    vreg16 := BitVec.ofNat 5 (f 11 51 47)
    sregs := BitVec.ofNat 7 (f 11 46 40)
    tiles := BitVec.ofNat 4 (f 11 39 36)
    scr4k := BitVec.ofNat 7 (f 11 35 29)
    gangdesc := BitVec.ofNat 64 (w 12 / 64 * 64)
    gto := BitVec.ofNat 16 (f 13 15 0) }

/-- The resources of a launch fit a core (R118, with the field ranges of R112). -/
def fitsCore (n : Node) : Bool :=
  let g := n.grpm1.toNat + 1
  decide (1 ≤ n.vreg16.toNat ∧ n.vreg16.toNat ≤ 16 ∧ 16 * n.vreg16.toNat * g ≤ 2048 ∧ n.tiles.toNat ≤ 8 ∧
    n.tiles.toNat * g ≤ 64 ∧ n.scr4k.toNat ≤ 64 ∧ n.sregs.toNat ≤ 64 ∧ n.parlen.toNat ≤ 32 ∧ n.parlen.toNat ≤ n.sregs.toNat)

/-- A record with an undefined KIND, a reserved field that is not zero, or resources that fit no core (R111). MAXCORE is taken as written
(R112, log 132: DESIGN CHOICE). -/
def recordBad (ws : List W64) : Bool :=
  let w (i : Nat) : Nat := (ws.getD i 0).toNat
  let k := bitsOf (w 0) 63 60
  let n := parseNode 0 ws
  decide (2 < k) || (w 0).testBit 48 || (w 0).testBit 16 || bitsOf (w 3) 63 11 != 0 || bitsOf (w 6) 2 0 != 0 ||
    bitsOf (w 7) 63 41 != 0 || (w 7).testBit 33 ||
    (if k = 1 then
      bitsOf (w 8) 5 0 != 0 || (!n.cntind && bitsOf (w 10) 63 32 != 0) || bitsOf (w 11) 28 0 != 0 || bitsOf (w 12) 5 0 != 0 ||
        bitsOf (w 13) 63 16 != 0 || w 14 != 0 || w 15 != 0 || !fitsCore n
    else (List.range 8).any fun i => w (8 + i) != 0)

/-- The source of a copied field: the nearest of the node and its ancestors whose override bit is set (R113). -/
def overrider (path : List Node) (bit : Nat) : Node :=
  match path.find? fun n => n.ovr.getLsbD bit with
  | some n => n
  | none => path.getLastD noNode

/-- A node with every inherited field resolved (R113). -/
def resolveNode (path : List Node) (n : Node) : Node :=
  let f := overrider path 4
  let b := overrider path 3
  { n with
    prio := (overrider path 7).prio, fdom := f.fdom, fpol := f.fpol, fvec := f.fvec,
    persist := b.persist, idemp := b.idemp, l1fuse := b.l1fuse, wdog := (overrider path 2).wdog,
    diemask := (overrider path 1).diemask, trapv := (overrider path 0).trapv }

/-! ### Validation (R109, R111) -/

/-- The node array: each address, and the words of the record that can be read. -/
def readNodes (s : State) (die asid : Nat) (hdr : List W64) : List (W64 × Option (List W64)) :=
  let n := bitsOf (hdr.getD 1 0).toNat 31 0
  if n = 0 ∨ 2 ^ 16 < n then []
  else match structWords s die asid (hdr.getD 0 0) n with
    | none => []
    | some as => as.map fun a => (a, if a.toNat % 128 = 0 then structWords s die asid a 16 else none)

/-- A completion word may be written (R111). -/
def complOk (s : State) (die asid : Nat) (a : W64) : Bool := a == 0 || structOk s die asid a 8 .w

/-- What a node names can be reached (R111). -/
def namesOk (s : State) (die asid : Nat) (n : Node) : Bool :=
  complOk s die asid n.compl &&
    (n.kind != .launch ||
      ((!n.cntind || structOk s die asid n.countW 4 .r) &&
       (n.parlen == 0 || structOk s die asid n.param (8 * n.parlen.toNat) .r)))

/-- The parents by their places in the node array; none when a parent is no node of the graph. -/
def linkParents (ns : List (Node × W64)) : Option (List Node) :=
  ns.mapM fun p =>
    if p.2 = 0 then some { p.1 with parent := none }
    else (ns.findIdx? fun q => q.1.addr == p.2).map fun j => { p.1 with parent := some j }

/-- The parent chain of a node ends at a root within 8 levels (R111). -/
def rooted (nodes : List Node) (j : Nat) : Bool :=
  let p := pathFrom nodes j 8
  decide (p.length ≤ 8) && (match p.getLast? with
    | some r => (nodes[r]?.bind (·.parent)).isNone
    | none => false)

/-- Edges as places in the node array; none when one is malformed or joins something other than launch and fence nodes
(R111, R121). -/
def parseEdges (nodes : List Node) : List W64 → Option (List (Nat × Nat × Bool))
  | f :: t :: r =>
    let at_ (a : Nat) : Option Nat := nodes.findIdx? fun n => n.addr.toNat == a && n.kind != .interior
    if f.toNat % 128 ≠ 0 ∨ t.toNat % 128 / 2 ≠ 0 then none
    else match at_ f.toNat, at_ (t.toNat / 128 * 128), parseEdges nodes r with
      | some i, some j, some es => some ((i, j, t.getLsbD 0) :: es)
      | _, _, _ => none
  | _ => some []

/-- Edges without a cycle: those whose source nothing enters are taken away until none is left. -/
def acyclic (es : List (Nat × Nat × Bool)) : Nat → Bool
  | 0 => es.isEmpty
  | f + 1 =>
    if es.isEmpty then true
    else acyclic (es.filter fun e => es.any fun d => d.2.1 == e.1) f

/-- The validated graph (R111). -/
def validate (s : State) (die : Nat) (asid : BitVec 12) (hdrAddr gcompl : W64) : Option Graph :=
  match structWords s die asid.toNat hdrAddr 4 with
  | none => none
  | some h =>
    let raw := readNodes s die asid.toNat h
    let ne := bitsOf (h.getD 1 0).toNat 63 32
    let recs := raw.filterMap fun p => p.2.map fun ws => (p.1, ws)
    if raw.isEmpty || recs.length != raw.length || h.getD 3 0 != 0 || decide (2 ^ 20 < ne) ||
        recs.any (fun p => recordBad p.2) || ((raw.map (·.1)).eraseDups).length != raw.length then none
    else
      match linkParents (recs.map fun p => (parseNode p.1 p.2, p.2.getD 1 0)) with
      | none => none
      | some nodes =>
        let words := if ne = 0 then some [] else structWords s die asid.toNat (h.getD 2 0) (2 * ne)
        match words.bind (parseEdges nodes) with
        | none => none
        | some es =>
          if nodes.all (namesOk s die asid.toNat) && (List.range nodes.length).all (rooted nodes) &&
              nodes.all (fun n => n.parent.isSome || n.ovr &&& 0x9F == 0x9F) && acyclic es (es.length + 1) then
            some { hdr := hdrAddr, asid := asid, die := die, gcompl := gcompl, nodes := nodes, edges := es }
          else none

/-! ### Limits (R114, R115, R117) -/

/-- The cores that hold a block of a launch in the subtree of a node, as the firmware knows them: a block that has ended
counts until its event is read or its launch completes (R114, R120, R159, R161). -/
def coresHolding (s : State) (g : Graph) (a : Nat) : List Nat :=
  ((List.range 8).flatMap fun d => (s.die d).bound.filterMap fun b =>
    if b.asid = g.asid ∧ b.graph = g.hdr ∧ (b.ended.isNone || !b.charged) ∧ g.under a b.node then some (coreKey d b.core) else none).eraseDups

/-- A BUDGET on the path of a launch is spent (R114, R115). -/
def budgetSpent (g : Graph) (j : Nat) : Bool :=
  (g.path j).any fun a => (g.node a).ovr.getLsbD 6 && decide ((g.node a).budget.toNat ≤ (g.node a).used)

/-- Every MAXCORE limit of the path allows a block on a core (R114). -/
def maxcoreOk (s : State) (g : Graph) (j core : Nat) : Bool :=
  (g.path j).all fun a =>
    !(g.node a).ovr.getLsbD 5 ||
      (let h := coresHolding s g a
       decide (h.length < (g.node a).maxcore) || h.contains core)

/-- The MAXCORE in force for a PERSIST launch (R117). -/
def maxcoreLeft (s : State) (g : Graph) (j : Nat) : Nat :=
  ((g.path j).filter fun a => (g.node a).ovr.getLsbD 5).foldl
    (fun m a => min m ((g.node a).maxcore - (coresHolding s g a).length)) 1280

/-- USED of a launch and its ancestors grows, in the nodes and in their records (R112, R114). -/
def chargeUsed (s : State) (r : NodeRef) (c : Nat) : State :=
  match findGraph s r.asid r.graph with
  | none => s
  | some g =>
    let path := g.path r.node
    let g := path.foldl (fun (g : Graph) a => g.setNode a { g.node a with used := (g.node a).used + c }) g
    path.foldl (fun s a =>
      let x := (g.node a).addr + 0x20
      if structOk s g.die g.asid.toNat x 8 .r then writeObject s g.asid (addrObj x) (addrOff x) (leBytes 8 (g.node a).used) else s)
      (s.setGraph g)

/-! ### Completion (R120, R122) -/

/-- A completion word (R120). -/
def complWord (status blocks : Nat) : W64 := BitVec.ofNat 64 (status * 2 ^ 56 + 2 ^ 55 + min blocks (2 ^ 32 - 1))

/-- Step 4: the completion word goes to NQ as a `.try` push of the coordinating die's firmware (R120). -/
def pushNotice (s : State) (g : Graph) (n : Node) (w : W64) : State :=
  let fail := s.setDie g.die { s.die g.die with nqFail := (s.die g.die).nqFail + 1 }
  match translate s g.asid.toNat n.nq rEnq with
  | .error _ => fail
  | .ok p =>
    if unreachable s g.die p then fail
    else sendMsg s (flowTo s g.die p)
      { typ := .push, port := pqPort p, queue := pqQueue p, tenant := s.ownerOf g.asid, try_ := true,
        data := leBytes 8 w.toNat ++ leBytes 8 0, esz := some 0, ctx := .notice g.die, dev := s.reserved g.asid,
        via := some (g.asid, (n.nq.extractLsb' 0 16).toNat) }

/-- The blocks of a launch that have ended are charged to USED, if their events have not been handled yet (R120 step 1). -/
def chargeEnded (s : State) (r : NodeRef) : State :=
  (List.range 8).foldl (fun s d =>
    ((s.die d).bound.filter fun b => b.asid == r.asid && b.graph == r.graph && b.node == r.node && !b.charged).foldl (fun s b =>
      match b.ended with
      | none => s
      | some c =>
        let x := s.die d
        chargeUsed (s.setDie d { x with bound := x.bound.map fun y => if y = b then { y with charged := true } else y }) r c) s) s

/-- A node completes: steps 1 to 4 (R120); its edges follow. -/
def completeNode (s : State) (r : NodeRef) (status blocks : Nat) : State :=
  let s := chargeEnded s r
  match s.launchNode r with
  | none => s
  | some (g, n) =>
    if n.state = .complete then s
    else
      let w := complWord status blocks
      let s := s.setGraph (g.setNode r.node { n with state := .complete, status := status, blocks := blocks })
      let s := (List.range 8).foldl (fun s d =>
        s.setDie d { s.die d with rqs := (s.die d).rqs.filter fun q => !(q.asid == g.asid && q.graph == g.hdr && q.node == r.node) }) s
      let s := writeCompletion s g.die g.asid n.compl w
      let s := if n.cvv && !s.reserved g.asid then sendMsix s (tenantOf g.asid) n.cvec.toNat else s
      if n.nqv then pushNotice s g n w else s

/-! ### Gangs as a launch sees them (R125) -/

/-- The digest of the loaded image that a graph belongs to (R99, R125). -/
def graphDigest (s : State) (asid : BitVec 12) (graph : W64) : BitVec 384 :=
  (((s.asid asid.toNat).graphs.find? fun p => p.1 == graph).map (·.2)).getD 0

/-- The graph that a digest names among the loaded images of an address space (R125). -/
def graphOf (s : State) (asid : BitVec 12) (digest : BitVec 384) : Option W64 :=
  ((s.asid asid.toNat).graphs.find? fun p => p.2 == digest).map (·.1)

def gangSend (s : State) (pkg : Nat) (r : NodeRef) (kind : GangKind) (status : Nat) : State :=
  { s with out := { s.out with gang := s.out.gang ++ [⟨pkg, r.asid, r.graph, r.node, graphDigest s r.asid r.graph, kind, status⟩] } }

def gangCast (s : State) (gg : Gang) (r : NodeRef) (kind : GangKind) (status : Nat) : State :=
  gg.others.foldl (fun s p => gangSend s p r kind status) s

def setGang (s : State) (r : NodeRef) (gg : Gang) : State :=
  match s.launchNode r with
  | none => s
  | some (_, n) => s.putNode r { n with gang := some gg }

/-- The gang is aborted: the members are told, the coordinator's own blocks are to be killed, and a gang that never came
together is reported to the fault domain (R125, R290). -/
def gangAbort (s : State) (r : NodeRef) (status : Nat) : State :=
  match s.launchNode r with
  | none => s
  | some (g, n) =>
    match n.gang with
    | none => s
    | some gg =>
      if gg.aborted.isSome then s
      else
        let s := gangCast s gg r .abort status
        let s := if status = 6 then notify s g.asid n { cause := 0x25, fpol := 2, die := g.die, time := (s.die g.die).clock } else s
        s.putNode r { n with gang := some { gg with aborted := some status }, stop := true, lost := some status }

/-- The coordinator ends the gang once every member has reported, or has been aborted (R125). -/
def gangTest (s : State) (r : NodeRef) : State :=
  match s.launchNode r with
  | none => s
  | some (_, n) =>
    match n.gang with
    | none => s
    | some gg =>
      if gg.home ≠ s.pkgid.toNat ∨ gg.told.isNone ∨ gg.final.isSome then s
      else match gg.aborted with
        | some st => completeNode (setGang (gangCast s gg r .final st) r { gg with final := some st }) r st n.blocks
        | none =>
          if gg.others.all gg.reported.contains then
            completeNode (setGang (gangCast s gg r .final 0) r { gg with final := some 0 }) r 0 n.blocks
          else s

/-- The local part of a gang launch is over with a status, which its watchdog may yet change while the gang runs (R123, R125). -/
def gangOver (s : State) (r : NodeRef) (n : Node) (gg : Gang) (status : Nat) : State :=
  if gg.home = s.pkgid.toNat then
    if gg.final.isSome || gg.told == some status then s
    else
      let s := setGang s r { gg with told := some status }
      gangTest (if status = 0 then s else gangAbort s r status) r
  else match gg.final with
    | some st => completeNode (setGang s r { gg with told := some status }) r st n.blocks
    | none =>
      if gg.told = some status then s
      else
        let s := setGang s r { gg with told := some status }
        if gg.aborted.isSome then s else gangSend s gg.home r .done status

/-- A block number of a launch has been handed out and is not bound (R161). -/
def granting (s : State) (r : NodeRef) : Bool :=
  (List.range 8).any fun d => (s.die d).rqs.any fun q => q.asid == r.asid && q.graph == r.graph && q.node == r.node && q.granted.isSome

/-- A launch that no further block can join and that holds none: it completes, or its gang hears of it (R115, R120,
R125). -/
def testLaunch (s : State) (r : NodeRef) : State :=
  match s.launchNode r with
  | none => s
  | some (g, n) =>
    if n.state ≠ .ready ∨ n.kind ≠ .launch ∨ n.live ≠ 0 then s
    else
      let ended := n.stop || (decide (n.count ≤ n.next) && n.again.isEmpty && !granting s r)
      if !ended && !budgetSpent g r.node then s
      else
        let st := n.lost.getD (if ended then 0 else 2)
        match n.gang with
        | none => completeNode s r st n.blocks
        | some gg => gangOver s r n gg st

/-! ### Readiness (R116, R117, R123) -/

/-- The record of a node as it stands, if it still passes the checks of its own words; else as it was validated (R116). -/
def recapture (s : State) (g : Graph) (j : Nat) : Node :=
  let n := g.node j
  match structWords s g.die g.asid.toNat n.addr 16 with
  | none => n
  | some ws =>
    if recordBad ws then n
    else { parseNode n.addr ws with kind := n.kind, parent := n.parent, used := n.used, state := n.state, gang := n.gang }

/-- The block count word (R112, R116). -/
def readCount (s : State) (g : Graph) (n : Node) : Option Nat :=
  if n.cntind then
    if structOk s g.die g.asid.toNat n.countW 4 .r && !structPoison s g.asid.toNat n.countW 4 then
      some (leNat (readObj s (s.obj g.asid.toNat (addrObj n.countW)) (addrOff n.countW) 4))
    else none
  else some (bitsOf n.countW.toNat 31 0)

/-- A die's region queue for a launch that has become ready (R161, R162). -/
def enterQueue (s : State) (d : Nat) (g : Graph) (j : Nat) (prio : W3) : State :=
  let (id, s) := s.fresh
  let x := s.die d
  s.setDie d { x with rqs := x.rqs ++ [{ id := id, graph := g.hdr, asid := g.asid, node := j, prio := prio, deficit := Config.drrQuantum }] }

/-- The members of a gang (R125). -/
def gangMembers (s : State) (g : Graph) (n : Node) : List Nat :=
  match structWords s g.die g.asid.toNat n.gangdesc 8 with
  | none => []
  | some ws => (List.range 512).filter fun k => (ws.getD (k / 64) 0).getLsbD (k % 64)

/-- A captured launch starts: its region queues are kept from now on (R117, R161); one whose budget is spent has nothing to wait
for (R115). -/
def startLaunch (s : State) (r : NodeRef) : State :=
  match s.launchNode r with
  | none => s
  | some (g, n) =>
    if n.count = 0 then testLaunch s r
    else if n.diemask &&& s.mgmt.online = 0 then testLaunch (s.putNode r { n with lost := some 7, stop := true }) r
    else testLaunch (((List.range 8).filter fun d => n.diemask.getLsbD d).foldl (fun s d => enterQueue s d g r.node n.prio) s) r

/-- The status of a launch that cannot be captured: the home of its count word has died, or its reads have faulted (R116,
R120). -/
def captureStatus (s : State) (g : Graph) (n : Node) : Nat :=
  if n.cntind && (s.obj g.asid.toNat (addrObj n.countW)).state == .lost then 7 else 5

/-- A launch is captured (R116); `gang` is its part in a gang. -/
def captureLaunch (s : State) (r : NodeRef) (gang : Option Gang) : State :=
  match findGraph s r.asid r.graph with
  | none => s
  | some g =>
    let path := (g.path r.node).map (recapture s g)
    let n := resolveNode path (path.headD noNode)
    let params := if n.parlen = 0 then some [] else structWords s g.die g.asid.toNat n.param n.parlen.toNat
    match params, readCount s g n with
    | some ps, some c =>
      startLaunch (s.setGraph (g.setNode r.node { n with
        state := .ready, params := ps, count := c, readyAt := s.time, gang := gang })) r
    | _, _ => testLaunch (s.setGraph (g.setNode r.node { n with
        state := .ready, readyAt := s.time, gang := gang, lost := some (captureStatus s g n), stop := true })) r

/-- A launch becomes ready; a gang launch takes the part of its coordinator (R116, R125). -/
def readyLaunch (s : State) (r : NodeRef) : State :=
  match s.launchNode r with
  | none => s
  | some (g, _) =>
    let n := recapture s g r.node
    if !n.isGang then captureLaunch s r none
    else
      let self := s.pkgid.toNat
      let gg : Gang := { home := self, others := (gangMembers s g n).filter (· != self),
                         deadline := s.time + (if n.gto = 0 then 50 else n.gto.toNat) * 1000000 }
      captureLaunch (gangCast s gg r .start 0) r (some gg)

/-! ### Edges, fences and interior nodes (R121, R122) -/

/-- What is due at a node. -/
inductive Due
  | skip | ready | fence
  | interior (status blocks : Nat)
  deriving DecidableEq, Repr

/-- The edge's source has completed, and how: satisfied or failed (R121). -/
def edgeState (g : Graph) (e : Nat × Nat × Bool) : Option Bool :=
  let n := g.node e.1
  if n.state = .complete then some (n.status == 0 || e.2.2) else none

/-- What a node that has not completed is due for, if anything; a launch whose gang was aborted before it started never starts (R125). -/
def nodeDue (g : Graph) (j : Nat) : Option Due :=
  let n := g.node j
  if n.state = .complete then none
  else match n.kind with
    | .interior =>
      let sub := (List.range g.nodes.length).filter fun i => (g.node i).kind != .interior && g.under j i
      if sub.all fun i => (g.node i).state == .complete then
        some (.interior (sub.foldl (fun m i => max m (g.node i).status) 0) (sub.foldl (fun m i => m + (g.node i).blocks) 0))
      else none
    | k =>
      if n.state ≠ .waiting then none
      else
        let es := (g.edges.filter fun e => e.2.1 == j).map (edgeState g)
        if es.contains (some false) then some .skip
        else if !es.all (· == some true) || n.gang.any (·.aborted.isSome) then none
        else some (if k = .fence then .fence else .ready)

/-- The first node that is due for something; a guest graph runs one node alone. -/
def graphDue (g : Graph) : Option (Nat × Due) :=
  if g.guest.isSome then none
  else (List.range g.nodes.length).findSome? fun j => (nodeDue g j).map fun d => (j, d)

/-- A graph whose nodes have all completed (R122). -/
def graphOver (g : Graph) : Bool := match g.guest with
  | some j => (g.node j).state == .complete
  | none => g.nodes.all fun n => n.state == .complete

/-- The graph completion word is written, and the graph is gone (R122). -/
def finishGraph (s : State) (g : Graph) : State :=
  let st := g.nodes.foldl (fun m n => max m n.status) 0
  let bl := g.nodes.foldl (fun m n => if n.kind = .launch then m + n.blocks else m) 0
  let s := { s with graphs := s.graphs.filter fun x => !(x.asid == g.asid && x.hdr == g.hdr) }
  if g.guest.isSome then s else writeCompletion s g.die g.asid g.gcompl (complWord st bl)

/-- Everything that is due in a graph, one node after another (R121, R122). -/
def settleGraph (s : State) (asid : BitVec 12) (hdr : W64) : Nat → State
  | 0 => s
  | f + 1 =>
    match findGraph s asid hdr with
    | none => s
    | some g =>
      if graphOver g then finishGraph s g
      else match graphDue g with
        | none => s
        | some (j, d) =>
          let r := nodeRef g j
          let s := match d with
            | .skip => completeNode s r 1 0
            | .fence => completeNode s r 0 0
            | .interior st bl => completeNode s r st bl
            | .ready => readyLaunch s r
          settleGraph s asid hdr f

/-- A graph settles: each node is acted on at most twice. -/
def settleNodes (s : State) (asid : BitVec 12) (hdr : W64) : State :=
  match findGraph s asid hdr with
  | none => s
  | some g => settleGraph s asid hdr (2 * g.nodes.length + 2)

/-- A launch is looked at, and what follows from it in its graph. -/
def settleLaunch (s : State) (r : NodeRef) : State := settleNodes (testLaunch s r) r.asid r.graph

/-! ### The charge of a block that has ended (R114, R115, R160 to R162) -/

/-- The launch of a region queue. -/
def queueNode (q : RQueue) : NodeRef := ⟨q.asid, q.graph, q.node⟩

/-- Queues that a claim was refused to are eligible again once a block of the graph has ended (R161). -/
def allowClaims (s : State) (r : NodeRef) : State :=
  (List.range 8).foldl (fun s d =>
    let x := s.die d
    s.setDie d { x with rqs := x.rqs.map fun q => if q.asid = r.asid ∧ q.graph = r.graph then { q with refused := false } else q }) s

/-- Every launch of a graph is looked at: a budget may have been spent (R115). -/
def settleAll (s : State) (r : NodeRef) : State :=
  match findGraph s r.asid r.graph with
  | none => s
  | some g => (List.range g.nodes.length).foldl (fun s j => settleLaunch s { r with node := j }) s

/-- The charge of a block goes to the deficit of its region queue (R160, R162). -/
def chargeQueue (s : State) (d : Nat) (r : NodeRef) (c : Nat) : State :=
  let x := s.die d
  s.setDie d { x with rqs := x.rqs.map fun q => if queueNode q = r then { q with deficit := q.deficit - c } else q }

/-! ### Starts (R110, R111) -/

/-- The nodes that can be read and whose completion word may be written hear of a failed start (R111). -/
def invalidNodes (s : State) (die : Nat) (asid : BitVec 12) (hdr : W64) : State :=
  match structWords s die asid.toNat hdr 4 with
  | none => s
  | some h =>
    (readNodes s die asid.toNat h).foldl (fun s p =>
      match p.2 with
      | none => s
      | some ws =>
        let c := (parseNode p.1 ws).compl
        if c ≠ 0 ∧ complOk s die asid.toNat c then writeCompletion s die asid c (complWord 8 0) else s) s

/-- USED of every node is zero at a start (R111). -/
def clearUsed (s : State) (g : Graph) : State :=
  g.nodes.foldl (fun s n =>
    let x := n.addr + 0x20
    writeObject s g.asid (addrObj x) (addrOff x) (leBytes 8 0)) s

/-- A start element starts its graph (R110, R111). -/
def startElement (s : State) (die : Nat) (asid : BitVec 12) (elem : List W8) : State :=
  let w0 := leNat (elem.take 8)
  let w1 := leNat ((elem.drop 8).take 8)
  let hdr : W64 := BitVec.ofNat 64 (w0 / 128 * 128)
  let gc : W64 := BitVec.ofNat 64 (w1 / 8 * 8)
  let gok := complOk s die asid.toNat gc
  let word (s : State) (st : Nat) : State := if gok then writeCompletion s die asid gc (complWord st 0) else s
  if (findGraph s asid hdr).isSome then word s 9
  else match if w0 % 128 ≠ 0 ∨ w1 % 8 ≠ 0 ∨ !gok then none else validate s die asid hdr gc with
    | none => word (invalidNodes s die asid hdr) 8
    | some g => settleNodes (clearUsed { s with graphs := s.graphs ++ [g] } g) asid hdr

end Sys2Proof.Machine
end

