-- ==== Sys2Proof/Machine/Sampling.lean ====
section
/-! DEFINITION. The stall-reason sampling unit (R195 to R200). -/
namespace Sys2Proof.Machine

/-! ### Sampling arms (R195 to R197) -/

/-- The tenants whose sampling a core is armed for: it holds a block of theirs with their node. -/
def armedTenants (s : State) (ck : Nat) : List Nat :=
  ((coreSlots ck).filterMap fun k =>
    let b := (s.slot k).bind
    let i := s.iface b.tenant.toNat
    if b.sstate ≠ .empty ∧ b.sstate ≠ .ready ∧ i.smpEnable ∧ i.smpNode = b.node ∧ !s.reserved b.asid then some b.tenant.toNat else none).eraseDups

/-- The ring of a die: its address (R196). Past the largest object ID there is no object (R205). -/
def ringAddr (i : Iface) (d : Nat) : W64 :=
  let o := addrObj i.smpBuf + d
  BitVec.ofNat 64 ((if o < 2 ^ 20 then o else 0) * 2 ^ 44 + addrOff i.smpBuf)

/-- The collector of a die stops on a buffer fault (R196). -/
def stopCollector (s : State) (t d : Nat) : State :=
  let i := s.iface t
  s.setIface t { i with smpErr := i.smpErr ||| (1#8 <<< d), smpDies := tset i.smpDies d { tget i.smpDies d {} with stopped := true } }

/-- The ring header is written when a core of the die is first armed; a ring that does not meet the conditions, or a write
that faults, stops the collector (R195, R196). -/
def openRing (s : State) (t d : Nat) (asid : BitVec 12) : State :=
  let i := s.iface t
  let c := tget i.smpDies d {}
  let a := ringAddr i d
  if c.asid.isSome || c.stopped then s
  else
    let keep (s : State) (c : Collector) : State := s.setIface t { s.iface t with smpDies := tset (s.iface t).smpDies d c }
    let ok := structOk s d asid.toNat a (64 + 16 * 2 ^ i.smpLog2n.toNat) .w
    match if ok then tryWrite s asid (addrObj a) (addrOff a) (List.replicate 64 0) else none with
    | some s => keep s { asid := some asid }
    | none => stopCollector (keep s { c with asid := some asid }) t d

/-- The ASID of the block that arms a core for a tenant. -/
def armingAsid (s : State) (ck t : Nat) : BitVec 12 :=
  (((coreSlots ck).map fun k => (s.slot k).bind).find? fun b =>
    b.sstate != .empty && b.sstate != .ready && b.tenant.toNat == t && (s.iface t).smpNode == b.node && !s.reserved b.asid).elim 0 (·.asid)

/-! ### Samples (R197 to R199) -/

/-- A slot is eligible for a tenant's samples (R197). -/
def eligible (s : State) (t k : Nat) : Bool :=
  let b := (s.slot k).bind
  b.tenant.toNat == t && !s.reserved b.asid && b.node == (s.iface t).smpNode && b.sstate != .empty && b.sstate != .ready

/-- The eligible slot that follows the last sampled one in rotation (R197). -/
def nextSample (s : State) (t ck : Nat) (last : Option W4) : Option Nat :=
  let first := match last with
    | none => 0
    | some l => l.toNat + 1
  ((List.range 16).map fun i => ck * 16 + (first + i) % 16).find? (eligible s t)

/-- The reason and the pc of a sample of the cycle `at_`: the first row of R198 that applies (R199). -/
def classify (s : State) (k at_ : Nat) : Nat × W64 :=
  let g := s.slot k
  let c := s.core (k / 16)
  let row :=
    if slotReady s k && g.bind.sstate == .running && g.stall == .none then 2
    else if g.bind.sstate ≠ .running then 3
    else if g.fpark.isSome then 4
    else if asleep g then 5
    else if g.barrier.isSome || g.stall == .barrier then 6
    else if !waitOver s k g then 7
    else if g.exiting || g.dfault.isSome || g.pend.isSome || (g.marked && !g.outst.isEmpty) then 8
    else match g.stall with
      | .resource => 10
      | .tile => 11
      | .interlock => 12
      | _ => 9
  match c.issued with
  | some (n, pair, pc) => if n = k % 16 ∧ c.cycle = some at_ then (if pair then 1 else 0, pc) else (row, g.pc)
  | none => (row, g.pc)

/-- The 16 bytes of a record for the expiry at clock `at_` (R199). -/
def sampleRecord (s : State) (k at_ : Nat) : List W8 :=
  let (r, pc) := classify s k at_
  let time := at_ % 2 ^ 40
  leBytes 8 (pc &&& ~~~0x38#64).toNat ++
    leBytes 8 (time * 2 ^ 24 + slotCoreNo k * 2 ^ 16 + k % 16 * 2 ^ 12 + (s.slot k).bind.gidx.toNat * 2 ^ 8 + r)

/-- The ring of a die takes a record, or drops it when it is full; a write that faults stops the collector (R196). -/
def takeSample (s : State) (t d : Nat) (rec_ : List W8) : State :=
  let i := s.iface t
  let c := tget i.smpDies d {}
  let n := 2 ^ i.smpLog2n.toNat
  let a := ringAddr i d
  match c.asid with
  | none => s
  | some asid =>
    if c.stopped then s
    else if !structOk s d asid.toNat a (64 + 16 * n) .w then stopCollector s t d
    else
      let o := s.obj asid.toNat (addrObj a)
      let full (rd : W32) : Bool := (c.wr - rd).toNat == n
      let c := if full c.rd then { c with rd := BitVec.ofNat 32 (leNat (readObj s o (addrOff a + 8) 4)) } else c
      let put (s : State) (off : Nat) (bs : List W8) : Option State := tryWrite s asid (addrObj a) (addrOff a + off) bs
      let keep (s : State) (c : Collector) : State := s.setIface t { s.iface t with smpDies := tset (s.iface t).smpDies d c }
      if full c.rd then
        let drop : W32 := if c.drop = 0xFFFFFFFF then c.drop else c.drop + 1
        (put s 0x10 (leBytes 4 drop.toNat)).elim (stopCollector s t d) fun s => keep s { c with drop := drop }
      else match put s (0x40 + 16 * (c.wr.toNat % n)) rec_ with
        | none => stopCollector s t d
        | some s => (put s 0 (leBytes 4 (c.wr + 1).toNat)).elim (stopCollector s t d) fun s => keep s { c with wr := c.wr + 1 }

/-- The sample of a core for a tenant whose countdown expired at clock `at_`. -/
def sampleAt (s : State) (ck t at_ : Nat) : State :=
  let c := s.core ck
  let x := tget c.samp t {}
  match nextSample s t ck x.lastSlot with
  | none => s
  | some k =>
    if (tget (s.iface t).smpDies (ck / 160) {}).stopped then s
    else
      let s' := s.setCore ck { c with samp := tset c.samp t { x with lastSlot := some (BitVec.ofNat 4 (k % 16)) } }
      takeSample s' t (ck / 160) (sampleRecord s k at_)

/-- The samples of a core for a tenant, one for each expiry of its countdown, in their order (R197). -/
def sampleFor (s : State) (ck : Nat) (e : Nat × Sampling) : State :=
  let c := s.core ck
  e.2.due.foldl (fun s at_ => sampleAt s ck e.1 at_) (s.setCore ck { c with samp := tset c.samp e.1 { e.2 with due := [] } })

/-- The expiries of a core that have passed give their samples, before its slots or the settings change (R195, R197). -/
def takeDue (s : State) (ck : Nat) : State :=
  ((s.core ck).samp.filter fun e => (s.iface e.1).smpEnable && !e.2.due.isEmpty).foldl (fun s e => sampleFor s ck e) s

/-- A core is armed and disarmed as its blocks and the tenants' settings have it (R197). -/
def rearm (s : State) (ck : Nat) : State :=
  let ts := armedTenants s ck
  let c := s.core ck
  let s := (ts.filter fun t => (tfind c.samp t).isNone).foldl (fun s t => openRing s t (ck / 160) (armingAsid s ck t)) s
  s.setCore ck { s.core ck with samp := ts.map fun t => (t, tget c.samp t { countdown := (s.iface t).smpPeriod.toNat }) }

/-- The groups of a core with a phase instruction under way, whose steps follow as what they wait for performs (R238). -/
def phased (s : State) (ck : Nat) : List Nat := (coreSlots ck).filter fun k => (s.slot k).phase.isSome

/-- The core has tried its groups in the current cycle, or has none that is ready and no phase to take further. -/
def cycleDone (s : State) (ck : Nat) : Bool := hadCycle s ck || ((pickGroup s ck []).isNone && (phased s ck).isEmpty)

/-- SAMPLE_EXPIRY (R197): a halted die's cores take no samples; the sample sees the issue of its own cycle. -/
def execSampleExpiry (s : State) : Out :=
  let ck := coreKey s.arg.die.toNat s.arg.core.toNat
  if (s.die s.arg.die.toNat).halted.isSome || !cycleDone s ck then .next s
  else .next ((s.core ck).samp.foldl (fun s e => sampleFor s ck e) s)

end Sys2Proof.Machine
end

