-- ==== Sys2Proof/Machine/Blocks.lean ====
section
/-! DEFINITION. Blocks on their slots: binding (R154 to R156, R119), the events of a block's end (R157 to R160), kills and
pre-emption (R158, R164, R165), and the save area (R167, R168). -/
namespace Sys2Proof.Machine

/-! ### Bind records (R154, R155) -/

def sstateOf : Nat → SState
  | 0 => .empty
  | 1 => .ready
  | 2 => .running
  | 3 => .draining
  | 4 => .saving
  | 5 => .faulted
  | 6 => .done
  | _ => .retiring

/-- A bind record with one of its words written (R154); CYC is read-only. A value outside the range that R154 gives its field
counts as a reserved one. -/
def setBindWord (b : Bind) (i : Nat) (v : W64) : Bind :=
  let f (hi lo : Nat) : Nat := bitsOf v.toNat hi lo
  let b : Bind := { b with rsv := b.rsv &&& ~~~(1#8 <<< i) ||| (if bad i f then 1#8 <<< i else 0) }
  match i with
  | 0 => { b with
      sstate := sstateOf (f 63 60), resume := v.getLsbD 59, fuse := v.getLsbD 58, gidx := BitVec.ofNat 4 (f 57 54)
      gcntm1 := BitVec.ofNat 4 (f 53 50), lead := BitVec.ofNat 4 (f 49 46), prio := BitVec.ofNat 3 (f 45 43)
      asid := BitVec.ofNat 12 (f 42 31), tenant := BitVec.ofNat 6 (f 30 25), parlen := BitVec.ofNat 6 (f 24 19)
      sregs := BitVec.ofNat 7 (f 18 12) }
  | 1 => { b with kernel := BitVec.ofNat 64 (v.toNat / 64 * 64) }
  | 2 => { b with save := BitVec.ofNat 64 (v.toNat / 4096 * 4096) }
  | 3 => { b with
      block := BitVec.ofNat 32 (f 63 32), vbase16 := BitVec.ofNat 7 (f 31 25), vreg16 := BitVec.ofNat 5 (f 24 20)
      tbase := BitVec.ofNat 6 (f 19 14), tiles := BitVec.ofNat 4 (f 13 10) }
  | 4 => { b with scr4k := BitVec.ofNat 7 (f 63 57), sbase4k := BitVec.ofNat 6 (f 56 51) }
  | 6 => { b with node := BitVec.ofNat 64 (v.toNat / 128 * 128) }
  | _ => b
where
  bad (i : Nat) (f : Nat → Nat → Nat) : Bool := match i with
    | 0 => decide (f 11 0 ≠ 0 ∨ 7 < f 63 60 ∨ 32 < f 24 19 ∨ 64 < f 18 12)
    | 1 => decide (f 5 0 ≠ 0)
    | 2 => decide (f 11 0 ≠ 0)
    | 3 => decide (f 9 0 ≠ 0 ∨ f 24 20 = 0 ∨ 16 < f 24 20 ∨ 8 < f 13 10)
    | 4 => decide (f 50 0 ≠ 0 ∨ 64 < f 63 57)
    | 6 => decide (f 6 0 ≠ 0)
    | 7 => decide (f 63 0 ≠ 0)
    | _ => false

/-- A bind record from its eight words (R154). -/
def parseBind (ws : List W64) : Bind := (List.range 8).foldl (fun b i => setBindWord b i (ws.getD i 0)) {}

def sstateNo : SState → Nat
  | .empty => 0
  | .ready => 1
  | .running => 2
  | .draining => 3
  | .saving => 4
  | .faulted => 5
  | .done => 6
  | .retiring => 7

/-- A word of a bind record as a read gives it: reserved bits read as zero (R3, R154). -/
def bindWord (b : Bind) (i : Nat) : W64 := match i with
  | 0 => BitVec.ofNat 64 (sstateNo b.sstate * 2 ^ 60 + (if b.resume then 2 ^ 59 else 0) + (if b.fuse then 2 ^ 58 else 0) +
      b.gidx.toNat * 2 ^ 54 + b.gcntm1.toNat * 2 ^ 50 + b.lead.toNat * 2 ^ 46 + b.prio.toNat * 2 ^ 43 + b.asid.toNat * 2 ^ 31 +
      b.tenant.toNat * 2 ^ 25 + b.parlen.toNat * 2 ^ 19 + b.sregs.toNat * 2 ^ 12)
  | 1 => b.kernel
  | 2 => b.save
  | 3 => BitVec.ofNat 64 (b.block.toNat * 2 ^ 32 + b.vbase16.toNat * 2 ^ 25 + b.vreg16.toNat * 2 ^ 20 + b.tbase.toNat * 2 ^ 14 +
      b.tiles.toNat * 2 ^ 10)
  | 4 => BitVec.ofNat 64 (b.scr4k.toNat * 2 ^ 57 + b.sbase4k.toNat * 2 ^ 51)
  | 5 => BitVec.ofNat 64 b.cyc
  | 6 => b.node
  | _ => 0

/-- The slots of a core with Ready records that name a lead slot. -/
def readySlots (s : State) (ck : Nat) (lead : W4) : List Nat :=
  (coreSlots ck).filter fun k => (s.slot k).bind.sstate == .ready && (s.slot k).bind.lead == lead

/-- Two ranges have something in common. -/
def meets (a n b m : Nat) : Bool := decide (0 < n ∧ 0 < m ∧ a < b + m ∧ b < a + n)

/-- The registers, tiles and scratchpad of two blocks overlap. -/
def rangesMeet (a b : Bind) : Bool :=
  let n := a.gcntm1.toNat + 1
  let m := b.gcntm1.toNat + 1
  meets a.vbase16.toNat (n * a.vreg16.toNat) b.vbase16.toNat (m * b.vreg16.toNat) ||
    meets a.tbase.toNat (n * a.tiles.toNat) b.tbase.toNat (m * b.tiles.toNat) ||
    meets a.sbase4k.toNat a.scr4k.toNat b.sbase4k.toNat b.scr4k.toNat

/-- A block runs past its core's files. -/
def rangesPast (b : Bind) : Bool :=
  let n := b.gcntm1.toNat + 1
  decide (128 < b.vbase16.toNat + n * b.vreg16.toNat ∨ 64 < b.tbase.toNat + n * b.tiles.toNat ∨ 64 < b.sbase4k.toNat + b.scr4k.toNat)

/-- The hardware refuses a block (R155); group 0 sits in the lead slot (R154). -/
def blockBad (s : State) (ck : Nat) (ks : List Nat) (b : Bind) : Bool :=
  let bs := ks.map fun k => (s.slot k).bind
  let same (x : Bind) : Bind := { x with gidx := 0, sstate := .ready, cyc := 0 }
  let others := ((coreSlots ck).filter fun k => !ks.contains k).filterMap fun k =>
    let x := (s.slot k).bind
    if x.sstate = .empty ∨ x.sstate = .ready then none else some x
  bs.any (fun x => same x != same b) || bs.any (·.rsv != 0) || bs.any (fun x => decide (b.gcntm1 < x.gidx)) ||
    (bs.map (·.gidx)).eraseDups.length != bs.length || rangesPast b || others.any (rangesMeet b) ||
    (b.fuse && !(s.core ck).fused) || (s.slot (ck * 16 + b.lead.toNat)).bind.gidx != 0 || !ks.contains (ck * 16 + b.lead.toNat)

/-! ### The save area (R167, R168) -/

def saveBase (d : Nat) (b : Bind) : Nat := physKey d (b.save.toNat % 2 ^ 40)

/-- The bytes of a group record (R167). -/
def groupSize (b : Bind) : Nat := 1536 + 2048 * b.vreg16.toNat + 4096 * b.tiles.toNat

def groupBase (d : Nat) (b : Bind) (gidx : Nat) : Nat := saveBase d b + 8192 + 4096 * b.scr4k.toNat + gidx * groupSize b

def padTo (n : Nat) (bs : List W8) : List W8 := bs ++ List.replicate (n - bs.length) 0

/-- The registers that a save keeps, as masks of vector registers, scalar registers and tiles. -/
structure Live where
  v : Nat
  s : Nat
  t : Nat
  deriving DecidableEq, Repr

def bitsIn (n m : Nat) : List Nat := (List.range n).filter fun i => m.testBit i

/-- Every allocated register. -/
def allLive (b : Bind) : Live := ⟨2 ^ (16 * b.vreg16.toNat) - 1, 2 ^ b.sregs.toNat - 1, 2 ^ b.tiles.toNat - 1⟩

/-- The live registers of a safe point (R326, R327). -/
def safeLive (s : State) (b : Bind) (i : Nat) : Live :=
  let a := b.kernel - BitVec.ofNat 64 (64 * (i + 1))
  let l := readObj s (s.obj b.asid.toNat (addrObj a)) (addrOff a) 64
  let all := allLive b
  if recNat l 6 2 ≠ 0x5350 ∨ recNat l 0 2 ≠ i then all
  else ⟨recNat l 0x10 32 &&& all.v, recNat l 8 8 &&& all.s, recNat l 0x30 1 &&& all.t⟩

/-- Stop kinds (R167). -/
def stopKind (killed : W16) (g : Slot) : Nat :=
  if g.bind.sstate = .done ∨ killed.getLsbD g.bind.gidx.toNat ∨ (g.exiting ∧ !g.sleepStop) then 5
  else if g.faulted then 6
  else if g.fpark.isSome then 4
  else if g.sleepStop then 1
  else if g.twait.isSome then 3
  else if g.safe.isSome then 0
  else 2

/-- The operations of a group that sleep, oldest first. -/
def sleepingOps (g : Slot) : List (Outst × QOp) := g.outst.filterMap fun o => match o.op with
  | .queue q => some (o, q)
  | _ => none

/-- The pc that a save keeps (R164). -/
def savedPc (g : Slot) (kind : Nat) : W64 :=
  if kind = 1 then ((sleepingOps g).head?).elim g.pc (·.1.fpc) else g.pc

/-- The lanes that a parked instruction still has to do (R217). -/
def parkLanes (g : Slot) : W32 := match g.fpark with
  | some p => (match p.op with
    | some m => maskOf fun l => m.lanes.any fun x => x.lane == l
    | none => 0xFFFFFFFF)
  | none => 0

/-- The 16 bytes of a translation register (R209). -/
def transBytes (b : TransReg) : List W8 :=
  leBytes 8 (b.pfn.toNat * 2 ^ 36 + b.lim.toNat * 2 ^ 16 + b.key.toNat * 2 ^ 9 + (if b.set then 256 else 0) +
      (if b.a then 8 else 0) + (if b.w then 4 else 0) + (if b.r then 2 else 0) + (if b.v then 1 else 0)) ++
    leBytes 8 (b.obj.toNat * 2 ^ 44 + b.base.toNat)

/-- The words of a trap frame that are not zero (R282). -/
def frameBytes (f : Frame) : List W8 := padTo 256 ((List.range 7).flatMap fun k => leBytes 8 (frameWord f k).toNat)

/-- The held trap of a record (R167). -/
def heldBytes (t : Option Trap) : List W8 :=
  match t with
  | none => List.replicate 48 0
  | some t =>
    leBytes 8 (2 ^ 63 + (if t.more then 2 ^ 62 else 0)) ++ leBytes 8 (trapWord t).toNat ++ leBytes 8 t.fpc.toNat ++
      leBytes 8 t.arg0.toNat ++ leBytes 8 t.arg1.toNat ++ leBytes 8 0

/-- The first 1,024 bytes of a group record. -/
def groupHead (g : Slot) (kind : Nat) (l : Live) : List W8 :=
  let lanes8 (x : Lanes 8) : List W8 := (List.range 32).map fun i => lane x i
  leBytes 8 (savedPc g kind).toNat ++
    leBytes 8 (kind * 2 ^ 56 + g.count * 2 ^ 42 + (if g.inHandler then 2 ^ 41 else 0) + g.em.toNat) ++
    leBytes 8 ((parkLanes g).toNat * 2 ^ 32) ++
    ((List.range 16).flatMap fun i => leBytes 4 (maskReg g (BitVec.ofNat 4 i)).toNat) ++ leBytes 8 0 ++
    lanes8 g.fflags ++ lanes8 g.iflags ++ ((List.range 8).flatMap fun i => leBytes 8 (tget g.tc i 0).toNat) ++
    leBytes 40 g.wa.val.toNat ++
    leBytes 8 ((if g.wa.nan then 4 else 0) + (if g.wa.pinf then 2 else 0) + (if g.wa.ninf then 1 else 0)) ++
    leBytes 32 l.v ++ leBytes 8 l.s ++ leBytes 8 l.t ++
    ((List.range 16).flatMap fun i => transBytes (tget g.b i {})) ++
    ((List.range 17).flatMap fun i => leBytes 8 (tget g.cursor i 0).toNat) ++
    (match g.twait with
     | some (_, n) => leBytes 8 (2 ^ 63 + n.toNat)
     | none => leBytes 8 0) ++
    heldBytes g.held ++ frameBytes g.frame

/-- A group record (R167). -/
def groupRecord (g : Slot) (kind : Nat) (l : Live) : List W8 :=
  groupHead g kind l ++ padTo 512 ((bitsIn 64 l.s).flatMap fun i => leBytes 8 (tget g.s i 0).toNat) ++
    padTo (2048 * g.bind.vreg16.toNat)
      ((bitsIn 256 l.v).flatMap fun i => (List.range 32).flatMap fun j => leBytes 4 (lane (getVn g i) j).toNat) ++
    padTo (4096 * g.bind.tiles.toNat) ((bitsIn 8 l.t).flatMap fun i => memBytes g.t (4096 * i) 4096)

/-- A copy's place in the save area: its record and its progress cursor (R167, R412). -/
def copyBytes (c : Copy) : List W8 :=
  padTo 192 c.record ++ leBytes 8 c.done ++ leBytes 8 (c.tl.toNat * 2 ^ 40 + c.num.toNat) ++
    leBytes 8 (c.stat * 2 ^ 56 + c.code.toNat * 2 ^ 48 + (if c.prq then 1 else 0)) ++ leBytes 40 0

/-- The first 8 KiB of a save area (R167). -/
def saveHead (s : State) (d : Nat) (b : Bind) (x : Block) (carry : Nat) (copies : List Copy) : List W8 :=
  leBytes 8 0x00014B51 ++ leBytes 8 carry ++ leBytes 8 (2 ^ x.holds.length - 1) ++ List.replicate 232 0 ++
    ((List.range 8).flatMap fun i => leBytes 8 (tget x.tl i 0).toNat) ++
    ((List.range 16).flatMap fun i => leBytes 8 ((tget x.bars i {}).exp * 2 ^ 32 + (tget x.bars i {}).arr.toNat)) ++
    List.replicate 64 0 ++ memBytes s.mem (saveBase d b + 0x200) 256 ++ List.replicate 0xD00 0 ++
    padTo 4096 (copies.flatMap copyBytes)

/-! ### Groups start and resume (R119, R156, R168) -/

/-- A group of a new block (R119). -/
def freshGroup (s : State) (d ctx : Nat) (b : Bind) : Slot :=
  { ctx := ctx, bind := { b with sstate := .running, cyc := 0 }, pc := b.kernel, em := 0xFFFFFFFF
    s := (List.range (min b.parlen.toNat b.sregs.toNat)).map fun i => (i, memW64 s.mem (saveBase d b + 0x200 + 8 * i)) }

/-- A restored translation register: its rights are the object's, and it translates anew (R168). -/
def restoreTrans (s : State) (asid lo hi : Nat) : TransReg :=
  let o := s.obj asid (bitsOf hi 63 44)
  { obj := BitVec.ofNat 20 (bitsOf hi 63 44), base := BitVec.ofNat 44 (bitsOf hi 43 0), pfn := BitVec.ofNat 28 (bitsOf lo 63 36),
    lim := BitVec.ofNat 20 (bitsOf lo 35 16), key := BitVec.ofNat 7 (bitsOf lo 15 9), set := lo.testBit 8,
    a := o.a, w := o.w, r := o.r, v := false }

/-- The instruction at a restored pc. -/
def instrAt (s : State) (die : Nat) (b : Bind) (pc : W64) : Option Instr :=
  match decode (lineSlot (fetchLine s die b.asid.toNat pc) (pc.toNat % 8)) with
  | .ok i => some i
  | .error _ => none

/-- The counter that a restored group waits on in `twait` (R168, R413). -/
def waitCounter : Instr → Option W3
  | .twait o => some o.tl
  | .twaitImm o => some o.tl
  | _ => none

/-- The barrier that a restored group waits at, once it has arrived (R168, R194). -/
def waitBarrier : Instr → Option W4
  | .sbwait o => some o.k
  | _ => none

/-- A restored trap frame. -/
def restoreFrame (m : Mem) (a : Nat) : Frame :=
  { trapw := memW64 m a, fpc := memW64 m (a + 8), rpc := memW64 m (a + 16), more := (memNat m (a + 24) 8).testBit 32,
    em := BitVec.ofNat 32 (memNat m (a + 24) 4), arg0 := memW64 m (a + 32), arg1 := memW64 m (a + 40),
    bcount := BitVec.ofNat 14 (memNat m (a + 48) 8) }

/-- A restored held trap, whose RPC is the saved pc (R164). -/
def restoreHeld (m : Mem) (a : Nat) (pc : W64) : Option Trap :=
  let v := memNat m a 8
  let w := memNat m (a + 8) 8
  if v.testBit 63 then
    some { cause := BitVec.ofNat 8 (bitsOf w 63 56), code := BitVec.ofNat 8 (bitsOf w 55 48), precise := w.testBit 40,
           lanes := BitVec.ofNat 32 w, fpc := memW64 m (a + 16), rpc := pc, arg0 := memW64 m (a + 24), arg1 := memW64 m (a + 32),
           more := v.testBit 62 }
  else none

/-- Registers packed at an address, by the numbers that a mask names. -/
def unpack {α : Type} (ns : List Nat) (read : Nat → α) : Tbl α := ns.zipIdx.map fun p => (p.1, read p.2)

/-- A vector register's 128 bytes. -/
def restoreVec (m : Mem) (a : Nat) : Vec := genVec fun i => BitVec.ofNat 32 (memNat m (a + 4 * i) 4)

/-- A group restored from its record (R167, R168); one that was killed while its block was saved is Done (R158). -/
def restoreGroup (s : State) (d ctx : Nat) (b : Bind) (blk : Block) (slept : List QOp) (inner : Option W64) : Slot :=
  let m := s.mem
  let a := groupBase d b b.gidx.toNat
  let pc := memW64 m a
  let w1 := memNat m (a + 8) 8
  let kind := if blk.killed.getLsbD b.gidx.toNat then 5 else bitsOf w1 63 56
  let i := instrAt s d b pc
  let vl := bitsIn (16 * b.vreg16.toNat) (memNat m (a + 0x110) 32)
  let sl := bitsIn b.sregs.toNat (memNat m (a + 0x130) 8)
  let tl := bitsIn b.tiles.toNat (memNat m (a + 0x138) 1)
  let fl := memNat m (a + 0x108) 4
  let tw := memNat m (a + 0x2C8) 8
  { ctx := ctx
    bind := { b with sstate := if kind = 5 then .done else if kind = 6 then .faulted else .running, cyc := 0 }
    pc := pc
    em := BitVec.ofNat 32 w1
    v := unpack vl fun j => restoreVec m (a + 0x600 + 128 * j)
    s := unpack sl fun j => memW64 m (a + 0x400 + 8 * j)
    m := (List.range 16).map fun j => (j, BitVec.ofNat 32 (memNat m (a + 0x18 + 4 * j) 4))
    t := tl.zipIdx.foldl (fun t p => memCopy t (4096 * p.1) m (a + 0x600 + 2048 * b.vreg16.toNat + 4096 * p.2) 4096) []
    tc := (List.range 8).map fun j => (j, memW64 m (a + 0xA0 + 8 * j))
    b := (List.range 16).map fun j =>
      (j, restoreTrans s b.asid.toNat (memNat m (a + 0x140 + 16 * j) 8) (memNat m (a + 0x148 + 16 * j) 8))
    wa := { val := BitVec.ofNat 320 (memNat m (a + 0xE0) 40), nan := fl.testBit 2, pinf := fl.testBit 1, ninf := fl.testBit 0 }
    fflags := genVec fun j => memRead m (a + 0x60 + j)
    iflags := genVec fun j => memRead m (a + 0x80 + j)
    frame := restoreFrame m (a + 0x300)
    inHandler := w1.testBit 41
    held := restoreHeld m (a + 0x2D0) pc
    count := bitsOf w1 55 42
    faulted := kind == 6
    inner := inner
    stopped := kind == 6
    exiting := kind == 5
    twait := if kind = 3 ∧ tw.testBit 63 then (i.bind waitCounter).map fun t => (t, BitVec.ofNat 40 tw) else none
    barrier := if kind = 2 then (i.bind waitBarrier).filter fun k => (tget blk.bars k.toNat {}).arr.getLsbD b.gidx.toNat else none
    replay := if kind = 4 then some (BitVec.ofNat 32 (memNat m (a + 0x14) 4)) else none
    cursor := (List.range 17).map fun j => (j, memW64 m (a + 0x240 + 8 * j))
    slept := slept }

/-- The barriers and the counters of a save area. -/
def restoreBlock (s : State) (d : Nat) (b : Bind) (old : Block) : Block :=
  let a := saveBase d b
  { tl := (List.range 8).map fun i => (i, memW64 s.mem (a + 0x100 + 8 * i))
    fin := old.fin
    bars := (List.range 16).map fun i =>
      (i, ⟨memNat s.mem (a + 0x144 + 8 * i) 4, BitVec.ofNat 16 (memNat s.mem (a + 0x140 + 8 * i) 4)⟩)
    holds := old.holds
    killed := old.killed
    carry := memNat s.mem (a + 8) 8 }

/-- The slot and the lead that a saved copy or dispatch stands at. -/
def ghostSlot : Nat := 20480

/-- The scratchpad of a block (R202). -/
def scratchAt (ck : Nat) (b : Bind) : Nat := scrKey ck (b.sbase4k.toNat * 4096)

/-- A copy of a saved block: what it keeps of the scratchpad stands at offsets in the block's own. -/
def shelve (c : Copy) (base n : Nat) : Copy :=
  { c with pre := { c.pre with scr := memCopy [] 0 c.pre.scr base n }
           wrote := c.wrote.map fun w => if w.1 then (true, w.2.1 - base, w.2.2) else w }

/-- Its block is back, with its scratchpad in another place. -/
def unshelve (c : Copy) (base n : Nat) : Copy :=
  { c with pre := { c.pre with scr := memCopy [] base c.pre.scr 0 n }
           wrote := c.wrote.map fun w => if w.1 then (true, w.2.1 + base, w.2.2) else w }

/-- The stopped copies of a resumed block go on from their cursors (R168, R223). -/
def resumeCopies (s : State) (d lead : Nat) (slotOf : Nat → Nat) (cs : List (Nat × Nat)) : State :=
  cs.foldl (fun s p =>
    match (s.die d).copies.find? fun c => c.id == p.1 with
    | none => s
    | some c =>
      let c : Copy := { unshelve c (scratchAt (lead / 16) (s.slot lead).bind) (4096 * (s.slot lead).bind.scr4k.toNat) with
        slot := slotOf p.2, lead := lead, stop := if c.prq then .page else .none }
      let s := s.setCopy d c
      match c.resp with
      | none => s
      | some r => answerCopy s d c r) s

/-- The stopped dispatches of a resumed block go on at their cursors (R53). -/
def resumeDisps (s : State) (d lead : Nat) (slotOf : Nat → Nat) (ds : List (Nat × Nat)) : State :=
  ds.foldl (fun s p =>
    match s.disp d p.1 with
    | none => s
    | some x => dispRun (s.setDisp d { x with slot := slotOf p.2, lead := lead, stopped := false }) d x.id) s

/-- The groups of a block start afresh (R119, R156, R239). -/
def startBlock (s : State) (ck : Nat) (ks : List Nat) (b : Bind) : State :=
  let d := ck / 160
  let z := scratchAt ck b
  let s := { s with scr := memClear s.scr z (z + 4096 * b.scr4k.toNat) }
  let s := ks.foldl (fun s k =>
    let (c, s) := s.fresh
    s.setSlot k (freshGroup s d c (s.slot k).bind)) s
  s.setBlock (ck * 16 + b.lead.toNat) {}

/-- What the model keeps of the block that a save area holds. -/
def savedAt (s : State) (d : Nat) (b : Bind) : Option Saved := (s.die d).saved.find? fun v => v.bind.save == b.save

/-- A held trap is taken before the group issues, with RPC at its pc (R164, R168); a Faulted group issues nothing. -/
def takeHeld (s : State) (k : Nat) : State :=
  match (s.slot k).held with
  | none => s
  | some t =>
    if (s.slot k).faulted then s
    else takeTrap (s.setSlot k { s.slot k with held := none }) k { t with rpc := (s.slot k).pc }

/-- The groups of a block resume from its save area (R156, R168). -/
def resumeBlock (s : State) (ck : Nat) (ks : List Nat) (b : Bind) : State :=
  let d := ck / 160
  let lead := ck * 16 + b.lead.toNat
  let v := savedAt s d b
  let old := v.elim {} (·.block)
  let blk := restoreBlock s d b old
  let x := s.die d
  let s := s.setDie d { x with saved := x.saved.filter fun y => y.bind.save != b.save }
  let s := { s with scr := memCopy s.scr (scratchAt ck b) s.mem (saveBase d b + 8192) (4096 * b.scr4k.toNat) }
  let s := ks.foldl (fun s k =>
    let gb := (s.slot k).bind
    let (c, s) := s.fresh
    let ctx := (v.bind fun v => v.ctxs[gb.gidx.toNat]?).getD c
    let slept := v.elim [] fun v => v.slept.filterMap fun p => if p.1 = gb.gidx.toNat then some p.2 else none
    let inner := v.bind fun v => (v.inners.find? fun p => p.1 == gb.gidx.toNat).map (·.2)
    s.setSlot k (restoreGroup s d ctx gb blk slept inner)) s
  let s := s.setBlock lead blk
  let slotOf (g : Nat) : Nat := (ks.find? fun k => (s.slot k).bind.gidx.toNat == g).getD lead
  let s := resumeDisps (resumeCopies s d lead slotOf (v.elim [] (·.copies))) d lead slotOf (v.elim [] (·.disps))
  testRetiring (testBarriers (ks.foldl takeHeld s) lead) lead

/-- An accepted block runs: its core reads afresh from the memory points (R155, R239). -/
def acceptBlock (s : State) (ck : Nat) (ks : List Nat) (b : Bind) : State :=
  let s := refreshCore (takeDue s ck) ck
  rearm (if b.resume then resumeBlock s ck ks b else startBlock s ck ks b) ck

/-- A refused block: its slots are Empty again, and one BADBIND event is posted; without room for it the slots stay as
they are (R155, R159). -/
def refuseBlock (s : State) (ck : Nat) (ks : List Nat) (b : Bind) : State :=
  let d := ck / 160
  if ringRoom (s.die d) then
    ks.foldl (fun s k => s.setSlot k {}) (postEvent s d ⟨5, b.lead, BitVec.ofNat 8 (ck % 160), 0, b.block, 0⟩)
  else s

/-- Every slot of a block is Ready, as one of its records counts them. -/
def readyWhole (s : State) (ks : List Nat) : Bool := ks.any fun k => decide ((s.slot k).bind.gcntm1.toNat + 1 ≤ ks.length)

/-- The check of a block once all its slots are Ready: as many as one of its records counts (R155, log 94: DEDUCED). A halted die
binds nothing (R171). -/
def checkBlock (s : State) (ck : Nat) (lead : W4) : State :=
  let ks := readySlots s ck lead
  match ks with
  | [] => s
  | k :: _ =>
    let b := (s.slot k).bind
    if !readyWhole s ks || (s.die (ck / 160)).halted.isSome then s
    else if blockBad s ck ks b then refuseBlock s ck ks b
    else acceptBlock s ck ks b

/-- The slot table holds a slot: its core is awake, and its die online (R13, R22). -/
def inTable (s : State) (k : Nat) : Bool := (s.core (k / 16)).awake && dieOnline s (slotDie k)

/-- A write to an Empty slot of the slot table (R13, R22, R155). -/
def writeBind (s : State) (k : Nat) (b : Bind) : State :=
  if (s.slot k).bind.sstate ≠ .empty ∨ !inTable s k then s
  else if b.sstate = .ready then checkBlock (s.setSlot k { bind := b }) (k / 16) b.lead
  else s.setSlot k { bind := { b with sstate := .empty } }

/-- The save area runs past the die's memory, into addresses that R207 reserves. -/
def saveOutside (b : Bind) : Bool :=
  decide (2 ^ 37 < b.save.toNat % 2 ^ 40 + 8192 + 4096 * b.scr4k.toNat + (b.gcntm1.toNat + 1) * groupSize b)

/-- The record completes a block that the hardware accepts and whose save area is not in memory. -/
def startsOutside (s : State) (k : Nat) (b : Bind) : Bool :=
  let t := s.setSlot k { bind := b }
  let ks := readySlots t (k / 16) b.lead
  (s.slot k).bind.sstate == .empty && inTable s k && b.sstate == .ready && (s.die (slotDie k)).halted.isNone &&
    (ks.head?).elim false fun l =>
    let c := (t.slot l).bind
    readyWhole t ks && !blockBad t (k / 16) ks c && saveOutside c

/-- BIND_RECORD_WRITE (R155, R156). A block whose save area lies at reserved addresses (R207) is a fault. -/
def execBindRecordWrite (s : State) : Out :=
  let b := parseBind s.arg.words
  if startsOutside s (argSlot s) b then .fault (.noMemory (slotDie (argSlot s)) b.save.toNat)
  else .next (writeBind s (argSlot s) b)

/-! ### The end of a block (R157 to R160) -/

/-- The slots of a block are Empty again, with what they still had in the matrix engine (R174, R367). -/
def emptySlots (s : State) (lead : Nat) : State :=
  let s := takeDue s (lead / 16)
  let ks := blockSlots s lead
  let c := s.core (lead / 16)
  let s := if c.engine.any (fun e => ks.contains e.1) then
    s.setCore (lead / 16) { c with engine := c.engine.filter fun e => !ks.contains e.1 } else s
  rearm ((ks.foldl (fun s k => s.setSlot k {}) s).setBlock lead {}) (lead / 16)

/-- The charge of a block (R160). -/
def blockCharge (s : State) (lead : Nat) : Nat :=
  (((blockSlots s lead).foldl (fun n k => n + (s.slot k).bind.cyc) (s.block lead).carry) + 15) / 16

/-- The firmware's launch loses or retires a block (R120, R124, R226). -/
def endBlock (s : State) (lead charge : Nat) (retired : Bool) : State :=
  let d := slotDie lead
  let x := s.die d
  match x.bound.find? fun b => b.core == slotCoreNo lead && b.lead == lead % 16 && b.ended.isNone with
  | none => s
  | some b =>
    let s := s.setDie d { x with bound := x.bound.map fun y => if y = b then { y with ended := some charge } else y }
    let r : NodeRef := ⟨b.asid, b.graph, b.node⟩
    match s.launchNode r with
    | none => s
    | some (_, n) =>
      let n : Node := { n with live := n.live - 1 }
      settleLaunch (s.putNode r (if retired then { n with blocks := n.blocks + 1 }
        else if b.again then { n with again := n.again ++ [b.block] }
        else { n with lost := some (n.lost.getD 4) })) r

/-- A killed block whose event finds room: its slots are Empty (R157 to R160). -/
def finishKill (s : State) (lead : Nat) : State :=
  let d := slotDie lead
  if (s.block lead).dead && ringRoom (s.die d) then
    let c := blockCharge s lead
    let blk := ((blockSlots s lead).head?).elim 0 fun k => (s.slot k).bind.block
    let s := postEvent s d ⟨3, BitVec.ofNat 4 (lead % 16), BitVec.ofNat 8 (slotCoreNo lead), 0, blk, BitVec.ofNat 64 c⟩
    endBlock (emptySlots s lead) lead c false
  else s

/-- A group is gone: its sleeper entries, its grants, and its work in the matrix engine (R47, R56, R158). -/
def killContext (s : State) (k : Nat) : State :=
  let g := s.slot k
  let c := s.core (k / 16)
  let s := s.setCore (k / 16) { c with engine := c.engine.filter fun e => e.1 != k }
  releaseContext s g.ctx g.bind.asid (groupOps g)

/-- The engine operations of a block are abandoned, with what their pushes hold at a home (R192). -/
def abandon (s : State) (lead : Nat) : State :=
  let d := slotDie lead
  let x := s.die d
  let gone := (x.dispatches.filter fun y => y.lead == lead).map (·.id)
  let s := (x.dispatches.filter fun y => y.lead == lead).foldl leaveRow s
  let s := s.setDie d { x with copies := x.copies.filter fun c => c.lead != lead
                               dispatches := x.dispatches.filter fun y => y.lead != lead }
  { s with ports := s.ports.map fun p => (p.1, { p.2 with sleepers := p.2.sleepers.filter fun e => match e.who with
      | .dispatch d' id => !(d' == d && gone.contains id)
      | _ => true }) }

/-- Unpublished stores of a killed block stay on the core without an owner (R158). -/
def orphanStores (s : State) (lead : Nat) : State :=
  let c := s.core (lead / 16)
  let ks := blockSlots s lead
  s.setCore (lead / 16) { c with dirty := c.dirty.map fun e => if ks.contains (lead / 16 * 16 + e.2.2) then (e.1, e.2.1, 99) else e }

/-- Faults of contexts whose block is killed are to write no record (R287). -/
def voidNotes (s : State) (d : Nat) (ctxs : List Nat) : State :=
  let x := s.die d
  s.setDie d { x with notes := x.notes.map fun n => if ctxs.contains n.ctx then { n with void := true } else n }

/-- KILLBLK (R158, R159). -/
def killBlock (s : State) (lead : Nat) : State :=
  let ks := blockSlots s lead
  if ks.isEmpty || (s.block lead).dead then s
  else
    let s := voidNotes s (slotDie lead) (ks.map fun k => (s.slot k).ctx)
    let s := ks.foldl killContext s
    let s := orphanStores (abandon (dropHolds s lead) lead) lead
    let s := ks.foldl (fun s k => s.setSlot k { bind := (s.slot k).bind, exiting := true, stopped := true }) s
    let s := s.setBlock lead { carry := (s.block lead).carry, dead := true }
    finishKill s lead

/-- The lead slot that a command or a block's event names. -/
def argLead (s : State) : Nat := argSlot s

/-! ### Kills that a stopped launch asks for (R123 to R125) -/

/-- A launch that a rule has ended. -/
def launchStopped (s : State) (r : NodeRef) : Bool := match s.launchNode r with
  | some (_, n) => n.stop
  | none => false

/-- A saved block is given up: its holds, grants, sleeper entries and copies with it (R158), and its charge is due (R114, R115, R160). -/
def dropSaved (s : State) (d : Nat) (v : Saved) : State :=
  let x := s.die d
  let s := s.setDie d { x with
    saved := x.saved.filter fun y => y != v
    copies := x.copies.filter fun c => !(v.copies.any fun p => p.1 == c.id)
    dispatches := x.dispatches.filter fun y => !(v.disps.any fun p => p.1 == y.id) }
  let s := voidNotes (freeRun s d v.page v.pages) d v.ctxs
  let s := v.block.holds.foldl (fun s i => unuse s d i.toNat) s
  let s := v.ctxs.zipIdx.foldl (fun s c => releaseContext s c.1 v.bind.asid ((v.slept.filter fun p => p.1 == c.2).map (·.2))) s
  let r : NodeRef := ⟨v.bind.asid, v.graph, v.node⟩
  let c := (v.block.carry + 15) / 16
  let s := chargeQueue s d r c
  match s.launchNode r with
  | none => s
  | some (_, n) => settleAll (allowClaims (chargeUsed (s.putNode r { n with live := n.live - 1, lost := some (n.lost.getD 4) }) r c) r) r

/-- A resident block of a stopped launch that still lives. -/
def doomedBlock (s : State) (d : Nat) : Option Nat :=
  (s.die d).bound.findSome? fun b =>
    let lead := slotKey d b.core b.lead
    if b.ended.isNone ∧ launchStopped s ⟨b.asid, b.graph, b.node⟩ ∧ !(s.block lead).dead ∧ (blockSlots s lead) ≠ [] then some lead
    else none

def doomedSaved (s : State) (d : Nat) : Option Saved :=
  (s.die d).saved.find? fun v => launchStopped s ⟨v.bind.asid, v.graph, v.node⟩

/-- Kill the blocks of stopped launches, one after another. -/
def sweepKills : Nat → State → State
  | 0, s => s
  | f + 1, s =>
    match (List.range 8).findSome? (doomedBlock s) with
    | some lead => sweepKills f (killBlock s lead)
    | none =>
      match (List.range 8).findSome? fun d => (doomedSaved s d).map fun v => (d, v) with
      | some (d, v) => sweepKills f (dropSaved s d v)
      | none => s

/-- Every block of a stopped launch is killed. -/
def sweep (s : State) : State :=
  sweepKills ((List.range 8).foldl (fun n d => n + (s.die d).bound.length + (s.die d).saved.length) 1) s

/-- A rule ends a launch with a status: a waiting one completes at once, a ready one binds nothing more (R123 to R125). -/
def markStopped (status : Nat) (s : State) (r : NodeRef) : State :=
  match s.launchNode r with
  | none => s
  | some (_, n) =>
    if n.state = .complete ∨ n.stop then s
    else if n.state = .waiting then completeNode s r status 0
    else s.putNode r { n with stop := true, lost := some status }

/-- Launches of one graph are ended by a rule together, before any of their edges is evaluated (R121, R123 to R125). -/
def stopLaunches (s : State) (asid : BitVec 12) (graph : W64) (js : List Nat) (status : Nat) : State :=
  let rs := js.map fun j => (⟨asid, graph, j⟩ : NodeRef)
  settleNodes (rs.foldl testLaunch (sweep (rs.foldl (markStopped status) s))) asid graph

/-- A launch is ended by a rule with a status (R123 to R125). -/
def stopLaunch (s : State) (r : NodeRef) (status : Nat) : State := stopLaunches s r.asid r.graph [r.node] status

/-- KILLBLK (R158). -/
def execKillblk (s : State) : Out := .next (sweep (killBlock s (argLead s)))

/-! ### Commands (R158, R164) -/

/-- A group that a kill can still end. -/
def liveGroup (g : Slot) : Bool :=
  (g.bind.sstate == .running || g.bind.sstate == .faulted || g.bind.sstate == .draining || g.bind.sstate == .saving) &&
    !groupGone g

/-- One group of a block is killed: its slot is Done, and its operations' results are discarded (R158). -/
def killSlot (s : State) (k : Nat) : State :=
  let g := s.slot k
  let lead := leadOf k g
  let s := killContext s k
  let s := s.setSlot k { ctx := g.ctx, bind := { g.bind with sstate := .done }, pc := g.pc, count := g.count, cursor := g.cursor,
                         pubs := g.pubs }
  let b := s.block lead
  testRetiring (testBarriers (s.setBlock lead { b with killed := b.killed ||| (1#16 <<< g.bind.gidx.toNat) }) lead) lead

/-- A kill of one group, or of the block when it is the last live one (R158). -/
def killGroup (s : State) (k : Nat) : State :=
  let g := s.slot k
  let lead := leadOf k g
  if !liveGroup g ∨ (s.block lead).dead then s
  else if (blockSlots s lead).any fun j => j != k && liveGroup (s.slot j) then killSlot s k
  else killBlock s lead

/-- KILLGRP (R158). -/
def execKillgrp (s : State) : Out := .next (sweep (killGroup s (argSlot s)))

/-- A Faulted group goes on at the RPC of its frame (R158), and takes a deferred fault that has come meanwhile (R186). -/
def resumeGroup (s : State) (k : Nat) : State :=
  let g := s.slot k
  if g.bind.sstate = .faulted then
    let g : Slot := { leaveHandler g g.frame.rpc with
      bind := { g.bind with sstate := .running }, em := g.frame.em, faulted := false, stopped := false, inner := none }
    settle (takeHeld (s.setSlot k g) k) k
  else s

/-- A command for a halted die waits until the die resumes (R171). -/
def holdCommand (s : State) (d : Nat) (resume : Bool) (k : Nat) : State :=
  s.setDie d { s.die d with commands := (s.die d).commands ++ [(resume, k)] }

/-- RESUMEGRP (R158); on a halted die, whose slots stay as they are, it takes effect at resume (R171, log 93: DEDUCED). -/
def execResumegrp (s : State) : Out :=
  let k := argSlot s
  .next (if (s.die (slotDie k)).halted.isSome then holdCommand s (slotDie k) true k else resumeGroup s k)

/-- A slot begins to drain (R164): a group that already waits has stopped. One that waits at a barrier, in `twait` or for a fault while an
earlier operation sleeps stops there, since it would otherwise issue again what it has issued since (R168, log 117: DEDUCED). -/
def drainSlot (s : State) (g : Slot) (k : Nat) : Slot :=
  let d : Slot := { g with bind := { g.bind with sstate := .draining } }
  match g.bind.sstate with
  | .done => { d with exiting := true, stopped := true }
  | .faulted => { d with stopped := true }
  | _ =>
    if g.barrier.isSome || g.fpark.isSome || waiting g then { d with stopped := true }
    else if asleepAt g then { d with stopped := true, sleepStop := true }
    else d
where
  asleepAt (g : Slot) : Bool := g.outst.any fun o => match o.op with
    | .queue q => o.res.isNone && (match q.st with
      | .asleep _ _ _ => true
      | .parked _ => true
      | _ => false)
    | _ => false
  waiting (g : Slot) : Bool := match g.twait with
    | none => false
    | some (tl, n) => !tlReached (tget (s.block (leadOf k g)).tl tl.toNat 0) n.toNat

/-- The dispatches of draining groups: a push that sleeps is withdrawn, and one that waits for a sleeper entry or for the
firmware stops (R53). -/
def drainDispatches (s : State) (lead : Nat) : State :=
  let d := slotDie lead
  ((s.die d).dispatches.filter fun x => x.lead == lead).foldl (fun s x =>
    if dispDraining s x then
      if x.asleep.isSome then withdrawRow s d x
      else if x.parked then s.setDisp d { x with stopped := true, parked := false }
      else s
    else s) s

/-- The drain of a block (R164). -/
def drainBlock (s : State) (lead : Nat) : State :=
  let ks := blockSlots s lead
  let ok (k : Nat) : Bool :=
    let x := (s.slot k).bind.sstate
    x == .running || x == .faulted || x == .done
  if ks.isEmpty || (s.block lead).dead || !ks.all ok then s
  else
    let killed := (s.block lead).killed
    let s := ks.foldl (fun s k =>
      let g := s.slot k
      if killed.getLsbD g.bind.gidx.toNat then s else s.setSlot k (drainSlot s g k)) s
    drainDispatches s lead

/-- PREEMPT: on a halted die it takes effect at resume (R158, R164, R171). -/
def preempt (s : State) (lead : Nat) : State :=
  let d := slotDie lead
  if (s.die d).halted.isSome then holdCommand s d false lead
  else drainBlock s lead

/-- PREEMPT (R158). -/
def execPreempt (s : State) : Out := .next (preempt s (argLead s))

/-! ### Draining and saving (R164, R165, R167) -/

/-- A group that the drain need not wait for: killed, or stopped, with no `qfence` outstanding (R164, R165, R453). -/
def drained (g : Slot) : Bool :=
  g.bind.sstate == .done || (g.bind.sstate == .draining && g.stopped && g.fence.isNone)

/-- Every group of the block has stopped (R157, R165); a halted die's slots stay as they are (R171). -/
def drainOver (s : State) (lead : Nat) : Bool :=
  let ks := blockSlots s lead
  !(s.block lead).dead && (s.die (slotDie lead)).halted.isNone && ks.all (fun k => drained (s.slot k)) &&
    ks.any fun k => (s.slot k).bind.sstate == .draining

/-- A group's results have returned, but for operations whose sleep has stopped the group and which are to be issued again (R164,
R165). -/
def resultsIn (g : Slot) : Bool :=
  g.bind.sstate == .done ||
    (g.bind.sstate == .saving && g.board.isEmpty && g.phase.isNone && g.outst.all fun o => match o.op with
      | .queue q => g.sleepStop && o.res.isNone && (match q.st with
        | .asleep _ _ _ => true
        | .parked _ => true
        | _ => false)
      | _ => false)

/-- Steps 1 and 2 of a save are over: the block's results have returned, and its dispatches have stopped (R165). -/
def saveReady (s : State) (lead : Nat) : Bool :=
  let ks := blockSlots s lead
  !(s.block lead).dead && (s.die (slotDie lead)).halted.isNone && ringRoom (s.die (slotDie lead)) &&
    ks.all (fun k => resultsIn (s.slot k)) && ks.any (fun k => (s.slot k).bind.sstate == .saving) &&
    (s.die (slotDie lead)).dispatches.all fun x => x.lead != lead || (x.stopped && x.finished.isNone && !x.withdrawn)

/-- DRAIN_COMPLETE (R157, R164, R165): the block enters Saving, and its copies stop at their chunk boundaries. -/
def execDrainComplete (s : State) : Out :=
  let lead := argLead s
  if !drainOver s lead then .next s
  else
    let d := slotDie lead
    let s := (blockSlots s lead).foldl (fun s k =>
      let g := s.slot k
      if g.bind.sstate = .draining then s.setSlot k { g with bind := { g.bind with sstate := .saving } } else s) s
    let x := s.die d
    let mine (c : Copy) : Bool := c.lead == lead
    .next (s.setDie d { x with
      copies := x.copies.map fun c => if mine c then { c with stop := .saved } else c
      faults := x.faults.filter fun r => !(x.copies.any fun c => mine c && r.copy == some c.id) })

/-- Sleeper entries of a context that a save puts away wait for its reissue (R458). -/
def putAwaySleepers (s : State) (ctx : Nat) : State :=
  { s with ports := s.ports.map fun p => (p.1, { p.2 with sleepers := p.2.sleepers.map fun e => match e.who with
      | .group c _ => if c = ctx then { e with who := .group c 0 } else e
      | _ => e }) }

/-- Put-away entries of a context whose sleep has ended with a status while the wake was on its way: the status stays with what the
context is to issue again, and the entry is free (R45, R458). -/
def endedAway (s : State) (ctx : Nat) : State :=
  s.ports.foldl (fun s p => p.2.sleepers.foldl (fun s e =>
    match e.woken with
    | some (c, _) =>
      if e.who = .group ctx 0 ∧ c ≠ 0 then
        noteAway (s.dropSleeper p.1 e.entry) e.flow.sdie.toNat (· == ctx) (.asleep e.flow (BitVec.ofNat 4 (p.1 % 16)) e.entry) (c, 0, 0)
      else s
    | none => s) s) s

/-- Operations asleep at their homes that the group is to issue again, with the group's index (log 13: DEDUCED): those that it has had no
time to issue since an earlier save among them. -/
def sleptAway (g : Slot) : List (Nat × QOp) :=
  (((sleepingOps g).map (·.2)).filter (fun q => match q.st with
    | .asleep _ _ _ => true
    | _ => false) ++ g.slept).map fun q => (g.bind.gidx.toNat, q)

/-- The trap that a save holds for a group: the deferred fault that has come since it stopped (R164, R286), which MORE joins
with one held before (R280). -/
def heldAtSave (g : Slot) (kind : Nat) : Option Trap :=
  match g.dfault, g.held with
  | none, h => h
  | some (_, t), none => some { t with rpc := savedPc g kind }
  | some _, some h => some { h with more := true }

/-- A group's record is written. -/
def saveGroup (s : State) (d : Nat) (killed : W16) (k : Nat) : State :=
  let g := s.slot k
  let kind := stopKind killed g
  let g : Slot := { g with held := heldAtSave g kind }
  let l : Live := if kind = 5 then ⟨0, 0, 0⟩
    else if kind = 0 then safeLive s g.bind (g.safe.elim 0 (·.toNat))
    else allLive g.bind
  { s with mem := memStore s.mem (groupBase d g.bind g.bind.gidx.toNat) (groupRecord g kind l) }

/-- A save of a whole block (R165, R167): its stores are published, its area is written, and what the area does not hold
stays with the firmware. -/
def saveBlock (s : State) (lead : Nat) : State :=
  let d := slotDie lead
  let ks := blockSlots s lead
  let s := publishSlots s (lead / 16) (ks.map (· % 16))
  let blk := s.block lead
  let b := (s.slot lead).bind
  let x := s.die d
  let cs := x.copies.filter fun c => c.lead == lead
  let ds := x.dispatches.filter fun y => y.lead == lead
  let gidx (k : Nat) : Nat := (s.slot k).bind.gidx.toNat
  let carry := ks.foldl (fun n k => n + (s.slot k).bind.cyc) blk.carry
  let own := x.bound.find? fun y => y.core == slotCoreNo lead && y.lead == lead % 16 && y.ended.isNone
  let v : Saved := {
    bind := { b with sstate := .ready, resume := true, cyc := 0 }
    graph := own.elim 0 (·.graph), node := own.elim 0 (·.node), number := own.elim b.block.toNat (·.block)
    page := own.elim 0 (·.page), pages := own.elim 0 (·.pages)
    ctxs := (List.range (b.gcntm1.toNat + 1)).map fun i => (ks.find? fun k => gidx k == i).elim 0 fun k => (s.slot k).ctx
    block := { blk with carry := carry }, lead := lead
    slept := ks.flatMap fun k => sleptAway (s.slot k)
    copies := cs.map fun c => (c.id, gidx c.slot)
    disps := ds.map fun y => (y.id, gidx y.slot)
    inners := ks.filterMap fun k => (s.slot k).inner.map fun w => (gidx k, w) }
  let head := saveHead s d b blk carry cs
  let mem := memCopy (memStore s.mem (saveBase d b) head) (saveBase d b + 8192) s.scr (scratchAt (lead / 16) b)
    (4096 * b.scr4k.toNat)
  let s := { s with mem := mem }
  let s := ks.foldl (fun s k => putAwaySleepers (saveGroup s d blk.killed k) (s.slot k).ctx) s
  let x := s.die d
  let s := s.setDie d { x with
    saved := x.saved ++ [v]
    bound := x.bound.filter fun y => some y != own
    faults := x.faults.filter fun r => !(r.slot.any ks.contains) && !(ds.any fun y => r.disp == some y.id)
    copies := x.copies.map fun c =>
      if c.lead = lead then { shelve c (scratchAt (lead / 16) b) (4096 * b.scr4k.toNat) with slot := ghostSlot, lead := ghostSlot } else c
    dispatches := x.dispatches.map fun y => if y.lead = lead then { y with slot := ghostSlot, lead := ghostSlot } else y }
  v.ctxs.foldl endedAway s

/-- SAVE_COMPLETE (R157, R160, R165, R167). -/
def execSaveComplete (s : State) : Out :=
  let lead := argLead s
  let d := slotDie lead
  if !saveReady s lead then .next s
  else
    let blk := (s.slot lead).bind.block
    let s := emptySlots (saveBlock s lead) lead
    .next (postEvent s d ⟨2, BitVec.ofNat 4 (lead % 16), BitVec.ofNat 8 (slotCoreNo lead), 0, blk, 0⟩)

/-! ### Retirement (R120, R157) -/

/-- A queue operation of a context has not performed at its home. -/
def owes (s : State) (ctx : Nat) : Bool :=
  let mine (w : Requester) : Bool := match w with
    | .group c _ => c == ctx
    | _ => false
  s.flows.any fun f => (f.2.arrived.any fun m => asks m.typ && mine m.ctx) || f.2.answers.any (fun a => mine a.who) ||
    f.2.held.any fun m => mine m.ctx

/-- The conditions of R120 hold for a Retiring block. -/
def retirable (s : State) (lead : Nat) : Bool :=
  let ks := blockSlots s lead
  let x := s.die (slotDie lead)
  !ks.isEmpty && !(s.block lead).dead && x.halted.isNone &&
    ks.all (fun k => (s.slot k).bind.sstate == .retiring && (s.slot k).outst.isEmpty && !owes s (s.slot k).ctx) &&
    x.copies.all (fun c => c.lead != lead) && x.dispatches.all fun y => y.lead != lead

/-- BLOCK_RETIRE (R120, R157, R160): the block's stores are published, its holds end, and its slots are Empty. -/
def execBlockRetire (s : State) : Out :=
  let lead := argLead s
  let d := slotDie lead
  if !retirable s lead || !ringRoom (s.die d) then .next s
  else
    let ks := blockSlots s lead
    let s := dropHolds (publishSlots s (lead / 16) (ks.map (· % 16))) lead
    let s := { s with grants := s.grants.filter fun x => !(ks.any fun k => (s.slot k).ctx == x.ctx) }
    let c := blockCharge s lead
    let blk := (s.slot lead).bind.block
    let s := postEvent s d ⟨1, BitVec.ofNat 4 (lead % 16), BitVec.ofNat 8 (slotCoreNo lead), 0, blk, BitVec.ofNat 64 c⟩
    .next (sweep (endBlock (emptySlots s lead) lead c true))

/-! ### The ring's HEAD (R152, R159) -/

/-- Everything that waits for room in the ring of a die, slot by slot. -/
def postWaiting (s : State) (d : Nat) : State :=
  ((s.slots.map (·.1)).filter fun k => slotDie k == d).foldl (fun s k =>
    let s := reportFault s k
    let s := finishKill s k
    if (s.slot k).bind.sstate = .ready then checkBlock s (k / 16) (s.slot k).bind.lead else s) s

/-- EVENT_RING_HEAD_WRITE (R159). -/
def execEventRingHeadWrite (s : State) : Out :=
  let d := s.arg.die.toNat
  .next (sweep (postWaiting (s.setDie d { s.die d with drhead := s.arg.v.setWidth 16 }) d))

end Sys2Proof.Machine
end

