-- ==== Sys2Proof/Machine/Cells.lean ====
section
/-! DEFINITION. Cells and link frames, bit by bit (R63 to R65, R73, R80), and the transmission of frames (R60, R81). -/
namespace Sys2Proof.Machine

/-! ### The header (R63, R64) -/

def typeCode : MsgType → Nat
  | .write => 0
  | .reserve => 1
  | .push => 2
  | .dequeue => 3
  | .merge => 4
  | .release => 5
  | .sleep => 6
  | .flush => 7
  | .reply => 8
  | .wake => 9
  | .flushAck => 10
  | .ack => 11
  | .flowReset => 12

def typeOf (n : Nat) : Option MsgType :=
  match n with
  | 0 => some .write
  | 1 => some .reserve
  | 2 => some .push
  | 3 => some .dequeue
  | 4 => some .merge
  | 5 => some .release
  | 6 => some .sleep
  | 7 => some .flush
  | 8 => some .reply
  | 9 => some .wake
  | 10 => some .flushAck
  | 11 => some .ack
  | 12 => some .flowReset
  | _ => none

def Cell.dpkg (c : Cell) : BitVec 9 := c.hdr.extractLsb' 119 9
def Cell.dq (c : Cell) : BitVec 23 := c.hdr.extractLsb' 96 23
def Cell.spkg (c : Cell) : BitVec 9 := c.hdr.extractLsb' 87 9
def Cell.sdie (c : Cell) : W3 := c.hdr.extractLsb' 84 3
def Cell.tenant (c : Cell) : W6 := c.hdr.extractLsb' 78 6
def Cell.type (c : Cell) : Nat := (c.hdr.extractLsb' 74 4).toNat
def Cell.mark (c : Cell) : Bool := c.hdr.getLsbD 73
def Cell.echo (c : Cell) : Bool := c.hdr.getLsbD 72
def Cell.fseq (c : Cell) : W16 := c.hdr.extractLsb' 56 16
def Cell.arg (c : Cell) : BitVec 48 := c.hdr.extractLsb' 8 48
def Cell.cidx (c : Cell) : Nat := (c.hdr.extractLsb' 5 2).toNat
def Cell.clast (c : Cell) : Nat := (c.hdr.extractLsb' 3 2).toNat
def Cell.esz (c : Cell) : W3 := c.hdr.extractLsb' 0 3

/-- The flow of a cell (R66). -/
def Cell.flow (c : Cell) : Flow := ⟨c.spkg, c.sdie, c.dpkg, c.dq.extractLsb' 20 3⟩

def Cell.setMark (c : Cell) : Cell := { c with hdr := c.hdr ||| (1#128 <<< 73) }

/-- The key slot that byte 0 of a cell names in clear (R63, R80). -/
def Cell.setKey (c : Cell) (slot : Bool) : Cell :=
  { c with hdr := (c.hdr &&& ~~~(1#128 <<< 7)) ||| (if slot then 1#128 <<< 7 else 0) }

def idleCell : Cell := ⟨15#128 <<< 74, 0⟩

/-! ### A message in cells (R64, R73) -/

/-- A cell of the type may take several to carry an element (R64). -/
def manyCells (t : MsgType) : Bool := t == .write || t == .push || t == .reply || t == .wake

/-- The cells of a message (R64). -/
def cellsOf (m : Msg) : Nat :=
  match m.esz with
  | some z => if manyCells m.typ then max 1 (16 * 2 ^ z.toNat / 64) else 1
  | none => 1

/-- DQ (R63, R64, R73, R78). -/
def dqOf (m : Msg) : BitVec 23 :=
  let low : BitVec 20 := match m.typ with
    | .flush | .flushAck | .ack | .flowReset => 0
    | .reply => BitVec.ofNat 20 (m.num % 65536)
    | .wake => m.port ++ BitVec.ofNat 16 (m.entry % 4096)
    | _ => m.port ++ m.queue
  m.flow.ddie ++ low

/-- ARG (R64). The REPLY by which a switch refuses a FLUSH sets bit 47, to say that DQ names a flush number (log 99: DESIGN CHOICE). -/
def argOf (m : Msg) : BitVec 48 :=
  match m.typ with
  | .write => m.seq
  | .reserve => BitVec.ofNat 48 (min m.n 127 + if m.try_ then 128 else 0)
  | .push => if m.try_ then 128 else 0
  | .dequeue => BitVec.ofNat 48 (m.mode % 4)
  | .merge => m.key.setWidth 48
  | .release => if m.mrg then 0 else m.seq
  | .sleep => if m.withdraw then BitVec.ofNat 48 (m.entry % 4096 * 65536 + 4) else BitVec.ofNat 48 (m.mode % 4)
  | .flush => BitVec.ofNat 48 (m.n % 128 * 2 ^ 41 + m.entry % 64 * 2 ^ 35 + m.num % 65536)
  | .reply => if m.n = 1 then m.seq ||| (1#48 <<< 47) else m.seq
  | .wake => m.seq
  | .flushAck => BitVec.ofNat 48 (m.num % 65536)
  | .ack => m.fseq.setWidth 48
  | .flowReset => BitVec.ofNat 48 (m.n % 2)

/-- Bits [83:78]: the tenant of a request, the status or fault code of an answer (R63). -/
def tenantOfMsg (m : Msg) : W6 :=
  match m.typ with
  | .reply | .wake => m.code.setWidth 6
  | .flushAck | .ack | .flowReset => 0
  | _ => m.tenant

/-- FSEQ; an acknowledgement and a reset name none (R63, R66). -/
def fseqOfMsg (m : Msg) : W16 := if numbered m.typ || m.typ == .flush then m.fseq else 0

/-- The bytes of a message's payload (R64, R73). Byte 8 of a RELEASE is one for a merge release (log 99: DESIGN CHOICE). -/
def payloadOf (m : Msg) : List W8 :=
  match m.typ with
  | .write | .push | .merge => m.data
  | .release => leBytes 8 m.ticket.toNat ++ [if m.mrg then 1 else 0]
  | .reply => if m.data.isEmpty then leBytes 8 m.ticket.toNat else m.data
  | .wake => leBytes 8 m.ticket.toNat
  | _ => []

/-- Cell `i` of a message. -/
def cellOf (m : Msg) (i : Nat) : Cell where
  hdr := m.flow.dpkg ++ dqOf m ++ m.flow.spkg ++ m.flow.sdie ++ tenantOfMsg m ++ BitVec.ofNat 4 (typeCode m.typ) ++ 0#1 ++
    BitVec.ofBool m.echo ++ fseqOfMsg m ++ argOf m ++ 0#1 ++ BitVec.ofNat 2 i ++ BitVec.ofNat 2 (cellsOf m - 1) ++ m.esz.getD 0
  payload := BitVec.ofNat 512 (leNat (((payloadOf m).drop (64 * i)).take 64))

/-- The message that cells carry, in their order: what an endpoint reads from them. -/
def msgOf (cs : List Cell) : Option Msg :=
  match cs with
  | [] => none
  | c :: _ =>
    (typeOf c.type).map fun t =>
      let a := c.arg.toNat
      let bytes := cs.flatMap fun x => leBytes 64 x.payload.toNat
      let elem := (bytes ++ List.replicate 256 0).take (16 * 2 ^ c.esz.toNat)
      let m : Msg := { flow := c.flow, typ := t, port := c.dq.extractLsb' 16 4, queue := c.dq.extractLsb' 0 16, tenant := c.tenant,
                       fseq := c.fseq, echo := c.echo }
      match t with
      | .write => { m with seq := c.arg, data := elem, esz := some c.esz }
      | .reserve => { m with n := a % 128, try_ := c.arg.getLsbD 7 }
      | .push => { m with try_ := c.arg.getLsbD 7, data := elem, esz := some c.esz }
      | .dequeue => { m with mode := a % 4, esz := if a % 4 = 3 then none else some c.esz }
      | .merge => { m with key := BitVec.ofNat 8 a, data := elem, esz := some c.esz }
      | .release => { m with seq := c.arg, ticket := BitVec.ofNat 64 (leNat (bytes.take 8)), mrg := (bytes.getD 8 0).getLsbD 0 }
      | .sleep => { m with mode := a % 4, withdraw := c.arg.getLsbD 2, entry := a / 65536 % 4096 }
      | .flush => { m with n := bitsOf a 47 41, entry := bitsOf a 40 35, num := a % 65536 }
      | .reply => { m with tenant := 0, port := 0, queue := 0, code := c.tenant.setWidth 8, seq := c.arg, num := (c.dq.extractLsb' 0 16).toNat,
                           ticket := BitVec.ofNat 64 (leNat (bytes.take 8)), data := elem, esz := some c.esz,
                           n := if c.tenant = 0x18 ∧ c.arg.getLsbD 47 then 1 else 0 }
      | .wake => { m with tenant := 0, queue := 0, code := c.tenant.setWidth 8, seq := c.arg, entry := (c.dq.extractLsb' 0 12).toNat,
                          ticket := BitVec.ofNat 64 (leNat (bytes.take 8)) }
      | .flushAck => { m with num := a % 65536 }
      | .ack => { m with fseq := BitVec.ofNat 16 a }
      | .flowReset => { m with n := a % 2 }

/-! ### Malformed cells (R64) -/

/-- The bits of ARG that a cell may set. -/
def argMask (t : MsgType) (arg : BitVec 48) : BitVec 48 :=
  match t with
  | .write | .release | .reply | .wake => BitVec.allOnes 48
  | .reserve | .merge => 0xFF
  | .push => 0x80
  | .dequeue => 3
  | .sleep => if arg.getLsbD 2 then 0xFFF0007 else 3
  | .flush => 0xFFF80000FFFF
  | .flushAck | .ack => 0xFFFF
  | .flowReset => 1

/-- The bits of DQ that a cell may set (R73, R78). -/
def dqMask (t : MsgType) : BitVec 23 :=
  match t with
  | .flush => 0x700000
  | .reply => 0x70FFFF
  | .wake => 0x7F0FFF
  | _ => 0x7FFFFF

/-- A cell whose ESZ names an element (R63). -/
def namesElement (t : MsgType) (arg : BitVec 48) : Bool :=
  match t with
  | .write | .push | .merge | .reply | .wake => true
  | .dequeue => arg.toNat % 4 != 3
  | _ => false

/-- A cell that breaks R64: a reserved type or element size, a nonzero field where the cell has none (log 114: DEDUCED), or an index of a
last cell other than the one that its element asks for. -/
def malformed (c : Cell) : Bool :=
  match typeOf c.type with
  | none => decide (c.type ≠ 15) || c.arg != 0 || c.dq != 0 || c.tenant != 0 || c.cidx != 0 || c.clast != 0 || c.esz != 0
  | some t =>
    let e := 16 * 2 ^ c.esz.toNat / 64
    c.arg &&& ~~~argMask t c.arg != 0 || c.dq &&& ~~~dqMask t != 0 || (decide (10 ≤ c.type) && c.tenant != 0) ||
      decide (5 ≤ c.esz.toNat) || (!namesElement t c.arg && c.esz != 0) || decide (c.clast < c.cidx) ||
      decide (c.clast ≠ if manyCells t then max 1 e - 1 else 0)

/-! ### Frames (R65, R80) -/

/-- The link identifier of a direction: the switch's port, which is the package's number, times 64, and the link (R59, R80). -/
def linkId (pkg : BitVec 9) (l : Nat) (fromSwitch : Bool) : BitVec 32 :=
  BitVec.ofNat 32 (pkg.toNat * 64 + l) ||| (if fromSwitch then 1#32 <<< 31 else 0)

def nonceOf (id : BitVec 32) (ctr : Nat) : BitVec 96 := id ++ BitVec.ofNat 64 ctr

/-- Byte 0 of each of four cells (R80). -/
def aadOf (cs : List Cell) : BitVec 32 :=
  BitVec.ofNat 32 (leNat ((cs.take 4).map fun c => c.hdr.setWidth 8))

/-- A frame of up to four cells, filled with IDLE cells and sealed (R65, R80). -/
def sealFrame (slot : Bool) (key : W64) (nonce : BitVec 96) (cs : List Cell) : LFrame :=
  let cs := (cs.take 4 ++ List.replicate (4 - cs.length) idleCell).map (·.setKey slot)
  { slot := slot, key := key, nonce := nonce, aad := aadOf cs, cells := cs }

/-- A frame authenticates under a key and a nonce (R80, R82, log 20: DESIGN CHOICE). -/
def frameGood (f : LFrame) (key : Option W64) (nonce : BitVec 96) : Bool :=
  key == some f.key && f.nonce == nonce && f.aad == aadOf f.cells && f.cells.all fun c => c.hdr.getLsbD 7 == f.slot

/-- A slot has counted `n` more frames. -/
def KeySlot.count (k : KeySlot) (n : Nat) : KeySlot := { k with ctr := min (2 ^ 48) (k.ctr + n) }

/-! ### Transmission (R60, R65, R80, R81) -/

def Link.txSlot (x : Link) : KeySlot := if x.txKey then x.tx1 else x.tx0
def Link.swSlot (x : Link) : KeySlot := if x.swKey then x.sw1 else x.sw0

def Link.countTx (x : Link) (n : Nat) : Link :=
  let x := { x with txRun := x.txRun + n }
  if x.txKey then { x with tx1 := x.tx1.count n } else { x with tx0 := x.tx0.count n }

def Link.countSw (x : Link) (n : Nat) : Link :=
  if x.swKey then { x with sw1 := x.sw1.count n } else { x with sw0 := x.sw0.count n }

/-- The frames that leave in `n` frame slots: those with cells, and the count of all. A slot without a key, and one that has counted
2^48 frames, send nothing (R81). -/
def txFrames (id : BitVec 32) : Nat → Link → List LFrame → Link × List LFrame
  | 0, x, out => (x, out)
  | n + 1, x, out =>
    match x.txSlot.key with
    | none => (x, out)
    | some k =>
      if 2 ^ 48 ≤ x.txSlot.ctr then (x, out)
      else if x.tx.isEmpty then (x.countTx (n + 1), out)
      else txFrames id n ({ x with tx := x.tx.drop 4 }.countTx 1) (out ++ [sealFrame x.txKey k (nonceOf id x.txSlot.ctr) (x.tx.take 4)])

/-- A run of IDLE frames comes after the frames that are on their way, and lengthens a run that it goes on from. -/
def addIdle (rx : List LFrame) (f : LFrame) : List LFrame :=
  match rx.getLast? with
  | some g =>
    if (g.cells.all fun c => c.type == 15) && g.slot == f.slot && g.key == f.key && g.nonce + BitVec.ofNat 96 g.run == f.nonce then
      rx.dropLast ++ [{ g with run := g.run + f.run }]
    else rx ++ [f]
  | none => rx ++ [f]

/-- The switch fills the frame slots towards this package: with the cells of its output queue, and then with IDLE cells. -/
def swFrames (id : BitVec 32) : Nat → Link → Link
  | 0, x => x
  | n + 1, x =>
    match x.swSlot.key with
    | none => x
    | some k =>
      let f := sealFrame x.swKey k (nonceOf id x.swSlot.ctr) (x.swOut.take 4)
      if x.swOut.isEmpty then { x with rx := addIdle x.rx { f with run := n + 1 } }.countSw (n + 1)
      else swFrames id n ({ x with swOut := x.swOut.drop 4, rx := x.rx ++ [f] }.countSw 1)

/-- A span of time on a link that is up: 50 bytes a nanosecond in each direction, 336 a frame (R60, R65). -/
def linkPass (pkg : BitVec 9) (l ns : Nat) (x : Link) : Link × List LFrame :=
  if x.state ≠ .up then (x, [])
  else
    let a := x.txBytes + 50 * ns
    let b := x.swBytes + 50 * ns
    let x := swFrames (linkId pkg l true) (b / 336) x
    let (x, fs) := txFrames (linkId pkg l false) (a / 336) x []
    ({ x with txBytes := a % 336, swBytes := b % 336 }, fs)

/-- The links carry frames for a span of time. -/
def passLinks (s : State) (ns : Nat) : State :=
  s.links.foldl (fun s e =>
    let (x, fs) := linkPass s.pkgid e.1 ns e.2
    { s with links := tset s.links e.1 x, out := { s.out with frames := s.out.frames ++ fs.map fun f => (e.1, f) } }) s

/-- A cell waits to be sent on a link. -/
def sendCell (s : State) (l : Nat) (c : Cell) : State :=
  let x := s.link l
  s.setLink l { x with tx := x.tx ++ [c] }

/-- The cells of a message leave on one path (R64, R67). -/
def sendCells (s : State) (l : Nat) (m : Msg) : State :=
  (List.range (cellsOf m)).foldl (fun s i => sendCell s l (cellOf m i)) s

/-- The path of the smallest backlog among some, the lowest of equals (R67). -/
def bestPath (s : State) (ls : List Nat) : Option Nat :=
  match ls with
  | [] => none
  | l :: r => some (r.foldl (fun b k => if (s.link k).tx.length < (s.link b).tx.length then k else b) l)

/-- The best path to a package other than the one last used, if there is one (R69). -/
def otherPath (s : State) (pkg : BitVec 9) (l : Nat) : Option Nat :=
  let up := upLinks s pkg
  bestPath s (if (up.filter (· != l)).isEmpty then up else up.filter (· != l))

/-! ### The status word (R83) -/

def stateCode : LinkState → Nat
  | .down => 0
  | .training => 1
  | .up => 2
  | .disabled => 3

/-- FLNK; a key slot holds a key when either direction's does (log 115: DEDUCED). -/
def flnkWord (x : Link) : W64 :=
  x.autherr ++ x.downs ++ x.malf ++ 0#6 ++ BitVec.ofBool (x.tx1.key.isSome || x.rx1.key.isSome) ++
    BitVec.ofBool (x.tx0.key.isSome || x.rx0.key.isSome) ++ BitVec.ofBool x.txKey ++ 0#3 ++ BitVec.ofNat 2 (stateCode x.state) ++
    BitVec.ofBool x.disable ++ 0#1

end Sys2Proof.Machine
end

