-- ==== Sys2Proof/Machine/Fabric.lean ====
section
/-! DEFINITION. The fabric: admission, links and their keys, the last-hop switch, delivery, acknowledgement, flushes, and the
reset of flows (R59 to R85). -/
namespace Sys2Proof.Machine

/-- TYPE 0 to 7, which a switch checks and marks (R74, R78). -/
def dataCell (t : MsgType) : Bool := asks t || t == .merge || t == .flush

/-! ### Admission (R67, R75) -/

/-- The markers of a flush leave, one on each up path (R71). -/
def sendMarkers (s : State) (f : Flow) (m : Msg) (ls : List Nat) : State :=
  let x := s.flow f
  let s := s.setFlow f { x with flushes := x.flushes.map fun u => if u.num = m.num then { u with paths := ls, sentAt := s.time } else u }
  ls.foldl (fun s l => sendCells s l { m with n := ls.length, entry := l }) s

/-- An admitted message leaves, and its source keeps it until an ACK covers it (R69). -/
def launchMsg (s : State) (m : Msg) (l : Nat) : State :=
  let s := sendCells s l m
  let x := s.flow m.flow
  if numbered m.typ then s.setFlow m.flow { x with unacked := x.unacked ++ [⟨m, l, s.time, s.time⟩] } else s

/-- A flow that awaits its FLOWRESET answer sends nothing else (R85). -/
def resetting (s : State) (m : Msg) : Bool := (s.flow m.flow).resetAt.isSome && m.typ != .flowReset

/-- MESSAGE_ADMIT (R67, R75, R85): the oldest message that may go to a package leaves, once the bucket is not in debt and a path is
up. -/
def execMessageAdmit (s : State) : Out :=
  let k := limKey s.arg.die.toNat s.arg.pkg
  let l := s.limiter k
  let t := tokensNow s l
  let up := upLinks s s.arg.pkg
  match l.waiting.find? fun m => !resetting s m, bestPath s up with
  | some m, some p =>
    if t < 0 then .next s
    else
      let cells := if m.typ = .flush then up.length else cellsOf m
      let s := s.setLimiter k { l with waiting := l.waiting.erase m, tokens := t - (320 * cells : Nat), tokensAt := s.time }
      .next (if m.typ = .flush then sendMarkers s m.flow m up else launchMsg s m p)
  | _, _ => .next s

/-- RATE_TICK (R75): every 10 µs, 8 more units unless an echo came in the window. -/
def execRateTick (s : State) : Out :=
  let k := limKey s.arg.die.toNat s.arg.pkg
  let l := s.limiter k
  let t := l.tickAt + 10000
  if s.time < t then .next s
  else
    let quiet := l.echoes.all fun e => !(decide (l.tickAt < e) && decide (e ≤ t))
    .next (s.setLimiter k { credited s l with tickAt := t, echoes := l.echoes.filter fun e => decide (t < e),
                                              units := if quiet then min (l.units + 8) 512 else l.units })

/-! ### Links (R61, R80 to R84) -/

/-- No link of the package is up. -/
def noLink (s : State) : Bool := (List.range 64).all fun l => !linkUp s l

/-- Since when a package has had no path: one that is cut off while no link is up has had none since then. -/
def cutSince (s : State) (p : Nat) : Nat := tget s.fabric.noPath p (tget s.fabric.noPath 512 s.time)

/-- The paths that are up decide since when a package has had none (R85). -/
def notePaths (s : State) : State :=
  let cut := (s.fabric.badPaths.map (·.2)).eraseDups.filter fun p => (upLinks s (BitVec.ofNat 9 p)).isEmpty
  { s with fabric := { s.fabric with noPath :=
      (if noLink s then [(512, tget s.fabric.noPath 512 s.time)] else []) ++ cut.map fun p => (p, cutSince s p) } }

/-- A link leaves or enters the set of up paths: a transition to down counts (R83), and frames on the wires are lost. -/
def linkTo (s : State) (l : Nat) (st : LinkState) : State :=
  let x := s.link l
  let x : Link := { x with state := st, rx := [], downs := if x.state ≠ .down ∧ st = .down then sat16 x.downs 1 else x.downs }
  notePaths (s.setLink l (if st = .training ∨ st = .up then x else { x with tx := [], swOut := [], atSwitch := [] }))

/-- A training link sends the counters of its transmit slots in clear (R80). -/
def sendCounters (s : State) (l : Nat) : State :=
  let x := s.link l
  { s with out := { s.out with training := s.out.training ++ [(l, x.tx0.ctr, x.tx1.ctr)] } }

/-- The path from a link's switch to a package comes back (R84). -/
def pathBack (s : State) (l : Nat) (pkg : BitVec 9) : State :=
  notePaths { s with fabric := { s.fabric with badPaths := s.fabric.badPaths.filter fun p => p != (l, pkg.toNat) } }

/-- LINK_TRAINING (R61, R80): the first link sets PKGID; one that reports another port is held disabled; each end adopts the counters
that the other sends. With `flag`, the link between the switch and the package `pkg` trains (R84). -/
def execLinkTraining (s : State) : Out :=
  let l := s.arg.link.toNat
  let x := s.link l
  if s.arg.flag then .next (pathBack s l s.arg.pkg)
  else if !s.fabric.enable || x.disable || x.exhausted || !(x.state == .training || x.state == .down) then .next s
  else if s.fabric.pkgid.isSome && s.fabric.pkgid != some s.arg.pkg then .next (linkTo s l .disabled)
  else
    let s := sendCounters { s with fabric := { s.fabric with pkgid := some s.arg.pkg } } l
    let a := s.arg.v.toNat
    let b := s.arg.w.toNat
    .next (notePaths (s.setLink l { x with
      state := .up, rx := [], rxRun := (x.rxRun.1, 0), txBytes := 0, swBytes := 0,
      rx0 := { x.rx0 with ctr := a }, rx1 := { x.rx1 with ctr := b }, sw0 := { x.sw0 with ctr := a }, sw1 := { x.sw1 with ctr := b } }))

/-- FRAME_ALIGNMENT_LOSS (R80). -/
def execFrameAlignmentLoss (s : State) : Out :=
  let l := s.arg.link.toNat
  .next (if (s.link l).state = .up then linkTo s l .training else s)

/-- A message leaves its failed path for the best other one (R69, R84). -/
def resendUnacked (s : State) (f : Flow) (due : Unacked → Bool) : State :=
  (s.flow f).unacked.foldl (fun s u =>
    if !due u || resetting s { u.msg with flow := f } then s
    else match otherPath s f.dpkg u.link with
      | none => s
      | some p =>
        let s := sendCells s p u.msg
        let x := s.flow f
        s.setFlow f { x with unacked := x.unacked.map fun y => if y.msg.fseq = u.msg.fseq then { y with link := p, sentAt := s.time } else y }) s

/-- The marker of a flush for one path (R71). -/
def markerOf (f : Flow) (u : FlushOut) (l : Nat) : Msg :=
  { flow := f, typ := .flush, fseq := u.fseq, num := u.num, tenant := u.tenant, n := u.paths.length, entry := l, dev := u.dev }

/-- The markers of a flush are replaced on other paths under the same numbers (R71). -/
def resendMarkers (s : State) (f : Flow) (u : FlushOut) (lost : Nat → Bool) : State :=
  u.paths.foldl (fun s l =>
    if !lost l || (s.flow f).resetAt.isSome then s
    else match otherPath s f.dpkg l with
      | none => s
      | some p => sendCells s p (markerOf f u l)) s

def ownFlows (s : State) : List Flow := (s.flows.map (·.1)).filter fun f => f.spkg == s.pkgid && f.dpkg != s.pkgid

/-- What a failed path carried is resent on those that remain (R84): the path by a link, to the packages that a test picks. -/
def replacePath (s : State) (l : Nat) (to_ : BitVec 9 → Bool) : State :=
  ((ownFlows s).filter fun f => to_ f.dpkg).foldl (fun s f =>
    (s.flow f).flushes.foldl (fun s u => resendMarkers s f u (· == l)) (resendUnacked s f fun u => u.link == l)) s

def replaceLink (s : State) (l : Nat) : State := replacePath s l fun _ => true

/-- LINK_FAILURE (R84): a link of the package fails, or its switch; with `flag`, the link between the switch and the package
`pkg`. -/
def execLinkFailure (s : State) : Out :=
  let l := s.arg.link.toNat
  let x := s.link l
  if s.arg.flag then
    if s.fabric.badPaths.contains (l, s.arg.pkg.toNat) then .next s
    else
      let s := notePaths { s with fabric := { s.fabric with badPaths := s.fabric.badPaths ++ [(l, s.arg.pkg.toNat)] } }
      .next (replacePath s l (· == s.arg.pkg))
  else .next (if x.state = .up ∨ x.state = .training then replaceLink (linkTo s l .down) l else s)

/-- AUTH_FAIL_LINK_DOWN (R82). -/
def execAuthFailLinkDown (s : State) : Out :=
  let l := s.arg.link.toNat
  let x := s.link l
  if x.state = .up ∧ 16 ≤ (x.fails.filter fun t => s.time < t + 1000000).length then
    let s := s.setLink l { x with fails := [] }
    .next (replaceLink (linkTo s l .down) l)
  else .next s

/-- FLNK_DISABLE_WRITE (R83). -/
def execFlnkDisableWrite (s : State) : Out :=
  let l := s.arg.link.toNat
  let x := s.link l
  let s := s.setLink l { x with disable := s.arg.flag }
  if s.arg.flag then .next (replaceLink (linkTo s l .disabled) l)
  else if x.state = .disabled then .next (linkTo s l (if s.fabric.enable then .training else .down))
  else .next s

/-- FABCFG_WRITE (R61): the timeouts; enabling trains the links and resets the limiters (R75), and without ENABLE every link
stays down. -/
def execFabcfgWrite (s : State) : Out :=
  let v := s.arg.v
  let on := v.getLsbD 9
  let was := s.fabric.enable
  let rttw : W8 := v.extractLsb' 24 8
  let s := { s with fabric := { s.fabric with
    unreach := v.extractLsb' 32 16, rttw := if rttw.toNat < 2 then 2 else rttw, rto := v.extractLsb' 16 8, enable := on } }
  if on && !was then
    let s := { s with limiters := s.limiters.map fun e => (e.1, { credited s e.2 with units := 512, lastCut := none }) }
    .next ((List.range 64).foldl (fun s l => if (s.link l).state = .down then linkTo s l .training else s) s)
  else if was && !on then
    .next ((List.range 64).foldl (fun s l => if (s.link l).state = .disabled then s else linkTo s l .down) s)
  else .next s

/-! ### Keys (R81) -/

/-- A new key in a receive slot: the switch's transmitter takes it too, and uses it from its next frame on (log 20: DESIGN CHOICE). -/
def installRx (x : Link) (slot : Bool) (k : KeySlot) : Link :=
  let x := { x with rxNew := some slot, rxRun := (x.rxRun.1, 0), swKey := slot }
  if slot then { x with rx1 := k, sw1 := k } else { x with rx0 := k, sw0 := k }

/-- A new key in a transmit slot ends an exhaustion (R81). -/
def installTx (x : Link) (slot : Bool) (k : KeySlot) : Link :=
  let x := { x with txNew := some slot, txRun := 0, exhausted := false }
  if slot then { x with tx1 := k } else { x with tx0 := k }

/-- KEY_INSTALL (R81): `flag` names the transmit slots, `flag2` slot 1; a new key starts at counter 0. -/
def execKeyInstall (s : State) : Out :=
  let l := s.arg.link.toNat
  let x := s.link l
  let k : KeySlot := { key := some s.arg.v }
  .next (s.setLink l (if s.arg.flag then installTx x s.arg.flag2 k else installRx x s.arg.flag2 k))

/-- KEY_SWITCH (R81): transmission goes on under the other slot, if it holds a key. -/
def execKeySwitch (s : State) : Out :=
  let l := s.arg.link.toNat
  let x := s.link l
  .next (if (if x.txKey then x.tx0 else x.tx1).key.isSome then s.setLink l { x with txKey := !x.txKey, txRun := 0 } else s)

/-- 1,024 consecutive frames have come under the new slot, or have left under it (R81). -/
def rxRetires (x : Link) : Bool := x.rxNew == some x.rxRun.1 && decide (1024 ≤ x.rxRun.2)
def txRetires (x : Link) : Bool := x.txNew == some x.txKey && decide (1024 ≤ x.txRun)

def retireRx (x : Link) : Link :=
  let x := { x with rxNew := none }
  if x.rxRun.1 then { x with rx0 := { x.rx0 with key := none }, sw0 := { x.sw0 with key := none } }
  else { x with rx1 := { x.rx1 with key := none }, sw1 := { x.sw1 with key := none } }

def retireTx (x : Link) : Link :=
  let x := { x with txNew := none }
  if x.txKey then { x with tx0 := { x.tx0 with key := none } } else { x with tx1 := { x.tx1 with key := none } }

/-- KEY_RETIRE (R81), for the receive slots and, as the far receiver has seen the same frames, for the transmit slots. -/
def execKeyRetire (s : State) : Out :=
  let l := s.arg.link.toNat
  let x := s.link l
  let x := if rxRetires x then retireRx x else x
  .next (s.setLink l (if txRetires x then retireTx x else x))

/-- FRAME_COUNTER_EXHAUST (R81): a transmitter that has counted 2^48 frames under one slot takes the link down. -/
def execFrameCounterExhaust (s : State) : Out :=
  let l := s.arg.link.toNat
  let x := s.link l
  if x.state ≠ .up ∨ x.txSlot.ctr < 2 ^ 48 then .next s
  else .next (replaceLink (linkTo (s.setLink l { x with exhausted := true }) l .down) l)

/-! ### The last-hop switch (R74, R77, R78) -/

/-- ACCESS_TABLE_WRITE (R77, R79): reserved bits read zero. -/
def execAccessTableWrite (s : State) : Out :=
  let l := s.arg.link.toNat
  let x := s.link l
  .next (s.setLink l { x with access := tset x.access (s.arg.pkg.toNat * 1024 + s.arg.idx % 1024) (s.arg.v &&& ~~~0xFC3F#64) })

/-- The rights that cover a cell (R77, R78): MERGE, SLEEP, DEQ and ENQ are bits 3 to 0 of RIGHTS. -/
def rightsOf (m : Msg) : List Nat :=
  match m.typ with
  | .merge => [3]
  | .release => if m.mrg then [0, 3] else [0]
  | .sleep => if m.withdraw then [0] else [2]
  | .dequeue => [1]
  | _ => [0]

/-- An entry lets a cell pass (R78). -/
def entryPasses (e : W64) (m : Msg) : Bool :=
  let f := m.flow
  let die := e.extractLsb' 44 3 == f.ddie
  let who := (e.getLsbD 62 || e.extractLsb' 53 9 == f.spkg) && e.extractLsb' 47 6 == m.tenant
  let q := m.queue.toNat
  e.getLsbD 63 && who && die && (m.typ == .flush ||
    (e.extractLsb' 40 4 == m.port && decide ((e.extractLsb' 28 12).toNat ≤ q ∧ q ≤ (e.extractLsb' 16 12).toNat) &&
      ((rightsOf m).any fun r => e.getLsbD (6 + r)) && (decide (32 ≤ q) || e.extractLsb' 47 6 == Config.deviceTenant f.spkg.toNat)))

/-- The switch passes a cell to this package (R78). -/
def accessPasses (s : State) (l : Nat) (m : Msg) : Bool :=
  !dataCell m.typ || ((s.link l).access.any fun e => e.1 / 1024 == s.pkgid.toNat && entryPasses e.2 m)

/-- The output queue towards the package holds more than 64 KiB (R74). -/
def overThreshold (x : Link) : Bool := decide (65536 < 80 * x.swOut.length)

/-- The answer of a switch to a cell that it refuses; it has no FSEQ of its own (log 100: DESIGN CHOICE). `n` is 1 for a refused FLUSH, whose
number it names (R78). -/
def refusal (m : Msg) : Msg :=
  { flow := revFlow m.flow, typ := .reply, code := 0x18, num := if m.typ = .flush then m.num else m.fseq.toNat,
    n := if m.typ = .flush then 1 else 0 }

def sendRefusal (s : State) (l : Nat) (m : Msg) : State :=
  { s with out := { s.out with cells := s.out.cells ++ [(l, cellOf (refusal m) 0)] } }

/-- SWITCH_FORWARD (R64, R74, R78): a malformed cell is dropped and counted by the switch. -/
def execSwitchForward (s : State) : Out :=
  let l := s.arg.link.toNat
  let x := s.link l
  match x.atSwitch with
  | [] => .next s
  | c :: r =>
    let y : Link := { x with atSwitch := r }
    if malformed c then .next (s.setLink l { y with swDrops := y.swDrops + 1 })
    else match msgOf [c] with
      | none => .next (s.setLink l { y with swOut := y.swOut ++ [c] })
      | some m =>
        if !accessPasses s l m then .next (sendRefusal (s.setLink l y) l m)
        else .next (s.setLink l { y with swOut := y.swOut ++ [if dataCell m.typ && overThreshold y then c.setMark else c] })

/-! ### Receiving (R64, R68, R80, R82) -/

/-- `a` does not come after `b` modulo 2^16. -/
def seqLe (a b : W16) : Bool := decide ((b - a).toNat < 2 ^ 15)

/-- The cells that a die's reorder buffer holds (R68). -/
def reorderLoad (s : State) (die : W3) : Nat :=
  (s.flows.filter fun e => e.1.ddie == die && e.1.dpkg == s.pkgid).foldl (fun n e => n + (e.2.reorder.foldl (fun n p => n + p.2.length) 0)) 0

/-- A cell joins its message in the reorder buffer. -/
def keepCell (x : FlowState) (c : Cell) : FlowState :=
  if x.reorder.any fun p => p.1 == c.fseq then
    { x with reorder := x.reorder.map fun p => if p.1 = c.fseq then (p.1, tset p.2 c.cidx c) else p }
  else { x with reorder := x.reorder ++ [(c.fseq, [(c.cidx, c)])] }

/-- The cells of a message that are all here, in their order. -/
def wholeCells (cs : Tbl Cell) : Option (List Cell) :=
  match cs with
  | [] => none
  | (_, c) :: _ =>
    let is := List.range (c.clast + 1)
    if is.all fun i => (tfind cs i).isSome then some (is.map fun i => tget cs i c) else none

/-- Deliver whole messages in FSEQ order (R68). -/
def deliver (time : Nat) (x : FlowState) : Nat → FlowState
  | 0 => x
  | n + 1 =>
    match (x.reorder.find? fun p => p.1 == x.expect).bind fun p => (wholeCells p.2).bind msgOf with
    | none => x
    | some m => deliver time { x with
        reorder := x.reorder.filter fun p => p.1 != x.expect, arrived := x.arrived ++ [m], expect := x.expect + 1,
        toAck := x.toAck + 1, ackSince := some (x.ackSince.getD time) } n

/-- Flushes whose markers are all here and whose earlier messages have been delivered perform, and return FLUSHACK (R71). -/
def checkFlushes (s : State) (f : Flow) : State :=
  (s.flow f).gathered.foldl (fun s g =>
    let x := s.flow f
    if !g.done && decide (g.total ≤ g.paths.length) && seqLe (g.fseq + 1) x.expect then
      sendCtl (s.setFlow f { x with gathered := x.gathered.map fun y => if y.num = g.num then { y with done := true } else y })
        (revFlow f) { flow := revFlow f, typ := .flushAck, num := g.num }
    else s) s

/-- A message that a switch has refused is acknowledged by no one: the source keeps it no longer, and the refusal of a MERGE waits for
the next merge release to its queue (R78, R448, log 100: DESIGN CHOICE). -/
def dropRefused (x : FlowState) (fs : W16) : FlowState :=
  let gone := x.unacked.filter fun u => u.msg.fseq == fs
  { x with unacked := x.unacked.filter fun u => u.msg.fseq != fs
           refusedMerge := x.refusedMerge ++ (gone.filter fun u => u.msg.typ == .merge).map fun u => (u.msg.port, u.msg.queue) }

/-- A refused operation faults with DENIED: a request by its FSEQ, a flush by its number (R78). -/
def denied (s : State) (f : Flow) (m : Msg) : State :=
  let fwd := revFlow f
  if m.n = 1 then
    let x := s.flow fwd
    let s := s.setFlow fwd { x with flushes := x.flushes.filter fun u => u.num != m.num }
    (s.slots.map (·.1)).foldl (fun s k =>
      let g := s.slot k
      if slotDie k ≠ fwd.sdie.toNat then s
      else
        let s := match g.outst.find? fun o => match o.op with
            | .queue q => o.res.isNone && q.st == .sent fwd && q.num == m.num && (q.kind == .rel || q.kind == .relMrg)
            | _ => false with
          | some o => (match o.op with
            | .queue q => opDone s k o q m
            | _ => s)
          | none => s
        let g := s.slot k
        match g.fence with
        | some c => if c.waits.contains (fwd, m.num) then
            settle (s.setSlot k (joinFault { g with fence := none } 0 (queueFault c.fpc c.lanes 0x18 0 0))) k else s
        | none => s) s
  else
    let x := s.flow fwd
    match x.answers.find? fun a => a.fseq.toNat == m.num with
    | none => s.setFlow fwd (dropRefused x (BitVec.ofNat 16 m.num))
    | some a => freePlace (deliverReply (s.setFlow fwd (dropRefused x a.fseq)) f m a.who) f a.fseq

/-- A cumulative ACK for what has been delivered, with an ECHO if one is owed (R68, R74). -/
def sendAck (s : State) (f : Flow) : State :=
  let x := s.flow f
  let s := s.setFlow f { x with toAck := 0, ackSince := none, echo := x.echo - 1 }
  sendCtl s (revFlow f) { flow := revFlow f, typ := .ack, fseq := x.expect - 1, echo := decide (x.echo ≠ 0) }

/-- A cell enters its flow's reorder buffer; the 64th message since the last ACK sends one (R68). -/
def reorderCell (s : State) (f : Flow) (c : Cell) : State :=
  let x := s.flow f
  if !seqLe x.expect c.fseq then s.setFlow f { x with ackSince := some (x.ackSince.getD s.time) }
  else if 16384 ≤ reorderLoad s f.ddie then s
  else
    let y := keepCell x c
    let s := checkFlushes (s.setFlow f (deliver s.time y (y.reorder.length + 1))) f
    if 64 ≤ (s.flow f).toAck then sendAck s f else s

/-- A request for the reset of a flow reaches its endpoint: a source repeats it within its RTO until it is answered, and comes to a new one
no sooner than after UNREACH (R85, log 116: DEDUCED). -/
def seenReset (s : State) (x : FlowState) (m : Msg) : FlowState :=
  if m.typ = .flowReset ∧ m.n = 0 then
    let gap := max (max s.fabric.unreach.toNat 1 * 1000000) (max 1 s.fabric.rto.toNat * 20000)
    { x with wasReset := x.wasReset && decide (s.time < x.resetSeen + gap), resetSeen := s.time }
  else x

/-- A cell reaches the endpoint of its destination die (R64, R68, R71). -/
def receiveCell (s : State) (l : Nat) (c : Cell) : State :=
  let f := c.flow
  if malformed c then
    let x := s.link l
    s.setLink l { x with malf := sat16 x.malf 1 }
  else match msgOf [c] with
    | none => s
    | some m =>
      if f.dpkg ≠ s.pkgid then s
      else
        let x := s.flow f
        let s := s.setFlow f (seenReset s { x with echo := if c.mark then x.echo + 1 else x.echo } m)
        if m.typ = .reply ∧ m.code = 0x18 then denied s f m
        else if !numbered m.typ then s.setFlow f { s.flow f with arrived := (s.flow f).arrived ++ [m] }
        else reorderCell s f c

/-- The receiver counts every frame of the slot that it names (R80). -/
def countFrames (x : Link) (slot : Bool) (n : Nat) : Link :=
  if slot then { x with rx1 := { x.rx1 with ctr := x.rx1.ctr + n } } else { x with rx0 := { x.rx0 with ctr := x.rx0.ctr + n } }

/-- The counts of authenticated and of failed frames (R81, R82). -/
def goodFrames (x : Link) (slot : Bool) (n : Nat) : Link :=
  { x with rxRun := (slot, if x.rxRun.1 = slot then x.rxRun.2 + n else n) }

def badFrames (x : Link) (time n : Nat) : Link :=
  { x with autherr := sat16 x.autherr n, rxRun := (x.rxRun.1, 0)
           fails := x.fails.filter (fun t => time < t + 1000000) ++ List.replicate (min 16 n) time }

/-- FRAME_RECEIVE (R64, R65, R68, R80 to R83). -/
def execFrameReceive (s : State) : Out :=
  let l := s.arg.link.toNat
  let x := s.link l
  match x.rx with
  | [] => .next s
  | f :: r =>
    if x.state ≠ .up then .next s
    else
      let k := if f.slot then x.rx1 else x.rx0
      let y := countFrames { x with rx := r } f.slot f.run
      if !frameGood f k.key (nonceOf (linkId s.pkgid l true) k.ctr) then .next (s.setLink l (badFrames y s.time f.run))
      else .next (f.cells.foldl (fun s c => receiveCell s l c) (s.setLink l (goodFrames y f.slot f.run)))

/-! ### Acknowledgement (R68, R69) -/

/-- A control message that has arrived on a flow: inside the package in its turn, else at once (R62, R66). -/
def onControl (s : State) (isMine : Msg → Bool) (act : State → Msg → State) : Out :=
  let f := s.arg.flow
  if f.dpkg ≠ s.pkgid ∨ f.spkg = s.pkgid then onArrival s isMine act
  else
    let x := s.flow f
    match x.arrived.find? isMine with
    | none => .next s
    | some m => .next (act (s.setFlow f { x with arrived := x.arrived.erase m }) m)

/-- ACK_SEND (R68, R74): an acknowledgement may leave whenever a delivered message has none. -/
def execAckSend (s : State) : Out :=
  let f := s.arg.flow
  if f.dpkg ≠ s.pkgid ∨ f.spkg = s.pkgid ∨ (s.flow f).ackSince.isNone then .next s else .next (sendAck s f)

/-- The acknowledgements that have waited for 2 µs (R68). -/
def ackDue (s : State) : State :=
  ((s.flows.filter fun e => match e.2.ackSince with
    | some t => decide (t + 2000 ≤ s.time)
    | none => false).map (·.1)).foldl sendAck s

/-- ACK_RECEIVE (R69, R75). -/
def execAckReceive (s : State) : Out :=
  onControl s (fun m => m.typ == .ack) fun s m =>
    let f := s.arg.flow
    let s := heard s f m
    let fwd := revFlow f
    let x := s.flow fwd
    releaseHeld (s.setFlow fwd { x with unacked := x.unacked.filter fun u => !seqLe u.msg.fseq m.fseq }) fwd (x.held.length + 1)

/-- The retransmit timeout in nanoseconds; 0 is treated as 1 (R61). -/
def rtoNs (s : State) : Nat := max 1 s.fabric.rto.toNat * 10000

/-- RETRANSMIT_TIMEOUT (R69). -/
def execRetransmitTimeout (s : State) : Out :=
  .next (resendUnacked s s.arg.flow fun u => decide (u.sentAt + rtoNs s ≤ s.time))

/-! ### Flushes at the destination (R71) -/

/-- A marker joins its flush; one for a flush already performed is answered again. A number that comes with another FSEQ is that of a new
flush, and the old one is forgotten (R71, log 128: DEDUCED). -/
def gatherMarker (s : State) (f : Flow) (m : Msg) : State :=
  let x := s.flow f
  match x.gathered.find? fun g => g.num == m.num && g.fseq == m.fseq with
  | none =>
    let rest := x.gathered.filter fun g => g.num != m.num
    checkFlushes (s.setFlow f { x with gathered := rest ++ [⟨m.num, m.fseq, m.n, [m.entry], false⟩] }) f
  | some g =>
    if g.done then sendCtl s (revFlow f) { flow := revFlow f, typ := .flushAck, num := g.num }
    else
      let g' : FlushIn := { g with paths := if g.paths.contains m.entry then g.paths else g.paths ++ [m.entry] }
      checkFlushes (s.setFlow f { x with gathered := x.gathered.map fun y => if y.num = g.num then g' else y }) f

/-- FLUSH_ARRIVAL (R71, R72). -/
def execFlushArrival (s : State) : Out :=
  onControl s (fun m => m.typ == .flush) fun s m =>
    let f := s.arg.flow
    if f.spkg = s.pkgid then sendCtl s (revFlow f) { flow := revFlow f, typ := .flushAck, num := m.num }
    else gatherMarker s f m

/-- FLUSHACK_RECEIVE (R71, R72, R453). -/
def execFlushackReceive (s : State) : Out :=
  onControl s (fun m => m.typ == .flushAck) fun s m => flushReturned s (revFlow s.arg.flow) m.num

/-- FLUSH_RETRANSMIT (R71). -/
def execFlushRetransmit (s : State) : Out :=
  let f := s.arg.flow
  let x := s.flow f
  if inPackage s f then .next s
  else
    let due (u : FlushOut) : Bool := decide (u.sentAt + rtoNs s ≤ s.time)
    let s := x.flushes.foldl (fun s u => if due u then resendMarkers s f u (fun _ => true) else s) s
    let y := s.flow f
    .next (s.setFlow f { y with flushes := y.flushes.map fun u => if due u then { u with sentAt := s.time } else u })

/-! ### Unreachable packages and the reset of flows (R85) -/

/-- The request for the reset of a pair of flows. -/
def sendReset (s : State) (f : Flow) : State :=
  let x := s.flow f
  sendCtl (s.setFlow f { x with resetAt := some s.time }) f { flow := f, typ := .flowReset, n := 0 }

/-- The flows from a die to the dies of a package with which it shares flows, in either direction (R85). -/
def sharedFlows (s : State) (die : Nat) (pkg : BitVec 9) : List Flow :=
  ((s.flows.map (·.1)).filterMap fun f =>
    if f.spkg = s.pkgid ∧ f.sdie.toNat = die ∧ f.dpkg = pkg then some f
    else if f.dpkg = s.pkgid ∧ f.ddie.toNat = die ∧ f.spkg = pkg then some (revFlow f)
    else none).eraseDups

/-- A package's condition clears on a die (R85). -/
def clearUnreachable (s : State) (die : Nat) (pkg : BitVec 9) : State :=
  let k := limKey die pkg
  let l := s.limiter k
  if !l.unreachable then s
  else
    let s := s.setLimiter k { credited s l with unreachable := false, units := 512, lastCut := none, echoes := [], waiting := [] }
    (sharedFlows s die pkg).foldl sendReset s

/-- FABUNR_WRITE (R85): each bit written one clears its package on every die. -/
def execFabunrWrite (s : State) : Out :=
  let w := s.arg.idx % 8
  let old := tget s.fabric.fabunr w 0
  let s' := { s with fabric := { s.fabric with fabunr := tset s.fabric.fabunr w (old &&& ~~~s.arg.v) } }
  .next ((List.range 64).foldl (fun s j =>
    if s.arg.v.getLsbD j then (List.range 8).foldl (fun s d => clearUnreachable s d (BitVec.ofNat 9 (64 * w + j))) s else s) s')

/-- The receiving half of a flow starts at FSEQ 0 without what it held undelivered. -/
def freshIn (x : FlowState) : FlowState := { x with expect := 0, reorder := [], gathered := [], toAck := 0, ackSince := none }

/-- The messages of a flow that are under way, in FSEQ order: those without an ACK, and those still at the limiter. -/
def underWay (s : State) (f : Flow) : List Msg :=
  (s.flow f).unacked.map (·.msg) ++ (s.limiter (limKey f.sdie.toNat f.dpkg)).waiting.filter fun m => m.flow == f && numbered m.typ

/-- A message goes out again when its flow starts anew. A release whose flush has returned meanwhile flushes the new flow before it, and its
operation waits for that flush (R72, log 21: DEDUCED). -/
def emitAgain (s : State) (f : Flow) (m : Msg) : State :=
  if m.typ ≠ .release ∨ (s.flow f).flushes.any (fun u => u.num == m.num) then emit s f m
  else
    let x := s.flow f
    let num := x.nextFlush.toNat
    let s := emitFlush (s.setFlow f { x with nextFlush := x.nextFlush + 1 }) f num m.tenant m.dev
    let s := match m.ctx with
      | .group c op => { s with slots := s.slots.map fun e =>
          if e.2.ctx = c then (e.1, { e.2 with outst := e.2.outst.map fun o => match o.op with
            | .queue q => if o.id = op then { o with op := .queue { q with num := num } } else o
            | _ => o }) else e }
      | _ => s
    emit s f { m with num := num }

/-- The sending half of a flow starts at FSEQ 0: a REPLY or WAKE without an ACK is discarded; a request or a contribution without one is
sent again under a new number, and a flush behind those that it came after (log 21: DEDUCED). -/
def freshOut (s : State) (f : Flow) : State :=
  let x := s.flow f
  let old := (underWay s f).filter fun m => asks m.typ || m.typ == .merge
  let who (n : W16) : Requester := ((x.answers.find? fun a => a.fseq == n).map (·.who)).getD .none
  let k := limKey f.sdie.toNat f.dpkg
  let l := s.limiter k
  let s := s.setLimiter k { l with waiting := l.waiting.filter fun m => m.flow != f }
  let flushes := x.flushes.map fun u => { u with paths := [], fseq := BitVec.ofNat 16 ((old.filter fun m => seqLe m.fseq u.fseq).length) - 1 }
  let s := s.setFlow f { x with next := 0, unacked := [], resetAt := none, flushes := flushes,
                                answers := x.answers.filter fun a => !(old.any fun m => m.fseq == a.fseq) }
  let s := old.foldl (fun s m => emitAgain s f { m with ctx := who m.fseq }) s
  flushes.foldl (fun s u => sendCtl s f (markerOf f u 0)) s

/-- The endpoint that a reset reaches discards the REPLY and WAKE messages of the pair that it still holds back (R85). -/
def dropAnswers (s : State) (f : Flow) : State :=
  let x := s.flow f
  s.setFlow f { x with held := x.held.filter fun m => m.typ != .reply && m.typ != .wake }

/-- FLOWRESET_REQUEST (R85): a repeated request finds the flows reset, and is answered again. -/
def execFlowresetRequest (s : State) : Out :=
  onControl s (fun m => m.typ == .flowReset && m.n == 0) fun s _ =>
    let f := s.arg.flow
    let s := if (s.flow f).wasReset then s else freshOut (dropAnswers (s.setFlow f { freshIn (s.flow f) with wasReset := true }) (revFlow f)) (revFlow f)
    sendCtl s (revFlow f) { flow := revFlow f, typ := .flowReset, n := 1 }

/-- FLOWRESET_ANSWER (R85). -/
def execFlowresetAnswer (s : State) : Out :=
  onControl s (fun m => m.typ == .flowReset && m.n == 1) fun s _ =>
    let f := s.arg.flow
    let fwd := revFlow f
    if (s.flow fwd).resetAt.isNone then s
    else
      let s := freshOut (s.setFlow f (freshIn (s.flow f))) fwd
      releaseHeld s fwd ((s.flow fwd).held.length + 1)

/-- FLOWRESET_RETRY (R85). -/
def execFlowresetRetry (s : State) : Out :=
  match (s.flow s.arg.flow).resetAt with
  | some t => .next (if t + rtoNs s ≤ s.time then sendReset s s.arg.flow else s)
  | none => .next s

end Sys2Proof.Machine
end

