-- ==== Sys2Proof/Machine/Power.lean ====
section
/-! DEFINITION. Reset and the lehr's wake sequence (R20 to R22), power and heat (R16 to R19, R23, R24). -/
namespace Sys2Proof.Machine

/-! ### Reset (R20, R88, R102, R108) -/

/-- The firmware image that flash holds passes the boot ROM's checks (R96, R108). -/
def imageGood (m : Mgmt) : Bool := m.flash.good && decide (m.svn ≤ m.flash.version)

/-- What the module keeps through a reset (R24, R88, R104, R107, R108): the lasting stores, with SVN raised to the version of
the image that now runs; an image that fails leaves the device in the boot ROM. The keys of R101 are erased (R102). A failed member
of a home stays failed (R12, log 105: DESIGN CHOICE). -/
def keptMgmt (m : Mgmt) : Mgmt :=
  { present := m.present, step := m.step, thermrec := m.thermrec, lc := m.lc, identity := m.identity, owner := m.owner,
    lmsUsed := m.lmsUsed, flash := m.flash, failed := m.failed, reservedAsids := m.reservedAsids,
    svn := if imageGood m then m.flash.version else m.svn, romhold := !imageGood m,
    running := if imageGood m then m.flash else m.running }

/-- Every reset starts the lehr (R20). The host's memory, and what the outside world has been sent, are not the module's;
far-tier contents do not survive (R128). -/
def resetMachine (s : State) : State :=
  { State.reset with
    mgmt := keptMgmt s.mgmt, fabric := { noPath := [(512, s.time)] }, time := s.time, lehrAt := s.time, dvsec := { capc := s.dvsec.capc, capn := s.dvsec.capn },
    farUp := s.farUp, hostMem := s.hostMem, hostAbsent := s.hostAbsent, out := s.out, agenda := s.agenda, arg := s.arg,
    turn := s.turn, free := s.free, ids := s.ids }

/-- RESET (R20). -/
def execReset (s : State) : Out := .next (resetMachine s)

/-! ### The lehr (R20, R21) -/

/-- Nanoseconds that a stage-B socket takes (R20). -/
def socketTime (k : Nat) : Nat := if k < 8 then 120000 else if k < 16 then 80000 else if k < 32 then 150000 else 120000

/-- The next socket to bring up, or stage C (R20). -/
def nextSocket (s : State) (k : Nat) : Lehr :=
  match (List.range 34).find? fun j => decide (k ≤ j) && socketPresent s j with
  | some j => .stageB j
  | none => .stageC

/-- A stage has lasted its time: the next begins. -/
def lehrGo (s : State) (ns : Nat) (next : Lehr) : State :=
  if s.lehrAt + ns ≤ s.time then { s with lehr := next, lehrAt := s.lehrAt + ns } else s

/-- LEHR_STAGE_A_END (R20). -/
def execLehrStageAEnd (s : State) : Out :=
  .next (if s.lehr = .stageA then lehrGo s 300000 (nextSocket s 0) else s)

/-- SOCKET_BRING_UP (R20). -/
def execSocketBringUp (s : State) : Out :=
  match s.lehr with
  | .stageB k => .next (lehrGo s (socketTime k) (nextSocket s (k + 1)))
  | _ => .next s

/-- The module firmware programs the IDE key of a CXL port (R100). -/
def programCxl (s : State) (p : Nat) : State :=
  let (k, s) := s.fresh
  { s with mgmt := { s.mgmt with cxlIde := tset s.mgmt.cxlIde p k } }

/-- STAGE_C_WIPE_END (R20, R102): the wipe leaves no byte of the module's memories, and the device key is generated. -/
def execStageCWipeEnd (s : State) : Out :=
  if s.lehr = .stageC ∧ s.lehrAt + 21475000 ≤ s.time then
    let s := programCxl (programCxl s 0) 1
    .next { s with lehr := .stageD 0, lehrAt := s.lehrAt + 21475000, mem := [], scr := [], poison := [],
                   mgmt := { s.mgmt with keys := tset s.mgmt.keys 64 (s.ids) }, ids := s.ids + 1 }
  else .next s

/-- The four cores of a cluster. -/
def clusterCores (d k : Nat) : List Nat := (List.range 4).map fun i => coreKey d (4 * k + i)

/-- A cluster wakes with a clean L1 (R22, R239). -/
def wakeCluster (s : State) (d k : Nat) : State :=
  (clusterCores d k).foldl (fun s c => s.setCore c { s.core c with awake := true, snap := s.mem }) s

/-- Every member of a die's home works (R12). -/
def homeSound (s : State) (d : Nat) : Bool := s.mgmt.failed.all fun k => socketDie k != some d

/-- A wake of stage D: number `w` is cluster `w / 8` of die `w % 8`, and the last of a die sets its ONLINE bit (R21). -/
def stageWake (s : State) (w : Nat) : State :=
  let d := w % 8
  let k := w / 8
  if !(s.mgmt.present.getLsbD d && homeSound s d) then s
  else
    let s := wakeCluster s d k
    if k = 39 then { s with mgmt := { s.mgmt with online := s.mgmt.online ||| (1#8 <<< d) } } else s

/-- CLUSTER_WAKE (R20 to R22). -/
def execClusterWake (s : State) : Out :=
  match s.lehr with
  | .stageD w =>
    if s.time < s.lehrAt + 2000 * w then .next s
    else
      let s' := stageWake s w
      .next { s' with lehr := if w = 319 then .done else .stageD (w + 1), wakeAt := s.lehrAt + 2000 * w }
  | .done =>
    match s.wakeQ with
    | [] => .next s
    | (_, n) :: r =>
      if s.time < s.wakeAt + 2000 then .next s
      else .next { wakeCluster s (n % 8) (n / 8) with wakeQ := r, wakeAt := s.time }
  | _ => .next s

/-- Requests wait in the order they were made; those of one cycle of the requesting die's clock, of `f` MHz, by ascending
cluster, then die (R4, R22). -/
def addWake (f t n : Nat) : List (Nat × Nat) → List (Nat × Nat)
  | [] => [(t, n)]
  | (u, m) :: r => if u * f / 1000 = t * f / 1000 ∧ n < m then (t, n) :: (u, m) :: r else (u, m) :: addWake f t n r

/-- CLUSTER_WAKE_REQUEST (R22). Whether requests of dies at different operating points come in one cycle is told by the later
one's clock, at its current point (log 124: DESIGN CHOICE). -/
def execClusterWakeRequest (s : State) : Out :=
  let d := s.arg.die.toNat
  let n := 8 * s.arg.idx + d
  if s.lehr = .done ∧ s.mgmt.online.getLsbD d ∧ s.arg.idx < 40 ∧ !(s.core (coreKey d (4 * s.arg.idx))).awake ∧
      !(s.wakeQ.any fun e => e.2 == n) then .next { s with wakeQ := addWake (Config.pointMHz (s.die d).cur.toNat) s.time n s.wakeQ }
  else .next s

/-- A core whose slots are all Empty. -/
def coreIdle (s : State) (c : Nat) : Bool := (coreSlots c).all fun k => (s.slot k).bind.sstate == .empty

/-- Bytes of killed groups that the L1 still holds reach their memory points or are lost (R158). -/
def spillL1 (s : State) (dirty : List (Nat × W8 × Nat)) : State :=
  { dirty.zipIdx.foldl (fun s p =>
      if Config.freeBit (s.free + p.2) then { s with mem := memWrite s.mem p.1.1 p.1.2.1 } else s) s with
    free := s.free + dirty.length }

def gateCore (s : State) (c : Nat) : State :=
  let s := spillL1 s (s.core c).dirty
  s.setCore c { s.core c with awake := false, dirty := [] }

/-- CLUSTER_GATE (R22): an idle cluster, after bring-up. -/
def execClusterGate (s : State) : Out :=
  let cs := clusterCores s.arg.die.toNat s.arg.idx
  if s.lehr = .done ∧ s.arg.idx < 40 ∧ cs.all (coreIdle s) then .next (cs.foldl gateCore s) else .next s

/-! ### The host's configuration requests (R21, R130) -/

/-- The DVSEC registers (R130), by their offsets from the capability: its Vendor ID is PF0's, and its DVSEC ID is 0x0001. -/
def dvsecRead (s : State) (off : Nat) : Option W32 :=
  let i := s.iface s.dvsec.tsel.toNat
  match off with
  | 0x04 => some (Config.dvsecHeader ++ Config.pf0Id.setWidth 16)
  | 0x08 => some 0x0001
  | 0x10 => some s.dvsec.capc
  | 0x14 => some s.dvsec.capn
  | 0x18 => some (s.dvsec.tsel.setWidth 32)
  | 0x1C => some i.qc
  | 0x20 => some i.qn
  | 0x24 => some (i.ebase ++ i.ecnt)
  | 0x28 => some (if s.dvsec.refused then 1 else 0)
  | _ => none

def hostAnswer (s : State) (v : Option W64) : State := { s with out := { s.out with host := s.out.host ++ [v] } }

/-- HOST_CONFIG_REQUEST (R21): retry status until stage D ends; then the register: at 0 PF0's IDs, and what lies outside the
capability of R130 is the standard's (log 5: DESIGN CHOICE). -/
def execHostConfigRequest (s : State) : Out :=
  if s.lehr ≠ .done then .next (hostAnswer s none)
  else
    match if s.arg.off = 0 then some Config.pf0Id
      else if Config.dvsecBase ≤ s.arg.off then dvsecRead s (s.arg.off - Config.dvsecBase) else none with
    | some v => .next (hostAnswer s (some (v.setWidth 64)))
    | none =>
      let (v, s) := s.freeWord
      .next (hostAnswer s (some v))

/-! ### Operating points (R16, R18, R19) -/

/-- The slower of two points. -/
def slower (a b : BitVec 2) : BitVec 2 := if a < b then b else a

/-- The slowest of the three points takes effect; a change counts, and names its cause (R18, R19). -/
def setPoint (x : Die) (cause : BitVec 2) : Die :=
  let p := slower (slower x.req x.powerPt) x.thermPt
  if p = x.cur then x else { x with cur := p, steps := x.steps + 1, cause := cause }

/-- DIEVF_REQ_WRITE (R18, R19). -/
def execDievfReqWrite (s : State) : Out :=
  let d := s.arg.die.toNat
  .next (s.setDie d (setPoint { s.die d with req := s.arg.v.setWidth 2 } 0))

/-- A reading in a field of `n` bits, saturating (R18). -/
def saturated (n : Nat) (v : W64) : BitVec n := if 2 ^ n ≤ v.toNat then BitVec.allOnes n else v.setWidth n

/-- The powers that the controller measured. -/
def setPowers (s : State) (ps : List W64) : State :=
  ps.zipIdx.foldl (fun s p => if p.2 < 8 then s.setDie p.2 { s.die p.2 with power := p.1.setWidth 16 } else s) s

/-- The present dies that a test admits, the one with the most core power first and, of equals, the lowest socket (R23). -/
def mostPower (s : State) (ok : Die → Bool) : Option Nat :=
  match (List.range 8).filter fun d => s.mgmt.present.getLsbD d && ok (s.die d) with
  | [] => none
  | d :: r => some (r.foldl (fun b e => if (s.die b).power < (s.die e).power then e else b) d)

/-- The reverse order. -/
def leastPower (s : State) (ok : Die → Bool) : Option Nat :=
  match (List.range 8).filter fun d => s.mgmt.present.getLsbD d && ok (s.die d) with
  | [] => none
  | d :: r => some (r.foldl (fun b e => if (s.die b).power < (s.die e).power then b else e) d)

/-- What the controller measures: the mean, saturating, and the core power of each die. Once the mean has exceeded the
limit, dies are lowered until it falls below the limit (R23). -/
def measured (s : State) : State :=
  let avg : W16 := saturated 16 s.arg.v
  setPowers { s with powerAvg := avg, powerOver := decide (2600 < avg.toNat) || (s.powerOver && decide (2600 ≤ avg.toNat)) } s.arg.words

/-- POWER_STEP_DOWN (R23): the power limit takes the die one point below the point it runs at. -/
def execPowerStepDown (s : State) : Out :=
  let s := measured s
  if !s.powerOver ∨ s.time < s.powerAt + 100000 then .next s
  else match mostPower s fun x => x.cur != 3 with
    | none => .next s
    | some d => .next { s.setDie d (setPoint { s.die d with powerPt := (s.die d).cur + 1 } 1) with powerAt := s.time }

/-- POWER_STEP_UP (R23). -/
def execPowerStepUp (s : State) : Out :=
  let s := measured s
  if 2470 ≤ s.powerAvg.toNat ∨ s.time < s.powerAt + 1000000 then .next s
  else match leastPower s fun x => x.powerPt != 0 with
    | none => .next s
    | some d => .next { s.setDie d (setPoint { s.die d with powerPt := (s.die d).powerPt - 1 } 1) with powerAt := s.time }

/-- A reading of the hottest sensor of a die, saturating, and the thermal limit that follows from it (R18, R24). -/
def readTemp (x : Die) (v : W64) : Die :=
  let x : Die := { x with temp := saturated 8 v }
  if 95 ≤ x.temp.toNat then setPoint { x with thermPt := 3 } 2
  else if x.temp.toNat < 90 then setPoint { x with thermPt := 0 } 2
  else x

/-- A reading of a die's temperature; at 110 °C the trip is what comes next (R24). -/
def readDie (s : State) (d : Nat) (v : W64) : State :=
  let s := s.setDie d (readTemp (s.die d) v)
  if 110 ≤ (s.die d).temp.toNat then { s with agenda := .device .thermalTrip { s.arg with idx := d } :: s.agenda } else s

/-- THERMAL_THROTTLE (R18, R24). -/
def execThermalThrottle (s : State) : Out := .next (readDie s s.arg.die.toNat s.arg.v)

/-- THERMAL_RECOVER (R18, R24). -/
def execThermalRecover (s : State) : Out := .next (readDie s s.arg.die.toNat s.arg.v)

/-- THERMAL_TRIP (R24, R88): the record is kept, and the trip is an uncontrolled reset. -/
def execThermalTrip (s : State) : Out :=
  if s.arg.idx < 34 then
    .next (resetMachine { s with mgmt := { s.mgmt with
      thermrec := BitVec.ofNat 8 s.arg.idx ++ (s.die 0).clock.setWidth 56 } })
  else .next s

/-- THERMREC_WRITE (R88). -/
def execThermrecWrite (s : State) : Out := .next { s with mgmt := { s.mgmt with thermrec := 0 } }

end Sys2Proof.Machine
end

