-- ==== Sys2Proof/Machine/Launch.lean ====
section
/-! DEFINITION. The firmware's launches: starts (R110, R111), claims, the binding and the pre-emption of blocks (R161 to R163),
charges and faults (R114, R124, R160, R287), watchdogs (R123), gangs (R125), and unreachable packages (R85). -/
namespace Sys2Proof.Machine

/-! ### Starts (R110, R111) -/

/-- The firmware takes the element at the head of a queue it consumes: its bytes, or none for a Void element (R39, R42). -/
def takeHead (s : State) (r : QRef) : Option (Option (List W8) × State) :=
  let q := s.qref r
  if q.len = 0 then none
  else match q.slot q.head with
    | .granted _ => none
    | .filled x => some (some x, afterAdvance (s.setQref r q.advance) r)
    | .void => some (none, afterAdvance (s.setQref r q.advance) r)

def qrefOf (p : W32) : QRef := ⟨(pqDie p).toNat, (pqPort p).toNat, (pqQueue p).toNat⟩

/-- START_ELEMENT_CONSUME (R21, R105, R110, R111): an online die's firmware takes start elements one at a time, once stage D has
ended; a module in Returned admits no launch. -/
def execStartElementConsume (s : State) : Out :=
  let d := s.arg.die.toNat
  match tfind (s.asid s.arg.asid.toNat).launchQ d with
  | none => .next s
  | some p =>
    if !dieOnline s d || s.lehr != .done || s.mgmt.lc == .returned then .next s
    else match takeHead s (qrefOf p) with
      | none => .next s
      | some (none, s) => .next s
      | some (some x, s) => .next (startElement s d s.arg.asid x)

/-! ### Room on cores (R118, R154, R155, R163) -/

/-- What a block takes: groups, vector units and tiles of each, scratchpad units, and whether it wants a fused cluster. -/
structure Need where
  n : Nat
  v : Nat
  t : Nat
  scr : Nat
  fuse : Bool
  deriving DecidableEq, Repr

def needOf (n : Node) : Need := ⟨n.grpm1.toNat + 1, n.vreg16.toNat, n.tiles.toNat, n.scr4k.toNat, n.l1fuse⟩
def needOfBind (b : Bind) : Need := ⟨b.gcntm1.toNat + 1, b.vreg16.toNat, b.tiles.toNat, b.scr4k.toNat, b.fuse⟩

/-- The lowest place for a run of `n` units among the runs in use, of `size` units in all. -/
def firstFit (used : List (Nat × Nat)) (n size : Nat) : Option Nat :=
  (List.range (size + 1)).find? fun a => decide (a + n ≤ size) && used.all fun u => !meets a n u.1 u.2

/-- Where a block goes on a core: its slots and the first units of its ranges. -/
structure Room where
  slots : List Nat
  v : Nat
  t : Nat
  scr : Nat
  deriving DecidableEq, Repr

/-- The binds of a core's occupied slots. -/
def boundOn (s : State) (ck : Nat) : List Bind := ((coreSlots ck).map fun k => (s.slot k).bind).filter fun b => b.sstate != .empty

/-- A fused cluster holds the blocks of one L1FUSE launch only (R118). -/
def clusterFree (s : State) (ck : Nat) (asid : BitVec 12) (addr : W64) : Bool :=
  (clusterCores (ck / 160) (ck % 160 / 4)).all fun c => (boundOn s c).all fun b => b.asid == asid && b.node == addr

/-- The firmware has yet to read the event of a block of this core that has ended: it does not know the slots to be free
(R159). -/
def unreported (s : State) (ck : Nat) : Bool :=
  (s.die (ck / 160)).bound.any fun b => b.core == ck % 160 && b.ended.isSome && !b.charged

/-- The place of a block on a core that can take it: the cluster awake, the die not halted, and slots, registers, tiles and
scratchpad free, and known to be (R22, R118, R155, R159, R171). -/
def roomOn (s : State) (ck : Nat) (w : Need) (asid : BitVec 12) (addr : W64) : Option Room :=
  let c := s.core ck
  let bs := boundOn s ck
  let free := (coreSlots ck).filter fun k => (s.slot k).bind.sstate == .empty
  if !c.awake || unreported s ck || (s.die (ck / 160)).halted.isSome || !dieOnline s (ck / 160) || decide (free.length < w.n) || c.fused != w.fuse ||
      (w.fuse && !clusterFree s ck asid addr) then none
  else
    let n (b : Bind) : Nat := b.gcntm1.toNat + 1
    match firstFit (bs.map fun b => (b.vbase16.toNat, n b * b.vreg16.toNat)) (w.n * w.v) 128,
        firstFit (bs.map fun b => (b.tbase.toNat, n b * b.tiles.toNat)) (w.n * w.t) 64,
        firstFit (bs.map fun b => (b.sbase4k.toNat, b.scr4k.toNat)) w.scr 64 with
    | some v, some t, some z => some ⟨free.take w.n, v % 128, t % 64, z % 64⟩
    | _, _, _ => none

def dieCores (d : Nat) : List Nat := (List.range 160).map fun c => coreKey d c

/-! ### Region queues (R161, R162) -/

/-- The saved blocks of a region queue on its die, oldest save first (R162). -/
def savedOf (s : State) (d : Nat) (q : RQueue) : List Saved :=
  (s.die d).saved.filter fun v => v.bind.asid == q.asid && v.graph == q.graph && v.node == q.node

/-- The core that a block number, or a saved block, of a launch can go to under MAXCORE (R114, R163). -/
def coreTakes (s : State) (g : Graph) (j : Nat) (w : Need) (ck : Nat) : Bool :=
  (roomOn s ck w g.asid (g.node j).addr).isSome && maxcoreOk s g j ck

/-- Cores of a die on which the MAXCORE limits of a launch allow a block (R114, R161). -/
def limitAllows (s : State) (g : Graph) (d j : Nat) : Bool :=
  (dieCores d).any fun ck => (s.core ck).awake && maxcoreOk s g j ck

/-- A launch has a block that nobody has claimed. -/
def unclaimed (n : Node) : Bool := decide (n.next < n.count) || !n.again.isEmpty

/-- The coordinator hands out a block number of a launch to a die (R114, R115, R161, R171). -/
def claimAllowed (s : State) (g : Graph) (d j : Nat) : Bool :=
  let n := g.node j
  n.state == .ready && !n.stop && unclaimed n && !budgetSpent g j && (s.die d).halted.isNone && limitAllows s g d j

/-- The next block number: one to be bound again comes first (R117, R161, R226). -/
def nextNumber (n : Node) : Nat × Node :=
  match n.again with
  | b :: r => (b, { n with again := r })
  | [] => (n.next, { n with next := n.next + 1 })

def State.setRq (s : State) (d : Nat) (q : RQueue) : State :=
  let x := s.die d
  s.setDie d { x with rqs := x.rqs.map fun y => if y.id = q.id then q else y }

/-- A launch may claim a block for a die's queue: it is ready and has one that nobody has claimed, and the coordinator has not
refused the queue (R161). -/
def mayClaim (s : State) (q : RQueue) : Bool := match s.launchNode (queueNode q) with
  | none => false
  | some (_, n) => n.state == .ready && !n.stop && unclaimed n && !(n.persist && n.again.isEmpty) && q.granted.isNone && !q.refused

/-- A claim: its number is handed out, or the queue is not eligible until a block of the launch's graph ends (R161). -/
def claimBlock (s : State) (d : Nat) (q : RQueue) : State :=
  match s.launchNode (queueNode q) with
  | none => s
  | some (g, n) =>
    if !mayClaim s q then s
    else if claimAllowed s g d q.node then
      let (b, n) := nextNumber n
      (s.putNode (queueNode q) n).setRq d { q with granted := some b }
    else settleLaunch (s.setRq d { q with refused := true }) (queueNode q)

/-! ### PERSIST launches (R117, R161) -/

/-- The cores that a PERSIST launch can use now, over the online dies of its DIEMASK. -/
def persistCores (s : State) (g : Graph) (j : Nat) : List Nat :=
  let n := g.node j
  ((List.range 8).filter fun d => n.diemask.getLsbD d && dieOnline s d).flatMap fun d =>
    (dieCores d).filter fun ck => coreTakes s g j (needOf n) ck

/-- b' of a PERSIST launch (R117); cores of a halted die do not count (R171). -/
def persistCount (s : State) (g : Graph) (j : Nat) : Nat :=
  let n := g.node j
  let awake := (((List.range 8).filter fun d => n.diemask.getLsbD d && dieOnline s d && (s.die d).halted.isNone).flatMap dieCores).countP
    fun ck => (s.core ck).awake
  min n.count (min (maxcoreLeft s g j) awake)

/-- The blocks of a PERSIST launch can all be bound (R117). -/
def persistReady (s : State) (g : Graph) (j : Nat) : Bool :=
  let n := g.node j
  let b := persistCount s g j
  n.next == 0 && decide (0 < b) && !budgetSpent g j && !n.stop && decide (b ≤ (persistCores s g j).length)

/-! ### Binding (R116, R119, R156, R162, R167) -/

/-- The bytes of a block's save area (R167). -/
def saveSize (b : Bind) : Nat := 8192 + 4096 * b.scr4k.toNat + (b.gcntm1.toNat + 1) * groupSize b

/-- The bind record of a new block, but for its place. -/
def bindOf (g : Graph) (n : Node) (number : Nat) : Bind :=
  { sstate := .ready, fuse := n.l1fuse, gcntm1 := n.grpm1, prio := n.prio, asid := g.asid, tenant := BitVec.ofNat 6 (tenantOf g.asid),
    parlen := n.parlen, sregs := n.sregs, kernel := n.kernel, block := BitVec.ofNat 32 number, vreg16 := n.vreg16, tiles := n.tiles,
    scr4k := n.scr4k, node := n.addr }

/-- The records of a block are written, slot by slot (R155). -/
def writeRecords (s : State) (b : Bind) (r : Room) : State :=
  match r.slots with
  | [] => s
  | l :: _ =>
    r.slots.zipIdx.foldl (fun s p => writeBind s p.1 { b with
      gidx := BitVec.ofNat 4 p.2, lead := BitVec.ofNat 4 (l % 16), vbase16 := BitVec.ofNat 7 r.v, tbase := BitVec.ofNat 6 r.t,
      sbase4k := BitVec.ofNat 6 r.scr }) s

/-- The firmware's note of a block that it binds. -/
def addBound (s : State) (d : Nat) (b : Bound) : State :=
  let (o, s) := s.fresh
  let x := s.die d
  s.setDie d { x with bound := x.bound ++ [{ b with order := o }] }

/-- A new block is bound on a core with a fresh save area that holds its parameters (R156, R167); none when the die has no
room for the area. -/
def bindNew (s : State) (ref : NodeRef) (g : Graph) (n : Node) (number ck : Nat) (r : Room) : Option State :=
  let d := ck / 160
  let b : Bind := { bindOf g n number with tenant := s.ownerOf g.asid }
  let pages := (saveSize b + 4095) / 4096
  match allocRun s d 1 pages with
  | none => none
  | some (p, s) =>
    let s := { s with mem := memStore s.mem (physKey d (4096 * p) + 0x200) (n.params.flatMap fun (w : W64) => leBytes 8 w.toNat) }
    let s := s.putNode ref { n with live := n.live + 1 }
    let s := addBound s d { core := ck % 160, lead := (r.slots.headD 0) % 16, graph := g.hdr, asid := g.asid, node := ref.node,
                            block := number, order := 0, page := p, pages := pages }
    some (writeRecords s { b with save := BitVec.ofNat 64 (4096 * p) } r)

/-- A saved block is bound to resume (R162, R168). -/
def bindSaved (s : State) (v : Saved) (ck : Nat) (r : Room) : State :=
  let d := ck / 160
  let s := addBound s d { core := ck % 160, lead := (r.slots.headD 0) % 16, graph := v.graph, asid := v.bind.asid, node := v.node,
                          block := v.number, order := 0, page := v.page, pages := v.pages, resumedAt := some (s.die d).clock.toNat }
  writeRecords s v.bind r

/-- What a region queue would bind now: a saved block, a block number, or all the blocks of a PERSIST launch. -/
inductive Offer
  | saved (v : Saved)
  | fresh
  | persist
  deriving DecidableEq, Repr

/-- The offers of a region queue, saved blocks first (R161, R162). -/
def offers (s : State) (d : Nat) (q : RQueue) : List Offer :=
  match s.launchNode (queueNode q) with
  | none => []
  | some (g, n) =>
    ((savedOf s d q).map fun v => .saved v) ++
      (if n.persist && n.again.isEmpty && q.granted.isNone then (if persistReady s g q.node then [.persist] else [])
       else if q.granted.isSome then (if budgetSpent g q.node then [] else [.fresh])
       else if !q.refused && claimAllowed s g d q.node then [.fresh] else [])

/-- A core can take what is offered. -/
def takesOffer (s : State) (q : RQueue) (ck : Nat) (o : Offer) : Bool :=
  match s.launchNode (queueNode q) with
  | none => false
  | some (g, n) =>
    match o with
    | .saved v => coreTakes s g q.node (needOfBind v.bind) ck
    | .fresh => coreTakes s g q.node (needOf n) ck
    | .persist => coreTakes s g q.node (needOf n) ck

/-- Every block of a PERSIST launch in one step, one on each core (R117). The lowest core comes last, so that of these blocks, bound
together, it is the first to give way (R163). -/
def bindPersist (s : State) (ref : NodeRef) (g : Graph) (n : Node) : State :=
  let b := persistCount s g ref.node
  let cores := (persistCores s g ref.node).take b
  let s := s.putNode ref { n with count := b, next := b }
  cores.zipIdx.reverse.foldl (fun s p =>
    match s.launchNode ref with
    | none => s
    | some (g, n) =>
      match roomOn s p.1 (needOf n) g.asid n.addr with
      | none => s
      | some r => (bindNew s ref g n p.2 p.1 r).getD (s.putNode ref { n with again := p.2 :: n.again })) s

/-- Bind one offer of a queue on a core. -/
def bindOffer (s : State) (d : Nat) (q : RQueue) (ck : Nat) (o : Offer) : State :=
  let s := match o with
    | .fresh => claimBlock s d q
    | _ => s
  match s.launchNode (queueNode q) with
  | none => s
  | some (g, n) =>
    match o with
    | .saved v =>
      (match roomOn s ck (needOfBind v.bind) g.asid n.addr with
       | none => s
       | some r => bindSaved s v ck r)
    | .fresh =>
      (match ((s.die d).rqs.find? fun y => y.id == q.id).bind (·.granted), roomOn s ck (needOf n) g.asid n.addr with
       | some b, some r =>
         (bindNew (s.setRq d { q with granted := none }) (queueNode q) g n b ck r).getD s
       | _, _ => s)
    | .persist => bindPersist s (queueNode q) g n

/-- Queues of a level in rotation order after the one last served (R162). -/
def rotation (qs : List RQueue) (last : Nat) : List RQueue :=
  (qs.filter fun q => decide (last < q.id)) ++ qs.filter fun q => decide (q.id ≤ last)

/-- A level is served: new rounds of deficits if none of its queues is eligible, and then a block of the first eligible one
(R162). The answer says whether a queue of the level is eligible and some core can take its block. -/
def serveLevel (s : State) (d ck : Nat) (p : Nat) : Bool × State :=
  let level := (s.die d).rqs.filter fun q => q.prio.toNat == p
  let fits (q : RQueue) : Bool := (offers s d q).any fun o => (dieCores d).any fun c => takesOffer s q c o
  let ready := level.filter fits
  if ready.isEmpty then (false, s)
  else
    let s := if level.any fun q => decide (0 < q.deficit) && !(offers s d q).isEmpty then s
      else level.foldl (fun s q => s.setRq d { q with deficit := min (q.deficit + Config.drrQuantum) Config.drrQuantum }) s
    let level := (s.die d).rqs.filter fun q => q.prio.toNat == p
    match (rotation level (tget (s.die d).lastServed p 0)).find? fun q => decide (0 < q.deficit) && fits q with
    | none => (false, s)
    | some q =>
      match (offers s d q).find? fun o => takesOffer s q ck o with
      | none => (true, s)
      | some o =>
        let x := s.die d
        (true, bindOffer (s.setDie d { x with lastServed := tset x.lastServed p q.id }) d q ck o)

/-- Strict priority: the first level with something to bind (R162). -/
def serveLevels (s : State) (d ck : Nat) : List Nat → State
  | [] => s
  | p :: r =>
    let (b, s) := serveLevel s d ck p
    if b then s else serveLevels s d ck r

/-- A core of the die has room for a block of a queue's launch, and may take it where the limits of R114 allow one on some core
(R117, R161, R162). -/
def roomFor (s : State) (d : Nat) (q : RQueue) : Bool := match s.launchNode (queueNode q) with
  | none => false
  | some (g, n) =>
    let limited := limitAllows s g d q.node
    (dieCores d).any fun ck => (roomOn s ck (needOf n) q.asid n.addr).isSome && (!limited || maxcoreOk s g q.node ck)

/-- A queue that the DRR may select: it has a block to bind that some core of the die can take, or a number to claim for one
(R161, R162). -/
def selectable (s : State) (d : Nat) (q : RQueue) : Bool :=
  ((offers s d q).any fun o => (dieCores d).any fun c => takesOffer s q c o) || (mayClaim s q && roomFor s d q)

/-- The queue that the DRR of a die selects next: of the first level with a selectable queue, the first in rotation with a
deficit, or the first of all once new rounds are due (R162). -/
def drrSelects (s : State) (d : Nat) : Option RQueue :=
  match [7, 6, 5, 4, 3, 2, 1, 0].find? fun p => (s.die d).rqs.any fun q => q.prio.toNat == p && selectable s d q with
  | none => none
  | some p =>
    let level := (rotation ((s.die d).rqs.filter fun q => q.prio.toNat == p) (tget (s.die d).lastServed p 0)).filter (selectable s d)
    match level.find? fun q => decide (0 < q.deficit) with
    | some q => some q
    | none => level.head?

/-- BLOCK_CLAIM (R114, R115, R161): the die's DRR has selected the queue, and its punty claims the launch's next number. -/
def execBlockClaim (s : State) : Out :=
  let d := s.arg.die.toNat
  if (s.die d).halted.isSome || !dieOnline s d then .next s
  else match drrSelects s d with
    | none => .next s
    | some q => .next (if queueNode q = s.arg.node then claimBlock s d q else s)

/-- DRR_BIND (R117, R118, R161, R162). -/
def execDrrBind (s : State) : Out :=
  let ck := argCore s
  let d := ck / 160
  if (s.die d).halted.isSome || !dieOnline s d then .next s
  else .next (sweep (serveLevels s d ck [7, 6, 5, 4, 3, 2, 1, 0]))

/-! ### Pre-emption (R163) -/

/-- A resident block that may be pre-empted for a launch of priority `p`: none that already gives way, and none that has resumed
less than 2^17 cycles ago (R163). -/
def victimOk (s : State) (d : Nat) (p : W3) (b : Bound) : Bool :=
  let lead := slotKey d b.core b.lead
  let ks := blockSlots s lead
  b.ended.isNone && !ks.isEmpty && !(s.block lead).dead && decide ((s.slot lead).bind.prio < p) &&
    (ks.all fun k => (s.slot k).bind.sstate == .running || (s.slot k).bind.sstate == .faulted || (s.slot k).bind.sstate == .done) &&
    b.victimOf.isNone &&
    (match b.resumedAt with
     | none => true
     | some t => decide (t + 2 ^ 17 ≤ (s.die d).clock.toNat))

/-- The better victim: lowest priority, then the most recently bound, then the lowest core (R163). -/
def betterVictim (s : State) (d : Nat) (a b : Bound) : Bound :=
  let pa := (s.slot (slotKey d a.core a.lead)).bind.prio
  let pb := (s.slot (slotKey d b.core b.lead)).bind.prio
  if pa < pb then a else if pb < pa then b else if b.order < a.order then a else if a.order < b.order then b
  else if b.core < a.core then b else a

/-- Blocks that already give way for the blocks of a region queue (R163). -/
def draining (s : State) (d : Nat) (q : RQueue) : Nat :=
  ((s.die d).bound.filter fun b => b.ended.isNone && b.victimOf == some q.id).length

/-- A block gives way for a region queue (R163). -/
def chooseVictim (s : State) (d : Nat) (q : RQueue) (v : Bound) : State :=
  let x := s.die d
  preempt (s.setDie d { x with bound := x.bound.map fun b => if b.order = v.order then { b with victimOf := some q.id } else b })
    (slotKey d v.core v.lead)

/-- The blocks of a launch that wait for a core of the die (R163). -/
def waitingBlocks (s : State) (d : Nat) (g : Graph) (q : RQueue) : Nat :=
  let n := g.node q.node
  let fresh := if n.persist && n.again.isEmpty then
      (if n.next = 0 ∧ !n.stop ∧ !budgetSpent g q.node then persistCount s g q.node - (persistCores s g q.node).length else 0)
    else (if claimAllowed s g d q.node then n.count - n.next + n.again.length else 0) + (if q.granted.isSome then 1 else 0)
  (if limitAllows s g d q.node then (savedOf s d q).length else 0) + fresh

/-- PREEMPT_DECISION (R163): a launch whose block no core can take makes one victim give way. -/
def execPreemptDecision (s : State) : Out :=
  let d := s.arg.die.toNat
  match (s.die d).rqs.find? fun q => queueNode q == s.arg.node, findGraph s s.arg.node.asid s.arg.node.graph with
  | some q, some g =>
    let able := (offers s d q).any fun o => (dieCores d).any fun c => takesOffer s q c o
    if able || decide (waitingBlocks s d g q ≤ draining s d q) then .next s
    else match (s.die d).bound.filter (victimOk s d q.prio) with
      | [] => .next s
      | b :: r =>
        .next (chooseVictim s d q (r.foldl (betterVictim s d) b))
  | _, _ => .next s

/-! ### Events of the ring (R114, R124, R159, R160, R287) -/

/-- The event at the firmware's place in the ring, as its two words. -/
def ringHead (s : State) (d : Nat) : Option (Nat × Nat) :=
  let x := s.die d
  if x.drseen = x.drtail then none
  else
    let a := physKey d (x.drbase.toNat + 16 * x.drseen.toNat)
    some (memNat s.mem a 8, memNat s.mem (a + 8) 8)

/-- The firmware's place moves on. -/
def passEvent (s : State) (d : Nat) : State :=
  let x := s.die d
  s.setDie d { x with drseen := BitVec.ofNat 16 ((x.drseen.toNat + 1) % (max x.drsize.toNat 1)) }

/-- A block that has ended is charged to USED and to its queue's deficit, and its save area is free (R114, R160, R162). -/
def chargeBlock (s : State) (d : Nat) (b : Bound) (c : Nat) : State :=
  let r : NodeRef := ⟨b.asid, b.graph, b.node⟩
  let s := chargeQueue (if b.charged then s else chargeUsed s r c) d r c
  let x := s.die d
  let s := s.setDie d { x with bound := x.bound.filter fun y => y.order != b.order }
  settleAll (allowClaims (freeRun s d b.page b.pages) r) r

/-- RETIRED_EVENT (R114, R160, R162): RETIRED and KILLED are charged; SAVED and BADBIND need nothing more. -/
def execRetiredEvent (s : State) : Out :=
  let d := s.arg.die.toNat
  match ringHead s d with
  | none => .next s
  | some (w0, _) =>
    let kind := bitsOf w0 63 60
    if kind = 4 then .next s
    else
      let s := passEvent s d
      if kind ≠ 1 ∧ kind ≠ 3 then .next s
      else match (s.die d).bound.find? fun b => b.core == bitsOf w0 55 48 && b.lead == bitsOf w0 59 56 && b.ended.isSome with
        | none => .next s
        | some b => .next (sweep (chargeBlock s d b (b.ended.getD 0)))

def boundNode (b : Bound) : NodeRef := ⟨b.asid, b.graph, b.node⟩

/-- The launch of the block in a slot, as the firmware bound it. -/
def slotLaunch (s : State) (k : Nat) : Option NodeRef := (boundOf s k).map boundNode

/-- The nearest of a node and its ancestors that overrides the fault domain (R124). -/
def domainNode (g : Graph) (j : Nat) : Nat := ((g.path j).find? fun a => (g.node a).ovr.getLsbD 4).getD ((g.path j).getLastD j)

/-- The policy in force is applied to a block (R124); `group` is the faulting group, if one is. -/
def applyPolicy (s : State) (r : NodeRef) (group : Option Nat) (lead : Nat) : State :=
  match s.launchNode r with
  | none => match group with
    | some k => killGroup s k
    | none => killBlock s lead
  | some (g, n) =>
    match n.fpol.toNat with
    | 0 => (match group with
      | some k => killGroup s k
      | none => killBlock s lead)
    | 1 => killBlock s lead
    | 2 => stopLaunch s r 4
    | _ =>
      let top := domainNode g r.node
      stopLaunches s r.asid r.graph ((List.range g.nodes.length).filter fun j => (g.node j).kind == .launch && g.under top j) 4

/-- The record of a faulted group (R289, R290). -/
def faultNotice (x : FaultNote) (n : Node) : Notice :=
  let f := x.frame
  { cause := if x.inner.isSome then 0x20 else 0x26
    code := if x.inner.isSome then bitsOf f.trapw.toNat 55 48 else bitsOf f.trapw.toNat 63 56
    fpol := n.fpol.toNat, die := slotDie x.slot, core := slotCoreNo x.slot, slot := x.slot % 16, gidx := x.bind.gidx.toNat
    block := x.bind.block.toNat, lanes := bitsOf f.trapw.toNat 31 0, fpc := f.fpc, arg0 := f.arg0, arg1 := f.arg1
    inner := x.inner.getD 0, time := x.time }

/-- The slot of a die that holds a context. -/
def contextSlot (s : State) (d ctx : Nat) : Option Nat :=
  (s.slots.find? fun e => slotDie e.1 == d && e.2.ctx == ctx && e.2.bind.sstate != .empty).map (·.1)

/-- A group of a saved block is killed: with it the block, if no other group of it is left (R158). -/
def killSavedGroup (s : State) (d ctx : Nat) (v : Saved) : State :=
  match v.ctxs.findIdx? (· == ctx) with
  | none => s
  | some i =>
    let killed := v.block.killed ||| (1#16 <<< i)
    let dead (j : Nat) : Bool := killed.getLsbD j || bitsOf (memNat s.mem (groupBase d v.bind j + 8) 8) 63 56 == 5
    if (List.range v.ctxs.length).all dead then dropSaved s d v
    else
      let x := s.die d
      releaseContext (s.setDie d { x with
        saved := x.saved.map fun y => if y = v then { y with block := { y.block with killed := killed } } else y }) ctx v.bind.asid
        ((v.slept.filter fun p => p.1 == i).map (·.2))

/-- The policy in force is applied to a faulted group, which may be resident or saved (R124, R287). -/
def applyFault (s : State) (d : Nat) (x : FaultNote) (n : Node) (r : NodeRef) : State :=
  match contextSlot s d x.ctx with
  | some k => applyPolicy s r (some k) (leadOf k (s.slot k))
  | none =>
    match (s.die d).saved.find? fun v => v.ctxs.contains x.ctx with
    | none => if n.fpol.toNat ≤ 1 then s else applyPolicy s r none x.slot
    | some v =>
      if n.fpol = 0 then killSavedGroup s d x.ctx v else if n.fpol = 1 then dropSaved s d v else applyPolicy s r none x.slot

/-- FAULT_EVENT (R124, R287, R289). -/
def execFaultEvent (s : State) : Out :=
  let d := s.arg.die.toNat
  match ringHead s d with
  | none => .next s
  | some (w0, _) =>
    if bitsOf w0 63 60 ≠ 4 then .next s
    else
      let s := passEvent s d
      match (s.die d).notes with
      | [] => .next s
      | x :: rest =>
        let s := s.setDie d { s.die d with notes := rest }
        if x.void then .next s
        else match x.own, x.node with
          | some b, some n =>
            let s := notify s b.asid n (faultNotice x n)
            .next (sweep (applyFault s d x n (boundNode b)))
          | _, _ => .next (sweep ((contextSlot s d x.ctx).elim s (killGroup s)))

/-! ### Watchdogs (R123) -/

/-- WATCHDOG_EXPIRY (R123, R290). -/
def execWatchdogExpiry (s : State) : Out :=
  let r := s.arg.node
  match s.launchNode r with
  | none => .next s
  | some (g, n) =>
    if n.kind ≠ .launch ∨ n.state ≠ .ready ∨ n.wdog = 0 ∨ n.stop ∨ s.time < n.readyAt + n.wdog.toNat * 1000000 then .next s
    else .next (stopLaunch (notify s g.asid n { cause := 0x21, fpol := 2, die := g.die, time := (s.die g.die).clock }) r 3)

/-! ### Gangs (R125) -/

/-- What follows a change of a gang. -/
def gangGo (s : State) (r : NodeRef) : State := settleNodes (gangTest (settleLaunch (sweep s) r) r) r.asid r.graph

/-- A member's node joins the gang and acknowledges (R125). -/
def joinGang (s : State) (r : NodeRef) (home : Nat) : State :=
  match s.launchNode r with
  | none => gangSend s home r .nack 0
  | some (_, n) =>
    if n.kind = .launch ∧ n.isGang ∧ n.state = .waiting ∧ n.gang.isNone then
      gangGo (captureLaunch (gangSend s home r .ack 0) r (some { home := home })) r
    else gangSend s home r .nack 0

/-- The node of a gang message, which a member finds by the digest of its image and its index (R125). -/
def memberNode (s : State) : NodeRef :=
  let r := s.arg.node
  { r with graph := (graphOf s r.asid s.arg.digest).getD r.graph }

/-- A member does with its node what the coordinator asks; one without the image does nothing (R125). -/
def atMember (s : State) (act : NodeRef → Graph × Node → State) : Out :=
  let r := memberNode s
  match graphOf s r.asid s.arg.digest, s.launchNode r with
  | some _, some p => .next (act r p)
  | _, _ => .next s

/-- GANGSTART (R125): the member finds the node by the digest of its image and its index; one whose graph has not been started
runs the node of its loaded image alone. -/
def execGangstart (s : State) : Out :=
  let home := s.arg.pkg.toNat
  let r := memberNode s
  if (graphOf s r.asid s.arg.digest).isNone then .next (gangSend s home r .nack 0)
  else if (findGraph s r.asid r.graph).isSome then .next (joinGang s r home)
  else match validate s (s.obj r.asid.toNat (addrObj r.graph)).home r.asid r.graph 0 with
    | none => .next (gangSend s home r .nack 0)
    | some g =>
      if g.nodes.length ≤ r.node then .next (gangSend s home r .nack 0)
      else .next (joinGang { s with graphs := s.graphs ++ [{ g with guest := some r.node }] } r home)

/-- A message that comes after the abort is discarded and counted (R58, R125). -/
def lateGang (s : State) (g : Graph) : State := addLate s g.die 0

/-- GANG_ACK (R125). One that comes once the coordinator's graph has ended comes after an abort. -/
def execGangAck (s : State) : Out :=
  let r := s.arg.node
  let p := s.arg.pkg.toNat
  match s.launchNode r with
  | none => .next (addLate s s.arg.die.toNat 0)
  | some (g, n) =>
    match n.gang with
    | none => .next s
    | some gg =>
      if gg.home ≠ s.pkgid.toNat ∨ !gg.others.contains p then .next s
      else if gg.aborted.isSome then .next (lateGang s g)
      else if s.arg.flag then .next (setGang s r { gg with acked := if gg.acked.contains p then gg.acked else gg.acked ++ [p] })
      else .next (gangGo (gangAbort s r 6) r)

/-- GANG_TIMEOUT (R125). -/
def execGangTimeout (s : State) : Out :=
  let r := s.arg.node
  match s.launchNode r with
  | none => .next s
  | some (_, n) =>
    match n.gang with
    | none => .next s
    | some gg =>
      if gg.home ≠ s.pkgid.toNat ∨ gg.final.isSome ∨ s.time < gg.deadline ∨ gg.others.all gg.acked.contains then .next s
      else .next (gangGo (gangAbort s r 6) r)

/-- GANG_DONE (R125). One that comes once the coordinator's graph has ended comes after an abort. -/
def execGangDone (s : State) : Out :=
  let r := s.arg.node
  let p := s.arg.pkg.toNat
  match s.launchNode r with
  | none => .next (addLate s s.arg.die.toNat 0)
  | some (g, n) =>
    match n.gang with
    | none => .next s
    | some gg =>
      if gg.home ≠ s.pkgid.toNat ∨ !gg.others.contains p then .next s
      else if gg.aborted.isSome then .next (lateGang s g)
      else
        let s := setGang s r { gg with reported := if gg.reported.contains p then gg.reported else gg.reported ++ [p] }
        let st := s.arg.v.toNat % 256
        .next (gangGo (if st = 0 then s else gangAbort s r st) r)

/-- GANGABORT (R125): the member's blocks are killed; a member that has not started never starts. -/
def execGangabort (s : State) : Out :=
  atMember s fun r (_, n) =>
    if n.kind ≠ .launch ∨ !n.isGang ∨ n.state = .complete then s
    else match n.gang with
      | none => s.putNode r { n with gang := some { home := 512, aborted := some 6 } }
      | some gg =>
        if gg.home = s.pkgid.toNat then s
        else gangGo (s.putNode r { n with gang := some { gg with aborted := some 6 }, stop := true, lost := some (n.lost.getD 4) }) r

/-- GANG_FINAL_STATUS (R120, R125): the member's node completes with the status once none of its blocks is left. -/
def execGangFinalStatus (s : State) : Out :=
  atMember s fun r (_, n) =>
    match n.gang with
    | none => s
    | some gg =>
      if gg.home = s.pkgid.toNat ∨ n.state = .complete then s
      else
        let st := s.arg.v.toNat % 256
        let s := s.putNode r { n with gang := some { gg with final := some st, aborted := some (gg.aborted.getD st) }, stop := true,
                                      lost := some (n.lost.getD st) }
        if n.state = .waiting then settleNodes (completeNode s r st 0) r.asid r.graph else gangGo s r

/-! ### Unreachable packages (R85) -/

/-- Everything that waits at a die for an answer on a flow ends with HOMELOST. What its own homes have answered without an ACK, also
what still waited at the limiter, is held until the flows are reset (log 21: DEDUCED). Contributions that nobody waits for are dropped, and
refusals kept of them forgotten (log 129: DESIGN CHOICE). -/
def loseFlow (s : State) (f : Flow) (waiting : List Msg) : State :=
  let x := s.flow f
  let m : Msg := { flow := revFlow f, typ := .reply, code := 0x19 }
  let asked := (x.answers.map (·.who)) ++ x.held.map (·.ctx)
  let back := ((x.unacked.map (·.msg)) ++ x.held ++ waiting).filter fun m => m.flow == f && (m.typ == .reply || m.typ == .wake)
  let s := s.setFlow f { x with unacked := [], answers := [], flushes := [], held := back, refusedMerge := [] }
  let s := { s with grants := s.grants.filter fun g => g.flow != f, orphans := s.orphans.filter fun o => o.flow != f }
  let s := asked.foldl (fun s who => deliverReply s (revFlow f) m who) s
  (s.slots.map (·.1)).foldl (fun s k =>
    if slotDie k ≠ f.sdie.toNat then s
    else
      let s := (s.slot k).outst.foldl (fun s o => match o.op with
        | .queue q => (match q.st with
          | .asleep f' _ _ => if f' = f ∧ o.res.isNone then groupWake s (revFlow f) m k o q else s
          | _ => s)
        | _ => s) s
      let g := s.slot k
      match g.fence with
      | none => s
      | some c =>
        if c.waits.any fun w => w.1 == f then
          let (id, s) := s.fresh
          settle (s.setSlot k { g with
            fence := none
            outst := g.outst ++ [⟨id, c.fpc, .wait, some (faultResult (queueFault c.fpc c.lanes 0x19 0 0))⟩] }) k
        else s) s

/-- Dispatches and saved operations asleep on a flow end or wake with HOMELOST (R85). -/
def loseSleepers (s : State) (d : Nat) (f : Flow) : State :=
  let m : Msg := { typ := .wake, code := 0x19 }
  let s := ((s.die d).dispatches.filter fun x => (x.asleep.map fun a => a.1) == some f).foldl (fun s x => dispWake s d x m) s
  let note (q : QOp) : QOp := match q.st with
    | .asleep f' _ _ => if f' = f then { q with woken := some (0x19, 0, 0) } else q
    | _ => q
  let x := s.die d
  { s.setDie d { x with saved := x.saved.map fun v => { v with slept := v.slept.map fun p => (p.1, note p.2) } } with
    slots := s.slots.map fun e => if slotDie e.1 = d then (e.1, { e.2 with slept := e.2.slept.map note }) else e }

/-- No path has been up for UNREACH ms, or a message has been resent as long without an ACK (R85). -/
def unreachDue (s : State) (d : Nat) (pkg : BitVec 9) : Bool :=
  let ms := (max s.fabric.unreach.toNat 1) * 1000000
  ([512, pkg.toNat].any fun p => match tfind s.fabric.noPath p with
   | some t => decide (t + ms ≤ s.time)
   | none => false) ||
    s.flows.any fun f => f.1.spkg == s.pkgid && f.1.sdie.toNat == d && f.1.dpkg == pkg &&
      f.2.unacked.any fun u => decide (u.firstAt + ms ≤ s.time)

/-- Gangs with a member that has become unreachable are aborted (R125). -/
def loseMembers (s : State) (d : Nat) (pkg : Nat) : State :=
  (s.graphs.flatMap fun g => if g.die = d then (List.range g.nodes.length).map fun j => nodeRef g j else []).foldl (fun s r =>
    match s.launchNode r with
    | none => s
    | some (_, n) => match n.gang with
      | none => s
      | some gg =>
        if gg.home = s.pkgid.toNat ∧ gg.final.isNone ∧ gg.others.contains pkg then
          gangGo (gangAbort (setGang s r { gg with reported := gg.reported ++ [pkg] }) r 6) r
        else s) s

/-- UNREACHABLE_DECLARE (R85). What waits at the limiter is given up with what has been sent, REPLY and WAKE messages are held for the
flows' next start (log 21: DEDUCED). -/
def execUnreachableDeclare (s : State) : Out :=
  let d := s.arg.die.toNat
  let p := s.arg.pkg
  let k := limKey d p
  if p = s.pkgid ∨ (s.limiter k).unreachable ∨ !unreachDue s d p then .next s
  else
    let old := (s.limiter k).waiting
    let s := s.setLimiter k { s.limiter k with unreachable := true, waiting := [] }
    let w := p.toNat / 64
    let s := { s with fabric := { s.fabric with fabunr := tset s.fabric.fabunr w (tget s.fabric.fabunr w 0 ||| (1#64 <<< (p.toNat % 64))) } }
    let s := ((ownFlows s).filter fun f => f.sdie.toNat == d && f.dpkg == p).foldl (fun s f => loseSleepers (loseFlow s f old) d f) s
    .next (loseMembers s d p.toNat)

end Sys2Proof.Machine
end

