-- ==== Sys2Proof/Machine/ExpertQueue.lean ====
section
/-! DEFINITION. The expert control queue (R148, R149): its commands, one event for each. -/
namespace Sys2Proof.Machine

/-! ### Elements (R148) -/

/-- A control element, field by field. -/
structure Ctrl where
  cmd : Nat
  idx : Nat
  eid : W32
  addr : W64
  size : Nat
  pool : W4
  nf : Nat
  wqh : W32
  pdies : W8
  part : W3
  npm1 : W3
  cqh : W32
  cqn : W8
  compl : W64
  bad : Bool
  deriving DecidableEq, Repr

/-- The element of 64 bytes; `bad` says that CMD is reserved or a reserved field is not zero (R149). -/
def parseCtrl (bs : List W8) : Ctrl :=
  let w (i : Nat) : Nat := leNat ((bs.drop (8 * i)).take 8)
  let f (i hi lo : Nat) : Nat := bitsOf (w i) hi lo
  let cmd := f 0 63 56
  { cmd := cmd
    idx := f 0 47 32
    eid := BitVec.ofNat 32 (w 0)
    addr := BitVec.ofNat 64 (w 1)
    size := f 2 63 32
    pool := BitVec.ofNat 4 (f 2 19 16)
    nf := f 2 15 0 + 1
    wqh := BitVec.ofNat 32 (w 3)
    pdies := BitVec.ofNat 8 (f 4 63 56)
    part := BitVec.ofNat 3 (f 4 55 53)
    npm1 := BitVec.ofNat 3 (f 4 52 50)
    cqh := BitVec.ofNat 32 (w 4)
    cqn := BitVec.ofNat 8 (f 5 63 56)
    compl := BitVec.ofNat 64 (w 6 / 8 * 8)
    bad := cmd == 0 || decide (6 < cmd) || f 0 55 48 != 0 || f 2 31 20 != 0 || f 3 63 32 != 0 || f 4 49 32 != 0 ||
      f 5 55 0 != 0 || f 6 2 0 != 0 || w 7 != 0 || (cmd == 6 && (f 0 47 36 != 0 || f 0 31 0 != 0)) }

/-! ### Checks and completion (R149) -/

/-- The completion word of a command with a status. -/
def ctrlWord (status : Nat) : W64 := BitVec.ofNat 64 (status * 2 ^ 56 + 2 ^ 55)

/-- A command's answer: its status, what it leaves, and whether the completion word waits for an eviction. -/
structure CtrlRes where
  status : Nat
  next : State
  later : Bool := false

/-- A refused command changes nothing. -/
def refuse (s : State) (status : Nat) : CtrlRes := ⟨status, s, false⟩

/-- Checks 2 and 3, in order. -/
def ctrlCheck (s : State) (die : Nat) (asid : BitVec 12) (c : Ctrl) : Option Nat :=
  let e := s.ert die c.idx
  if c.cmd = 6 then none
  else if s.reserved asid || !inRange s (BitVec.ofNat 6 (tenantOf asid)) c.idx then some 7
  else if c.cmd = 1 then (if e.valid then some 5 else none)
  else if !e.valid || e.eid != c.eid || e.asid != asid then some 5
  else none

/-- A far-tier object holds `n` bytes from an address on (R149). -/
def farHolds (s : State) (asid : BitVec 12) (a : W64) (n : Nat) : Bool :=
  let o := s.obj asid.toNat (addrObj a)
  addrObj a != 0 && o.state == .valid && o.kind == .far && decide (addrOff a + n ≤ o.bound)

/-- POOL: its conditions and its effect. -/
def ctrlPool (s : State) (die : Nat) (asid : BitVec 12) (c : Ctrl) : CtrlRes :=
  let t := tenantOf asid
  let p := c.idx % 16
  let o := s.obj asid.toNat (addrObj c.addr)
  let used := (ertsOf s die).any fun x => x.2.valid && x.2.tenant.toNat == t && x.2.pool.toNat == p
  if used then refuse s 2
  else if addrObj c.addr = 0 ∨ o.state ≠ .valid ∨ o.kind ≠ .die ∨ o.home ≠ die ∨ c.addr.toNat % 65536 ≠ 0 ∨ !o.r ∨ o.w ∨
      o.bound < addrOff c.addr + c.nf * c.size * 4096 then refuse s 9
  else
    let pool : Pool := { asid := asid, base := c.addr, fsize := c.size, nf := c.nf, free := List.range c.nf }
    ⟨0, { s with pools := tset s.pools (poolKey die t p) pool }, false⟩

/-- The queue of a PQID stands at a die of this package with a descriptor that a test admits. -/
def queueIs (s : State) (p : W32) (die : Nat) (ok : Queue → Bool) : Bool :=
  let q := s.qref (qrefOf p)
  pqPkg p == s.pkgid && (pqDie p).toNat == die && decide ((pqQueue p).toNat < Config.queuesPerPort) && q.state != .free && ok q

/-- REGISTER. -/
def ctrlRegister (s : State) (die : Nat) (asid : BitVec 12) (c : Ctrl) : CtrlRes :=
  let t := tenantOf asid
  match tfind s.pools (poolKey die t c.pool.toNat) with
  | none => refuse s 3
  | some p =>
    if p.fsize < c.size then refuse s 4
    else match translate s asid.toNat c.wqh rEnq with
      | .error _ => refuse s 6
      | .ok wq =>
        if !queueIs s wq die fun q => q.kind == 0 && q.esizeB == 16 then refuse s 6
        else
          let o := s.obj asid.toNat (addrObj c.addr)
          if !(farHolds s asid c.addr (c.size * 4096) && o.r) then refuse s 8
          else
            ⟨0, s.setErt die c.idx { eid := c.eid, valid := true, tenant := BitVec.ofNat 6 t, asid := asid, pool := c.pool,
                                     src := c.addr, size := BitVec.ofNat 32 c.size, wq := wq, srcBase := o.extbase }, false⟩

/-- A fetch that still waits for its landing slot gives up its place in the wait queue. -/
def dropFetchSleeper (s : State) (die id : Nat) : State :=
  { s with ports := s.ports.map fun p => (p.1, { p.2 with sleepers := p.2.sleepers.filter fun e => e.who != .fetch die id }) }

/-- A landing slot that the home has granted to a sleeping fetch (R37, R45). -/
def grantedFetch (s : State) (die id : Nat) (r : QRef) : Option (BitVec 48) :=
  (s.port r.pkey).sleepers.findSome? fun e =>
    if e.who = .fetch die id ∧ e.queue = r.q then
      match e.woken with
      | some (0, t) => some (ticketSeq t)
      | _ => none
    else none

/-- A Fetching entry completes its fetch with a status (R141, R147, R149). -/
def cutFetch (s : State) (die idx status : Nat) : State :=
  match (s.die die).fetches.find? fun f => f.idx == idx with
  | none => s
  | some f =>
    let r := waitRef (s.ert die idx)
    let f : Fetch := match f.step, grantedFetch s die f.id r with
      | .reserve, some q => { f with seq := q, step := .ready }
      | _, _ => f
    endFetch (dropFetchSleeper s die f.id) die f status

/-- UNREGISTER. A fetch that it ends leaves FERR set (R142). -/
def ctrlUnregister (s : State) (die : Nat) (c : Ctrl) : CtrlRes :=
  let e := s.ert die c.idx
  if e.use ≠ 0 then refuse s 2
  else match e.state with
    | .absent | .resident | .fetching =>
      let s := match e.state with
        | .fetching => cutFetch s die c.idx 2
        | .resident => freeFrame s die e
        | _ => s
      ⟨0, s.setErt die c.idx { s.ert die c.idx with valid := false, state := .absent, pin := false, refetch := false }, false⟩
    | _ => refuse s 5

/-- SPLIT. -/
def ctrlSplit (s : State) (die : Nat) (asid : BitVec 12) (c : Ctrl) : CtrlRes :=
  let e := s.ert die c.idx
  if e.state ≠ .absent then refuse s 5
  else if (match s.pool die e with
      | none => true
      | some p => decide (p.fsize < c.size)) then refuse s 4
  else match translate s asid.toNat c.cqh rMerge with
    | .error _ => refuse s 6
    | .ok cq =>
      if (homeKind s cq).1 ≠ 2 then refuse s 6
      else if !farHolds s asid e.src ((c.part.toNat + 1) * c.size * 4096) then refuse s 8
      else
        let e : Ert := { e with pdies := c.pdies, part := c.part, npm1 := c.npm1, cq := cq, cqn := c.cqn, parted := true,
                                size := BitVec.ofNat 32 c.size }
        ⟨0, startFetch (s.setErt die c.idx e) die c.idx true, false⟩

/-- EVICT and UNSPLIT: the entry leaves the given state by eviction. -/
def ctrlEvict (s : State) (die : Nat) (c : Ctrl) (from_ : ErtState) : CtrlRes :=
  let e := s.ert die c.idx
  if e.state ≠ from_ then refuse s 5
  else if e.use ≠ 0 then refuse s 2
  else ⟨0, s.setErt die c.idx { e with state := .evicting, compl := some c.compl }, true⟩

/-! ### The firmware takes a command (R148, R149) -/

/-- A command of the ASID has not finished: elements are consumed one at a time. -/
def ctrlBusy (s : State) (die : Nat) (asid : BitVec 12) : Bool :=
  (ertsOf s die).any fun e => e.2.asid == asid && e.2.compl.isSome

/-- The head of the ASID's control queue is taken, when it is the command asked for, a reserved one or Void. -/
def ctrlCommand (s : State) (cmd : Nat) (run : State → Nat → BitVec 12 → Ctrl → CtrlRes) : Out :=
  let d := s.arg.die.toNat
  let asid := s.arg.asid
  match tfind (s.asid asid.toNat).ctrlQ d with
  | none => .next s
  | some p =>
    if !dieOnline s d || ctrlBusy s d asid then .next s
    else match takeHead s (qrefOf p) with
      | none => .next s
      | some (none, s') => .next s'
      | some (some bs, s') =>
        let c := parseCtrl bs
        if c.cmd ≠ cmd ∧ 1 ≤ c.cmd ∧ c.cmd ≤ 6 then .next s
        else if c.bad then .next (writeCompletion s' d asid c.compl (ctrlWord 1))
        else match ctrlCheck s' d asid c with
          | some st => .next (writeCompletion s' d asid c.compl (ctrlWord st))
          | none =>
            let r := run s' d asid c
            .next (if r.later then r.next else writeCompletion r.next d asid c.compl (ctrlWord r.status))

/-- REGISTER (R133, R148, R149). -/
def execRegister (s : State) : Out := ctrlCommand s 1 ctrlRegister

/-- UNREGISTER (R142, R149). -/
def execUnregister (s : State) : Out := ctrlCommand s 2 fun s d _ c => ctrlUnregister s d c

/-- SPLIT (R145, R149). -/
def execSplit (s : State) : Out := ctrlCommand s 3 ctrlSplit

/-- UNSPLIT (R147, R149). -/
def execUnsplit (s : State) : Out := ctrlCommand s 4 fun s d _ c => ctrlEvict s d c .split

/-- EVICT (R137, R149). -/
def execEvict (s : State) : Out := ctrlCommand s 5 fun s d _ c => ctrlEvict s d c .resident

/-- POOL (R135, R149). -/
def execPool (s : State) : Out := ctrlCommand s 6 ctrlPool

end Sys2Proof.Machine
end

