-- ==== Sys2Proof/Machine/Homes.lean ====
section
/-! DEFINITION. Where objects lie: far-tier extents (R127, R130 to R132), claims (R220, R221), and a die that goes offline
(R12, R56, R147, R150, R227, R228). -/
namespace Sys2Proof.Machine

/-! ### Far-tier extents (R127, R130 to R132) -/

/-- The 2 GiB extents of a far-tier port's device: the installed capacity fills the ports in order (log 22: DESIGN CHOICE). -/
def portExtents (s : State) (p : Nat) : Nat :=
  if p < 2 then min 8192 (s.dvsec.capc.toNat - 8192 * p) else min 16384 (s.dvsec.capn.toNat - 16384 * (p - 2))

/-- The tier address of a port's first byte (R127). -/
def portBase (p : Nat) : Nat := if p < 2 then p * 2 ^ 44 else (p - 1) * 2 ^ 45

/-- The far-tier extents in use, as tier address and extents. -/
def farUsed (s : State) : List (Nat × Nat) := s.ifaces.flatMap fun i => i.2.far

/-- The extents that a tenant uses on CXL, or on NVMe. -/
def quotaUsed (i : Iface) (nvme : Bool) : Nat :=
  (i.far.filter fun r => (2 ≤ farPort r.1) == nvme).foldl (fun n r => n + r.2) 0

/-- The quota of a tenant has room for `n` more extents (R131, R132). -/
def quotaRoom (i : Iface) (nvme : Bool) (n : Nat) : Bool :=
  decide (quotaUsed i nvme + n ≤ (if nvme then i.qn else i.qc).toNat)

/-- A free run of extents of a port: the tier address of the first. -/
def portRun (s : State) (n p : Nat) : Option Nat :=
  let used := (farUsed s).filterMap fun r => if farPort r.1 = p then some ((r.1 - portBase p) / 2 ^ 31, r.2) else none
  (firstFit used n (portExtents s p)).map fun e => portBase p + e * 2 ^ 31

/-- Take a run of far-tier extents for a tenant, on CXL before NVMe, within its quotas (log 22: DESIGN CHOICE). -/
def takeFar (s : State) (t n : Nat) : Option (Nat × State) :=
  let i := s.iface t
  let ports := (if quotaRoom i false n then [0, 1] else []) ++ (if quotaRoom i true n then [2, 3, 4, 5] else [])
  match ports.findSome? (portRun s n) with
  | none => none
  | some a => some (a, s.setIface t { i with far := i.far ++ [(a, n)] })

/-- The extents that a number of bytes needs. -/
def farExtents (bytes : Nat) : Nat := (bytes + 2 ^ 31 - 1) / 2 ^ 31

/-- A tenant's run of far-tier extents is free again. -/
def giveFar (s : State) (t a : Nat) : State :=
  let i := s.iface t
  s.setIface t { i with far := i.far.filter fun r => r.1 != a }

/-! ### Runs of pages (R208, log 16: DESIGN CHOICE) -/

/-- As many free runs as it takes for `need` pages, and what then remains. -/
def takeAny (need : Nat) : List (Nat × Nat) → Option (List (Nat × Nat) × List (Nat × Nat))
  | [] => if need = 0 then some ([], []) else none
  | (p, n) :: r =>
    if need = 0 then some ([], (p, n) :: r)
    else if need < n then some ([(p, need)], (p + need, n - need) :: r)
    else (takeAny (need - n) r).map fun x => ((p, n) :: x.1, x.2)

/-- Present extents of 4 KiB granules over runs, from an object page on. -/
def runExtents (pg : Nat) : List (Nat × Nat) → List Extent
  | [] => []
  | (p, n) :: r => runOf pg 1 n true false p ++ runExtents (pg + n) r

/-- A zero-fill run of 4 KiB granules. -/
def zeroExtent (pg n : Nat) : List Extent := runOf pg 1 n false true 0

def objPages (o : Obj) : Nat := (o.bound + 4095) / 4096

/-- The poison of a page travels with its bytes (R225). -/
def movePoison (s : State) (src dst : Nat) : State :=
  { s with poison := (s.poison.filter fun w => 64 * w < dst || dst + 4096 ≤ 64 * w) ++
      (s.poison.filter fun w => src ≤ 64 * w && 64 * w < src + 4096).map fun w => w - src / 64 + dst / 64 }

/-- A page of an object takes the bytes and the poison of its old place. -/
def movePage (s : State) (o n : Obj) (pg : Nat) : State :=
  match objByteAddr n (4096 * pg) with
  | none => s
  | some dst =>
    if o.kind = .far then
      movePoison { s with mem := memCopy s.mem dst s.far (o.extbase.toNat + 4096 * pg) 4096 } (farKey (o.extbase.toNat + 4096 * pg)) dst
    else match objByteAddr o (4096 * pg) with
      | none => s
      | some src => movePoison { s with mem := memCopy s.mem dst s.mem src 4096 } src dst

/-- A far-tier object is freed or moves: what expert entries name as their source is no longer the range registered (R141). -/
def forgetSource (s : State) (asid obj : Nat) : State :=
  { s with erts := s.erts.map fun p =>
      if p.2.asid.toNat = asid ∧ addrObj p.2.src = obj then (p.1, { p.2 with srcGone := true }) else p }

/-- Pages `lo` to `hi − 1` of an object move to a die, and the rest of it becomes zero-fill (R221); none when the die lacks
room. -/
def rehome (s : State) (asid : BitVec 12) (obj lo hi dest : Nat) : Option State :=
  let o := s.obj asid.toNat obj
  match takeAny (hi - lo) (s.die dest).free with
  | none => none
  | some (runs, free) =>
    let s := s.setDie dest { s.die dest with free := free }
    let s := runs.foldl (fun s r => zeroRange s (physKey dest (4096 * r.1)) (physKey dest (4096 * (r.1 + r.2)))) s
    let n : Obj := { o with state := .valid, kind := .die, home := dest, evac := false, extbase := extList asid.toNat obj,
                            copies := tdel o.copies dest,
                            exts := zeroExtent 0 lo ++ runExtents lo runs ++ zeroExtent hi (objPages o - hi) }
    let s := (List.range (hi - lo)).foldl (fun s i => movePage s o n (lo + i)) s
    let s := if o.kind = .far then giveFar (forgetSource s asid.toNat obj) (tenantOf asid) o.extbase.toNat else releaseObj s o
    some ((releaseExts s dest (tget o.copies dest [])).setObj asid.toNat obj n)

/-! ### What keeps an object where it is (R95, R220) -/

/-- A spill region lies in the object (R33). -/
def holdsSpill (s : State) (o : Obj) : Bool :=
  s.queues.any fun q => q.1 / 65536 / 16 == o.home && q.2.state != .free &&
    o.exts.any fun x => x.p && meets (4096 * x.pfn) (4096 * extPages x) q.2.spillBase.toNat (q.2.spillN * q.2.esizeB)

/-- A frame pool lies in the object (R135). -/
def holdsPool (s : State) (asid : BitVec 12) (obj : Nat) : Bool :=
  s.pools.any fun p => p.2.asid == asid && addrObj p.2.base == obj

/-- A sampling ring lies in the object (R196). -/
def holdsRing (s : State) (asid : BitVec 12) (obj : Nat) : Bool :=
  let i := s.iface (tenantOf asid)
  i.smpEnable && (List.range 8).any fun d => addrObj (ringAddr i d) == obj && (tget i.smpDies d {}).asid == some asid

/-- A bound memory window names the object (R90, R94). -/
def holdsWindow (s : State) (asid : BitVec 12) (obj : Nat) : Bool :=
  let i := s.iface (tenantOf asid)
  (List.range 16).any fun w =>
    let c := (tget i.wincfg w 0).toNat
    c.testBit 63 && bitsOf c 61 56 == asid.toNat % 64 && bitsOf c 55 36 == obj

def objBusy (s : State) (asid : BitVec 12) (obj : Nat) : Bool :=
  holdsSpill s (s.obj asid.toNat obj) || holdsPool s asid obj || holdsRing s asid obj || holdsWindow s asid obj

/-! ### Claims (R220, R221) -/

/-- The outstanding operation of a claim, while its group lives. -/
def claimOp (s : State) (c : ClaimReq) : Option (Outst × SReg × W64) :=
  (s.slot c.slot).outst.findSome? fun o => match o.op with
    | .claim d a _ => if o.id = c.op then some (o, d, a) else none
    | _ => none

/-- The claim ends with a result for its caller. -/
def endClaim (s : State) (h : Nat) (c : ClaimReq) (r : Outst → SReg → W64 → Result) : State :=
  let x := s.die h
  let s := s.setDie h { x with claims := x.claims.filter fun y => y.op != c.op }
  match claimOp s c with
  | none => s
  | some (o, d, a) => s.setSlot c.slot (setOutst (s.slot c.slot) { o with res := some (r o d a) })

/-- A status of R220. -/
def claimStatus (s : State) (h : Nat) (c : ClaimReq) (st : Nat) : State :=
  endClaim s h c fun _ d _ => { sw := [(d, BitVec.ofNat 64 st)] }

/-- An access fault that has come about while the claim waited (R218, R220). -/
def claimTrap (s : State) (h : Nat) (c : ClaimReq) (code : W8) : State :=
  endClaim s h c fun o _ a => faultResult (memTrap o.fpc code c.lanes a)

/-- Step 1: the object is Moving and its translations are shot down. -/
def startClaim (s : State) (h : Nat) (c : ClaimReq) : State :=
  let o := s.obj c.asid.toNat c.obj
  let x := s.die h
  shootDown ((s.setObj c.asid.toNat c.obj { o with state := .moving }).setDie h
    { x with claims := x.claims.map fun y => if y.op = c.op then { c with step := .moving } else y }) c.asid c.obj

/-- Every core of a die publishes at die scope. -/
def publishDie (s : State) (d : Nat) : State := (dieCores d).foldl (fun s k => publishSlots s k (99 :: List.range 16)) s

/-- Steps 3 to 6, once no earlier access is left; without room nothing has moved. -/
def finishClaim (s : State) (h : Nat) (c : ClaimReq) : State :=
  let o := s.obj c.asid.toNat c.obj
  let s := if o.kind = .die then publishDie s h else s
  match if dieOnline s c.dest then rehome s c.asid c.obj (c.lo / 4096) (c.hi / 4096) c.dest else none with
  | some s => claimStatus s h c 0
  | none => claimStatus (s.setObj c.asid.toNat c.obj { o with state := .valid }) h c 1

/-- A claim cannot go on now: accesses from before its step 1 are left, another claim moves its object (R221), or its home is
being evacuated. -/
def claimStuck (s : State) (h : Nat) (c : ClaimReq) : Bool :=
  let o := s.obj c.asid.toNat c.obj
  match c.step with
  | .moving => accessing s c.asid c.obj
  | .wait => (claimOp s c).isSome && (o.state == .moving || (o.state == .valid && o.kind == .die && o.home == h && !dieOnline s h))

/-- A claim goes on as far as it can now. -/
def serveClaim (s : State) (h : Nat) (c : ClaimReq) : State :=
  let o := s.obj c.asid.toNat c.obj
  match c.step with
  | .moving => finishClaim s h c
  | .wait =>
    if (claimOp s c).isNone then endClaim s h c fun _ _ _ => {}
    else match claimFault o c.obj c.lo with
      | some f => claimTrap s h c f
      | none =>
        if o.kind = .die ∧ o.home ≠ h ∧ o.home ≠ c.dest then
          let x := s.die h
          let s := s.setDie h { x with claims := x.claims.filter fun y => y.op != c.op }
          s.setDie o.home { s.die o.home with claims := (s.die o.home).claims ++ [c] }
        else if o.kind = .die ∧ o.home = c.dest then claimStatus s h c 0
        else if objBusy s c.asid c.obj then claimStatus s h c 2
        else if freePages (s.die c.dest) < c.hi / 4096 - c.lo / 4096 then claimStatus s h c 1
        else startClaim s h c

/-- The claims of a die that come first for their objects, in arrival order. -/
def firstClaims (s : State) (h : Nat) : List ClaimReq :=
  let cs := (s.die h).claims
  cs.filter fun c => (cs.find? fun y => y.asid == c.asid && y.obj == c.obj) == some c

/-- CLAIM_SERVE (R220, R221): the first claim that can go on does so. -/
def execClaimServe (s : State) : Out :=
  let h := s.arg.die.toNat
  match (firstClaims s h).find? fun c => !claimStuck s h c with
  | none => .next s
  | some c => .next (serveClaim s h c)

/-! ### A die goes offline (R12, R56, R147, R150, R227) -/

/-- The launches with a block on a die, bound or saved. -/
def launchesOn (s : State) (d : Nat) : List NodeRef :=
  let here : List NodeRef := (s.die d).bound.filterMap fun (b : Bound) =>
    if b.ended.isNone then some ⟨b.asid, b.graph, b.node⟩ else none
  (here ++ (s.die d).saved.map fun (v : Saved) => (⟨v.bind.asid, v.graph, v.node⟩ : NodeRef)).eraseDups

/-- A launch loses blocks with a home: it will complete with HOMELOST, and its fault domain hears of it (R120, R290). -/
def homeLost (s : State) (d : Nat) (r : NodeRef) : State :=
  match s.launchNode r with
  | none => s
  | some (g, n) =>
    notify (s.putNode r { n with lost := some (n.lost.getD 7) }) g.asid n { cause := 0x24, fpol := 0, die := d, time := (s.die d).clock }

/-- A block whose event finds no room in a ring that nobody reads any more ends all the same. -/
def dropDead (s : State) (lead : Nat) : State :=
  if (s.block lead).dead then endBlock (emptySlots s lead) lead (blockCharge s lead) false else s

/-- Every block on a die is killed and charged (R227). -/
def killDie (s : State) (d : Nat) : State :=
  let leads := (((s.slots.map (·.1)).filter fun k => slotDie k == d && (s.slot k).bind.sstate != .empty).map fun k =>
    leadOf k (s.slot k)).eraseDups
  let s := leads.foldl (fun s l => dropDead (killBlock s l) l) s
  let s := (s.die d).saved.foldl (fun s v => dropSaved s d v) s
  (s.die d).bound.foldl (fun s b => match b.ended with
    | some c => chargeBlock s d b c
    | none => s) s

/-- The region queues of a die are gone: numbers it was handed are free again, and a launch left with no die it may use ends
(R117, R161). -/
def dropRegionQueues (s : State) (d : Nat) : State :=
  let qs := (s.die d).rqs
  let s := s.setDie d { s.die d with rqs := [] }
  qs.foldl (fun s q =>
    let r := queueNode q
    match s.launchNode r with
    | none => s
    | some (_, n) =>
      let n : Node := match q.granted with
        | some b => { n with again := n.again ++ [b] }
        | none => n
      let n : Node := if n.diemask &&& s.mgmt.online = 0 ∧ (unclaimed n ∨ n.live = 0) then { n with stop := true, lost := some (n.lost.getD 7) } else n
      settleLaunch (s.putNode r n) r) s

/-- The parts of a split expert that remain on another die (R147). -/
def losePart (s : State) (d die idx : Nat) : State :=
  let e := s.ert die idx
  if !(e.valid && e.parted && e.pdies.getLsbD d) then s
  else match e.state with
    | .fetching => cutFetch s die idx 3
    | .split =>
      (freeFrame s die e).setErt die idx { e with state := .absent, ferr := true, parted := false, pdies := 0, part := 0, npm1 := 0,
                                                  cq := 0, cqn := 0 }
    | _ => s

def loseParts (s : State) (d : Nat) : State :=
  ((List.range 8).filter (· != d)).foldl (fun s die => ((ertsOf s die).map (·.1)).foldl (fun s i => losePart s d die i) s) s

/-- The expert table, the pools and the marvers of a die are gone (R150). -/
def loseExperts (s : State) (d : Nat) : State :=
  { s with erts := s.erts.filter fun e => e.1 / 65536 != d
           pools := s.pools.filter fun p => p.1 / 1024 != d
           ports := s.ports.map fun p => if p.1 / 16 = d then (p.1, { p.2 with marver := [] }) else p }

/-- Objects homed on a die. -/
def homedOn (s : State) (d : Nat) : Tbl Obj :=
  s.objs.filter fun o => o.2.kind == .die && o.2.home == d && (o.2.state == .valid || o.2.state == .moving)

/-- Objects caught while they moved stay; those of a failed home are Lost (R227). -/
def settleObjects (s : State) (d : Nat) (lost : Bool) : State :=
  { s with objs := s.objs.map fun o =>
      if o.2.kind = .die ∧ o.2.home = d ∧ (o.2.state = .valid ∨ o.2.state = .moving) then
        (o.1, { o.2 with state := if lost then .lost else .valid, exts := if lost then [] else o.2.exts })
      else o }

/-- The claims of a die wait to be served elsewhere; an object on its way to the die stays where it is. -/
def passClaims (s : State) (d : Nat) : State :=
  let cs := (s.die d).claims
  let s := s.setDie d { s.die d with claims := [] }
  cs.foldl (fun s c =>
    if c.dest = d then
      let o := s.obj c.asid.toNat c.obj
      if c.step = .moving ∧ o.state = .moving then s.setObj c.asid.toNat c.obj { o with state := .valid } else s
    else
    let x := s.die c.dest
    s.setDie c.dest { x with claims := x.claims ++ [{ c with step := .wait }] }) s

/-- The halt bits of a die are clear in every interface (R294). -/
def clearHaltBits (s : State) (d : Nat) : State :=
  { s with ifaces := s.ifaces.map fun i =>
      (i.1, { i.2 with halt := i.2.halt &&& ~~~(1#8 <<< d), halted := i.2.halted &&& ~~~(1#8 <<< d) }) }

/-- The copies of code objects on a die are gone with it (R314). -/
def dropCopies (s : State) (d : Nat) : State :=
  { s with objs := s.objs.map fun o => (o.1, { o.2 with copies := tdel o.2.copies d }) }

/-- A compute die goes offline; `failed` says that a member of its home has failed (R12, R227). Where its memory can still be
read, the stores of its cores are published before anything moves (R221, R227). -/
def takeOffline (s : State) (d : Nat) (failed : Bool) : State :=
  if !dieOnline s d then s
  else
    let s := { s with mgmt := { s.mgmt with online := s.mgmt.online &&& ~~~(1#8 <<< d) }
                      wakeQ := s.wakeQ.filter fun w => w.2 % 8 != d }
    let s := (launchesOn s d).foldl (fun s r => homeLost s d r) s
    let s := dropRegionQueues (killDie s d) d
    let s := loseParts (loseQueues s d) d
    let s := if failed then s else publishDie s d
    let s := dropCopies (clearHaltBits (passClaims (settleObjects (loseExperts s d) d failed) d) d) d
    let x := s.die d
    let s := s.setDie d { x with copies := [], dispatches := [], faults := [], fetches := [], saved := [], bound := [], commands := [], notes := [],
                                 halted := none, drhead := 0, drtail := 0, drseen := 0 }
    sweep ((dieCores d).foldl (fun s k => s.setCore k {}) s)

/-- HOME_FAILURE (R12, R227): a socket of a cache die or an HBM stack fails. -/
def execHomeFailure (s : State) : Out :=
  let k := s.arg.idx
  match socketDie k with
  | none => .next s
  | some d =>
    if k < 8 ∨ s.mgmt.failed.contains k then .next s
    else
      let s := { s with mgmt := { s.mgmt with failed := s.mgmt.failed ++ [k] } }
      .next (if dieOnline s d then takeOffline s d true else settleObjects s d true)

/-- The next object that an offline die has to evacuate: ascending ASID, then ascending object ID (R227). -/
def nextEvacuee (s : State) (d : Nat) : Option Nat :=
  match (homedOn s d).map (·.1) with
  | [] => none
  | k :: r => some (r.foldl min k)

/-- The online die with the most free memory; ties go to the lower die (R227). -/
def roomiest (s : State) : Option Nat :=
  match (List.range 8).filter (dieOnline s) with
  | [] => none
  | d :: r => some (r.foldl (fun b e => if freePages (s.die b) < freePages (s.die e) then e else b) d)

/-- An object moves to the far tier, within its tenant's quota (R227). -/
def toFarTier (s : State) (asid : BitVec 12) (obj : Nat) : Option State :=
  let o := s.obj asid.toNat obj
  if 64 ≤ o.key then none
  else match takeFar s o.key (farExtents o.bound) with
    | none => none
    | some (a, s) =>
      let s := (List.range (objPages o)).foldl (fun s i => match objByteAddr o (4096 * i) with
        | some src => movePoison { s with far := memCopy s.far (a + 4096 * i) s.mem src 4096 } src (farKey (a + 4096 * i))
        | none => { s with far := memClear s.far (a + 4096 * i) (a + 4096 * i + 4096) }) s
      some ((releaseObj s o).setObj asid.toNat obj { o with kind := .far, evac := true, extbase := BitVec.ofNat 64 a, exts := [] })

/-- One object of an offline die moves, or is Lost (R227, R228). -/
def evacuate (s : State) (key : Nat) : State :=
  let asid := BitVec.ofNat 12 (key / 2 ^ 20)
  let obj := key % 2 ^ 20
  let o := s.obj asid.toNat obj
  let s := shootDown s asid obj
  match (roomiest s).bind fun d => rehome s asid obj 0 (objPages o) d with
  | some s => s
  | none => match toFarTier s asid obj with
    | some s => s
    | none => (releaseObj s o).setObj asid.toNat obj { o with state := .lost, exts := [] }

/-- OBJECT_EVACUATE (R227). -/
def execObjectEvacuate (s : State) : Out :=
  let d := s.arg.die.toNat
  if dieOnline s d then .next s
  else match nextEvacuee s d with
    | none => .next s
    | some k => .next (evacuate s k)

/-- DIEOFF (R106, R227): it completes once the evacuation has ended. -/
def execDieoff (s : State) : Out :=
  let m := s.mgmt
  let d := m.mbarg.toNat % 8
  if m.mbcmd ≠ 7 ∨ m.mbstat ≠ .busy then .next s
  else match m.dieoff with
    | none =>
      if 8 ≤ m.mbarg.toNat ∨ !dieOnline s d then .next { s with mgmt := { m with mbstat := .notMet } }
      else .next (takeOffline { s with mgmt := { m with dieoff := some d } } d false)
    | some d =>
      if (nextEvacuee s d).isSome then .next s
      else .next { s with mgmt := { m with mbstat := .done, dieoff := none } }

end Sys2Proof.Machine
end

