-- ==== Sys2Proof/Machine/Faults.lean ====
section
/-! DEFINITION. The resolution of replayable faults (R217, R218, R410, R456), clusters that fuse (R204), errors (R129, R224 to
R226, R229), the shootdown of queue translations (R30), and tier quotas (R131). -/
namespace Sys2Proof.Machine

/-! ### Fault records (R217, R218) -/

/-- The object of a record is still Moving, or its run can be made present by nobody. -/
def unresolvable (s : State) (r : FaultRec) : Bool :=
  let o := s.obj r.asid.toNat r.obj
  o.state == .moving || (o.state == .valid && match extentAt o r.off with
    | some x => !x.p && !x.z
    | none => false)

/-- The lanes of a parked instruction that wait for the run of an offset. -/
def runLanes (o : Obj) (m : MemOp) (off : Nat) : List LaneOp :=
  m.lanes.filter fun x => (extentAt o x.off).map (·.offpg) == (extentAt o off).map (·.offpg)

def isTcopy : Option Instr → Bool
  | some (.tcopy _) => true
  | _ => false

/-- NOMEM: the group traps at the replay point (R214, R218). A record read by `tcopy` faults as a deferred trap (R409); a `bset`
and a `qscatter` fault precisely. -/
def noMemory (s : State) (k : Nat) (p : Park) (r : FaultRec) : State :=
  let g := s.slot k
  let a := objAddr r.obj r.off
  match p.op with
  | some m =>
    let ls := runLanes (s.obj r.asid.toNat r.obj) m r.off
    let (id, s) := s.fresh
    let t := memTrap g.pc 0x32 (maskOf fun l => ls.any fun x => x.lane == l) (objAddr r.obj ((ls.map (·.off)).headD r.off))
    settleFault (s.setSlot k (joinFault { g with fpark := none, pc := nextPc g.pc, marked := p.sw } id t)) k
  | none =>
    let s := s.setSlot k { g with fpark := none }
    if isTcopy (instrAt s (slotDie k) g.bind g.pc) then
      let (id, s) := s.fresh
      settleFault (s.setSlot k (joinFault (s.slot k) id { memTrap g.pc 0x32 0xFFFFFFFF a with rpc := g.pc })) k
    else takeTrap s k (memPrecise g 0x32 a)

/-- A parked group goes on: its unfinished lanes are replayed, or the instruction issues again whole (R218). -/
def replayGroup (s : State) (k : Nat) (p : Park) : State :=
  match p.op with
  | some m => settle (replayOp s k p m) k
  | none => s.setSlot k { s.slot k with fpark := none, replay := some 0xFFFFFFFF }

/-- What the record's page comes to for a group; `ok` says that the run is present or the object's checks will decide. -/
def resolveGroup (s : State) (k : Nat) (r : FaultRec) (ok : Bool) : State :=
  let g := s.slot k
  match g.fpark with
  | none => addLate s (slotDie k) 0
  | some p =>
    if p.id ≠ r.id then addLate s (slotDie k) 0
    else if g.stopped then s
    else if ok then replayGroup s k p else noMemory s k p r

/-- A stopped copy goes on from its cursor, or fails (R410). -/
def resolveCopy (s : State) (d id : Nat) (ok : Bool) : State :=
  match (s.die d).copies.find? fun c => c.id == id with
  | none => addLate s d 0
  | some c =>
    if c.stop ≠ .fault then s
    else s.setCopy d (if ok then { c with stop := .none } else { c with stop := .none, stat := 2, code := 0x32 })

/-- A waiting dispatch goes on from its cursor, or fails (R456). -/
def resolveDispatch (s : State) (d id : Nat) (ok : Bool) : State :=
  match s.disp d id with
  | none => addLate s d 0
  | some x => if ok then dispRun (s.setDisp d { x with parked := false }) d id else dispFail s d x none

/-- FAULT_RESOLVE (R217, R218): the firmware resolves the oldest record. Where the object has been claimed elsewhere it makes
nothing present, and the replay meets NOTHOMED (R221). -/
def execFaultResolve (s : State) : Out :=
  let d := s.arg.die.toNat
  match (s.die d).faults with
  | [] => .next s
  | r :: rest =>
    if unresolvable s r then .next s
    else
      let s := s.setDie d { s.die d with faults := rest }
      let (ok, s) := match if (s.obj r.asid.toNat r.obj).home = d then makePresent s r.asid r.obj r.off else some s with
        | some s => (true, s)
        | none => (false, s)
      .next (match r.slot, r.copy, r.disp with
        | some k, _, _ => resolveGroup s k r ok
        | none, some c, _ => resolveCopy s d c ok
        | none, none, some x => resolveDispatch s d x ok
        | none, none, none => s)

/-! ### Clusters (R118, R204) -/

/-- CLUSTER_FUSE (R118, R204): an idle cluster's L1s publish, drop every line, and are fused or unfused. -/
def execClusterFuse (s : State) : Out :=
  let d := s.arg.die.toNat
  let cs := clusterCores d s.arg.idx
  if s.arg.idx < 40 ∧ cs.all fun c => (s.core c).awake && coreIdle s c then
    .next (cs.foldl (fun s c =>
      let s := refreshCore (publishSlots s c (99 :: List.range 16)) c
      s.setCore c { s.core c with fused := s.arg.flag }) s)
  else .next s

/-! ### Errors (R224 to R226, R229) -/

def countCecc (s : State) (d n : Nat) : State := s.setDie d { s.die d with cecc := sat16 (s.die d).cecc n }
def countUecc (s : State) (d : Nat) : State := s.setDie d { s.die d with uecc := sat16 (s.die d).uecc 1 }

/-- SCRUB (R224): the corrections of a pass over the die's HBM are counted, and change no result. -/
def execScrub (s : State) : Out := .next (countCecc s s.arg.die.toNat s.arg.v.toNat)

/-- A poisoned spill slot: one of the spilled elements becomes Void; which of them the word holds is open (R41, R225). -/
def poisonSpill (s : State) (d a : Nat) : State :=
  (queuesOf s d).foldl (fun s r =>
    let q := s.qref r
    if q.state ≠ .free ∧ q.spillBase.toNat ≤ a ∧ a < q.spillBase.toNat + q.spillN * q.esizeB ∧ q.win < q.len then
      let (w, s) := s.freeWord
      let seq := q.head + BitVec.ofNat 48 (q.win + w.toNat % (q.len - q.win))
      match q.slot seq with
      | .filled _ => s.setQref r (q.put seq .void)
      | _ => s
    else s) s

/-- A physical address lies in the frame that a fetch writes. -/
def inFrame (s : State) (die : Nat) (f : Fetch) (a : Nat) : Bool :=
  let e := s.ert die f.idx
  match s.pool die e with
  | none => false
  | some p =>
    let o := s.obj p.asid.toNat (addrObj p.base)
    let off := addrOff p.base + e.frame.toNat * p.fsize * 4096
    (List.range p.fsize).any fun i => match objByteAddr o (off + 4096 * i) with
      | some x => decide (x ≤ a ∧ a < x + 4096)
      | none => false

/-- A word of a die's memory is poisoned (R225). -/
def poisonWord (s : State) (d a : Nat) : State :=
  let k := physKey d a
  let s := { s with poison := if s.poison.contains (k / 64) then s.poison else k / 64 :: s.poison }
  let s := poisonSpill (countUecc s d) d a
  ((s.die d).fetches.filter fun f => f.step == .copying && inFrame s d f k).foldl (fun s f => endFetch s d f 1) s

/-- A block lost to an uncorrectable error: an IDEMP launch binds it again, at most three times; otherwise its fault domain
is notified and its policy applied (R124, R226, R290). -/
def loseBlock (s : State) (lead : Nat) : State :=
  let d := slotDie lead
  let x := s.die d
  match x.bound.find? fun b => b.core == slotCoreNo lead && b.lead == lead % 16 && b.ended.isNone with
  | none => killBlock s lead
  | some b =>
    let r : NodeRef := ⟨b.asid, b.graph, b.node⟩
    match s.launchNode r with
    | none => killBlock s lead
    | some (g, n) =>
      let times := ((n.relaunched.find? fun p => p.1 == b.block).map (·.2)).getD 0
      if n.idemp ∧ times < 3 ∧ !n.stop then
        let s := s.setDie d { x with bound := x.bound.map (fun y => if y = b then { y with again := true } else y)
                                     relaunch := sat16 x.relaunch 1 }
        killBlock (s.putNode r { n with relaunched := (b.block, times + 1) :: n.relaunched.filter fun p => p.1 != b.block }) lead
      else
        let s := notify s g.asid n { cause := 0x23, fpol := n.fpol.toNat, die := d, core := b.core, block := b.block, time := (s.die d).clock }
        applyPolicy s r none lead

/-- Unpublished bytes that a block holds in a line of its core's L1. -/
def heldLine (s : State) (lead line : Nat) : Bool :=
  (s.core (lead / 16)).dirty.any fun e => e.1 / 128 == line && (blockSlots s lead).contains (lead / 16 * 16 + e.2.2)

/-- UNCORRECTABLE_ERROR (R225, R226). A held line takes the block's own unpublished stores with it; those of other blocks stay. -/
def execUncorrectableError (s : State) : Out :=
  let d := s.arg.die.toNat
  let k := argSlot s
  let lead := leadOf k (s.slot k)
  let st := (s.slot k).bind.sstate
  match s.arg.place with
  | .memory => .next (if s.arg.addr < 2 ^ 37 then poisonWord s d s.arg.addr else s)
  | .cleanLine => .next (countCecc s d 1)
  | .scratchpad | .registers =>
    .next (if st = .empty ∨ st = .ready then countUecc s d else sweep (loseBlock (countUecc s d) lead))
  | .dirtyLine =>
    let line := physKey d s.arg.addr / 128
    if st = .empty ∨ st = .ready ∨ !heldLine s lead line then .next s
    else
      let c := s.core (lead / 16)
      let ks := blockSlots s lead
      let lost (e : Nat × W8 × Nat) : Bool := e.1 / 128 == line && ks.contains (lead / 16 * 16 + e.2.2)
      let s := s.setCore (lead / 16) { c with dirty := c.dirty.filter fun e => !lost e }
      .next (sweep (loseBlock (countUecc s d) lead))

/-! ### The far tier (R129) -/

/-- The port that a copy reads from, if its source is a far-tier object. -/
def copyPort (s : State) (c : Copy) : Option Nat :=
  let base := recNat c.record 0x08 8
  let o := s.obj c.asid.toNat (base / 2 ^ 44)
  if recSscr c.record || o.kind != .far then none else some (farPort o.extbase.toNat)

/-- The port that a fetch reads from. -/
def fetchPort (s : State) (die : Nat) (f : Fetch) : Nat := farPort (s.ert die f.idx).srcBase.toNat

/-- A copy that reads is turned into a tier error. -/
def copyError (s : State) (d : Nat) (c : Copy) : State :=
  if c.started && c.stop == .none && c.stat == 0 && decide (c.done < recCount c.record * recB c.record) then
    s.setCopy d { c with stat := 4 }
  else s

/-- FAR_TIER_TIMEOUT (R129): the copy or the fetch with a number has a read that the device has not completed. -/
def execFarTierTimeout (s : State) : Out :=
  let d := s.arg.die.toNat
  match (s.die d).copies.find? fun c => c.id == s.arg.idx with
  | some c => .next (if (copyPort s c).isSome then copyError s d c else s)
  | none => match s.fetch d s.arg.idx with
    | some f => .next (if f.step = .copying then endFetch s d f 1 else s)
    | none => .next s

/-- FAR_TIER_LINK_DOWN (R129): every outstanding read on the port is a tier error. -/
def execFarTierLinkDown (s : State) : Out :=
  let p := s.arg.port.toNat
  if 6 ≤ p then .next s
  else
    let s := { s with farUp := s.farUp.set p false }
    .next ((List.range 8).foldl (fun s d =>
      let s := ((s.die d).copies.filter fun c => copyPort s c == some p).foldl (fun s c => copyError s d c) s
      ((s.die d).fetches.filter fun f => f.step == .copying && fetchPort s d f == p).foldl (fun s f => endFetch s d f 1) s) s)

/-- FAR_TIER_LINK_UP (R129). -/
def execFarTierLinkUp (s : State) : Out :=
  let p := s.arg.port.toNat
  let s := if p < 2 then programCxl s p else s
  .next (if p < 6 then { s with farUp := s.farUp.set p true } else s)

/-! ### Tier quotas (R130, R131) -/

/-- The conditions of R131 hold of the quotas and the ERT ranges of all tenants. -/
def quotasOk (s : State) : Bool :=
  let is := (List.range 64).map s.iface
  decide ((is.foldl (fun n i => n + i.qc.toNat) 0) ≤ s.dvsec.capc.toNat) && decide ((is.foldl (fun n i => n + i.qn.toNat) 0) ≤ s.dvsec.capn.toNat) &&
    is.all (fun i => decide (i.ebase.toNat + i.ecnt.toNat ≤ 65536)) &&
    (List.range 64).all fun a => (List.range a).all fun b =>
      !meets (s.iface a).ebase.toNat (s.iface a).ecnt.toNat (s.iface b).ebase.toNat (s.iface b).ecnt.toNat

/-- TIER_QUOTA_WRITE (R21, R130, R131). -/
def execTierQuotaWrite (s : State) : Out :=
  let t := s.dvsec.tsel.toNat
  let i := s.iface t
  let v := s.arg.v
  let refused : Out := .next { s with dvsec := { s.dvsec with refused := true } }
  let set (i' : Iface) : Out :=
    let s' := s.setIface t i'
    if i.tdisp = .unlocked ∧ quotasOk s' then .next s' else refused
  if s.lehr ≠ .done then .next s
  else match s.arg.off with
    | 0x1C => set { i with qc := v.setWidth 32 }
    | 0x20 => set { i with qn := v.setWidth 32 }
    | 0x24 => set { i with ebase := v.extractLsb' 16 16, ecnt := v.setWidth 16 }
    | _ => .next s

/-! ### Queue translation (R30) -/

/-- A message whose operation was translated through an entry has yet to leave a die (R69, R75). -/
def atSource (s : State) (d : Nat) (asid : BitVec 12) (idx : Nat) : Bool :=
  (s.flows.any fun e => e.1.spkg == s.pkgid && e.1.sdie.toNat == d && e.2.held.any fun m => m.via == some (asid, idx)) ||
    s.limiters.any fun e => e.1 / 512 == d && e.2.waiting.any fun m => m.via == some (asid, idx)

/-- An operation of a die that was translated through an entry has not left its source: a group's or a dispatch's, a push of an aperture
or of a completion (R30, R91, R120). -/
def unissued (s : State) (d : Nat) (asid : BitVec 12) (idx : Nat) : Bool :=
  let named (h : W32) : Bool := (h.extractLsb' 0 16).toNat == idx
  (s.slots.any fun e => slotDie e.1 == d && e.2.bind.asid == asid && e.2.outst.any fun o => match o.op with
    | .queue q => o.res.isNone && named q.handle && (match q.st with
      | .held => true
      | .parked _ => true
      | .sent _ => false
      | .asleep _ _ _ => false)
    | _ => false) ||
    (s.die d).dispatches.any (fun x => x.asid == asid && x.finished.isNone && x.handles.any named) || atSource s d asid idx

def State.setQtte (s : State) (asid idx : Nat) (q : Qtte) : State := { s with qtt := tset s.qtt (asid * 65536 + idx) q }

/-- QTT_SHOOTDOWN (R30): the shootdown of a retired entry completes on a die. -/
def execQttShootdown (s : State) : Out :=
  let d := s.arg.die.toNat
  let a := s.arg.asid.toNat
  let q := s.qtte a s.arg.idx
  if !q.left.getLsbD d || unissued s d s.arg.asid s.arg.idx then .next s
  else .next (s.setQtte a s.arg.idx { q with left := q.left &&& ~~~(1#8 <<< d) })

end Sys2Proof.Machine
end

