-- ==== Sys2Proof/Machine/Tenants.lean ====
section
/-! DEFINITION. Tenant interfaces (R89 to R95, R99, R100, R102): their states, bindings, apertures and windows, and the commands
that create and free address spaces, objects and queues. -/
namespace Sys2Proof.Machine

/-! ### Finding a free place -/

/-- The least number from `i` on that a test does not refuse. -/
def leastFree (used : Nat → Bool) (i : Nat) : Nat → Option Nat
  | 0 => none
  | f + 1 => if used i then leastFree used (i + 1) f else some i

/-! ### Queues (R27, R33, R34, R54, R95, R330) -/

/-- A QTT entry of any ASID names a queue, or named it until a shootdown that is not complete (R30, R55). -/
def qttNames (s : State) (p : W32) : Bool := s.qtt.any fun e => e.2.pqid == p && (e.2.valid || e.2.left != 0)

/-- The lowest queue number of a port that programs may use and that is free (R29, R55). -/
def freeNumber (s : State) (d port : Nat) : Option Nat :=
  leastFree (fun n => let r : QRef := ⟨d, port, n⟩
    decide ((s.qref r).state ≠ .free) || qttNames s (pqidOf s r)) 32 (Config.queuesPerPort - 32)

/-- Where a window fits in a port's pool (R33). -/
def freeWindow (s : State) (d port : Nat) (q : Queue) : Option Nat :=
  firstFit ((s.queues.filter fun e => e.1 / 65536 == portKey d port && e.2.state != .free).map fun e => (e.2.winOff, winUnits e.2))
    (winUnits q) Config.poolUnits

/-- What creating a queue comes to: made, a bad descriptor, or no room. -/
inductive NewQueue
  | made (r : QRef) (s : State)
  | bad
  | full

/-- A queue at a given port, with the punty command of R54. -/
def makeQueueAt (s : State) (d port : Nat) (q : Queue) : NewQueue :=
  match freeNumber s d port, freeWindow s d port q with
  | some n, some w =>
    let r : QRef := ⟨d, port, n⟩
    match if q.spillN = 0 then some (0, s) else allocRun s d 1 (spillPages q) with
    | none => .full
    | some (p, s) =>
      let s := s.setQref r { q with winOff := w, spillBase := BitVec.ofNat 64 (4096 * p), state := .free }
      let s := createQueue s r
      match (s.port r.pkey).result with
      | .done => .made r s
      | .poolExhausted => .full
      | _ => .bad
  | _, _ => .full

/-- A queue at the first of some ports that has room. -/
def makeQueue (s : State) (d : Nat) (q : Queue) : List Nat → NewQueue
  | [] => .full
  | p :: r => match makeQueueAt s d p q with
    | .full => makeQueue s d q r
    | x => x

/-- A QTT entry for a queue: its handle (R28, R95). -/
def install (s : State) (asid : Nat) (p : W32) (rights : W6) : Option (W32 × State) :=
  match leastFree (fun i => let e := s.qtte asid i
    e.valid || e.pqid != 0) 0 65536 with
  | none => none
  | some i =>
    let e := s.qtte asid i
    some (e.gen ++ BitVec.ofNat 16 i, s.setQtte asid i { e with valid := true, rights := rights, pqid := p, left := 0 })

/-- The handle by which an ASID names a queue. -/
def handleOf (s : State) (asid : Nat) (p : W32) : Option W32 :=
  s.qtt.findSome? fun e =>
    if e.1 / 65536 = asid ∧ e.2.valid ∧ e.2.pqid = p then some (e.2.gen ++ BitVec.ofNat 16 (e.1 % 65536)) else none

/-- A queue entry (R330): the queue, the rights of its handle, its die and its ports; none when a reserved field is set. -/
def parseEntry (bs : List W8) : Option (Queue × W6 × Nat × List Nat) :=
  let w (i : Nat) : Nat := leNat ((bs.drop (8 * i)).take 8)
  let f (i hi lo : Nat) : Nat := bitsOf (w i) hi lo
  let any := (w 0).testBit 43
  if f 0 42 0 ≠ 0 ∨ f 1 18 0 ≠ 0 ∨ f 2 63 24 ≠ 0 ∨ w 5 ≠ 0 ∨ (any ∧ f 0 47 44 ≠ 0) then none
  else
    some ({ esize := BitVec.ofNat 3 (f 0 63 61), kind := BitVec.ofNat 3 (f 0 60 58), wakeAll := (w 0).testBit 57,
            winM1 := f 1 63 52, spillN := f 1 51 27, keysM1 := BitVec.ofNat 8 (f 1 26 19), fanin := f 2 23 0,
            coinKey := BitVec.ofNat 64 (w 3), ctrBase := BitVec.ofNat 64 (w 4) },
          BitVec.ofNat 6 (f 0 56 51), f 0 50 48, if any then List.range 16 else [f 0 47 44])

/-- FORCE by the firmware, which then takes back the spill region (R55); a command that the port has yet to perform stays. -/
def forceFree (s : State) (r : QRef) : State :=
  let q := s.qref r
  let was := (s.port r.pkey).result
  let s := forceQueue s r
  let s := if was = .busy then s.qpDone r .busy else s
  let s := if q.spillN = 0 then s else freeRun s r.die (q.spillBase.toNat / 4096) (spillPages q)
  s.setQref r { s.qref r with spillN := 0, spillBase := 0 }

/-- Force every queue of the package that a test picks. -/
def forceAll (s : State) (pick : Queue → Bool) : State :=
  ((List.range 8).flatMap (queuesOf s)).foldl (fun s r =>
    let q := s.qref r
    if (q.state = .active ∨ q.state = .closing) ∧ pick q then forceFree s r else s) s

/-- The QTT entries that name a queue are retired: VALID is cleared and GEN advances (R30, log 125: DESIGN CHOICE). -/
def retireQtt (s : State) (p : W32) : State :=
  { s with qtt := s.qtt.map fun e =>
      if e.2.valid ∧ e.2.pqid = p then (e.1, { e.2 with valid := false, gen := e.2.gen + 1, left := s.mgmt.online }) else e }

/-! ### Objects (R95, R205 to R208) -/

/-- The lowest unused object ID of an ASID. -/
def freeObj (s : State) (asid : Nat) : Option Nat := leastFree (fun o => decide ((s.obj asid o).state ≠ .invalid)) 1 (2 ^ 20 - 1)

/-- Granules in 4 KiB pages (R208). -/
def granPages (g : Nat) : Nat := if g = 0 then 1 else if g = 1 then 16 else if g = 2 then 512 else 524288

/-- The largest granule, up to a given one, that is no larger than the object. -/
def granFor (pages : Nat) : Nat → Nat
  | 0 => 1
  | g + 1 => if granPages (g + 1) ≤ pages then granPages (g + 1) else granFor pages g

/-- The extents of a new die-memory object: one run, zero-fill or present and zeroed (log 16: DESIGN CHOICE). -/
def newExtents (s : State) (die gran bound : Nat) (zfill : Bool) : Option (List Extent × State) :=
  let pages := (bound + 4095) / 4096
  let g := granFor pages gran
  let n := (pages + g - 1) / g
  if zfill then some (runOf 0 g n false true 0, s)
  else (allocRun s die g (n * g)).map fun x => (runOf 0 g n true false x.1, x.2)

/-- Room on a die for its own copy of a code object (R314). -/
def newCopy (s : State) (d pages : Nat) : Option (List Extent × State) :=
  match takeAny pages (s.die d).free with
  | none => none
  | some (runs, free) =>
    let s := s.setDie d { s.die d with free := free }
    some (runExtents 0 runs, runs.foldl (fun s r => zeroRange s (physKey d (4096 * r.1)) (physKey d (4096 * (r.1 + r.2)))) s)

/-- Copies on some dies, or none where one of them has no room (R314). -/
def newCopies (s : State) (pages : Nat) : List Nat → Option (Tbl (List Extent) × State)
  | [] => some ([], s)
  | d :: r => match newCopy s d pages with
    | none => none
    | some (xs, s) => (newCopies s pages r).map fun y => ((d, xs) :: y.1, y.2)

/-- A new die-memory object: its ID. A code object takes room for a copy on every other online die (R314). -/
def newDieObj (s : State) (asid die gran bound : Nat) (x a w r zfill : Bool) : Option (Nat × State) :=
  match freeObj s asid, if dieOnline s die then newExtents s die gran bound zfill else none with
  | some i, some (es, s) =>
    (newCopies s ((bound + 4095) / 4096) (if x then (List.range 8).filter fun d => d != die && dieOnline s d else [])).map fun y =>
      (i, y.2.setObj asid i { state := .valid, kind := .die, x := x, a := a, w := w, r := r, key := keyOf s asid, home := die,
                              bound := bound, extbase := extList asid i, exts := es, copies := y.1 })
  | _, _ => none

/-- The copies of a code object take the bytes of its home (R314). -/
def syncCopies (s : State) (asid obj : Nat) : State :=
  let o := s.obj asid obj
  o.copies.foldl (fun s y => (List.range (objPages o)).foldl (fun s i =>
    match extentIn y.2 (4096 * i), objByteAddr o (4096 * i) with
    | some x, some src => { s with mem := memCopy s.mem (physKey y.1 (extentAddr x (4096 * i))) s.mem src 4096 }
    | _, _ => s) s) s

/-- An object is gone, with its pages zeroed or its tier extents free. -/
def freeObject (s : State) (asid obj : Nat) : State :=
  let o := s.obj asid obj
  let s := if o.kind = .far then forgetSource s asid obj else s
  let s := zeroExts s o.home o.exts
  let s := o.copies.foldl (fun s y => releaseExts (zeroExts s y.1 y.2) y.1 y.2) s
  let s := if o.kind = .far then
      { giveFar s (asid / 64) o.extbase.toNat with
        far := memClear s.far o.extbase.toNat (o.extbase.toNat + farExtents o.bound * 2 ^ 31)
        poison := s.poison.filter fun w => 64 * w < farKey o.extbase.toNat || farKey (o.extbase.toNat + farExtents o.bound * 2 ^ 31) ≤ 64 * w }
    else releaseObj s o
  (shootDown s (BitVec.ofNat 12 asid) obj).setObj asid obj {}

/-! ### Commands (R95) -/

/-- The interface is in RUN, and steps 1 to 3 of R93 have not been performed on it. -/
def running (i : Iface) : Bool := i.tdisp == .run && !i.erred

/-- A device ASID that a tenant's interface may name: it exists, and is not the device tenant's (R103). -/
def tenantAsid (s : State) (a : Nat) : Bool := (s.asid a).inUse && !s.mgmt.reservedAsids.contains a

/-- The busy command of an interface ends. -/
def endCmd (s : State) (t : Nat) (r : IfResult) : State :=
  s.setIface t { s.iface t with result := r }

/-- A busy interface performs its command (R95); one that has left RUN ends it with wrong state (log 23: DEDUCED). -/
def onIfcmd (s : State) (op : W8) (act : State → Nat → Iface → State) : Out :=
  let t := s.arg.tenant.toNat
  let i := s.iface t
  if i.result ≠ .busy ∨ i.op ≠ op then .next s
  else if !running i then .next (endCmd s t .wrongState)
  else .next (act s t { i with arg0 := i.carg0, arg1 := i.carg1, arg2 := i.carg2 })

/-- The device ASID that bits [5:0] of IFARG0 name. -/
def argAsid (t : Nat) (i : Iface) : Nat := 64 * t + i.arg0.toNat % 64

/-- The launch queue of an ASID on a die (R110), and its expert control queue (R148). -/
def launchQueue (s : State) (asid : Nat) : Queue :=
  { esize := 0, winM1 := 63, spillN := 4096, tenant := s.ownerOf (BitVec.ofNat 12 asid), asid := BitVec.ofNat 12 asid }

def controlQueue (s : State) (asid : Nat) : Queue :=
  { esize := 2, winM1 := 15, spillN := 1024, tenant := s.ownerOf (BitVec.ofNat 12 asid), asid := BitVec.ofNat 12 asid }

/-- A firmware queue of an ASID on a die, with its QTT entry that carries ENQ alone. -/
def firmwareQueue (s : State) (asid d : Nat) (q : Queue) : Option (W32 × State) :=
  match makeQueue s d q (List.range 16) with
  | .made r s => (install s asid (pqidOf s r) 1).map fun x => (pqidOf s r, x.2)
  | _ => none

/-- The queues of a new ASID on the online dies (R95, R110, R148). -/
def asidQueues (s : State) (asid : Nat) : List Nat → Option State
  | [] => some s
  | d :: ds =>
    match firmwareQueue s asid d (launchQueue s asid) with
    | none => none
    | some (l, s) => match firmwareQueue s asid d (controlQueue s asid) with
      | none => none
      | some (c, s) =>
        let a := s.asid asid
        asidQueues (s.setAsid asid { a with launchQ := tset a.launchQ d l, ctrlQ := tset a.ctrlQ d c }) asid ds

/-- ASIDNEW (R95, R103, R110, R148). -/
def execAsidnew (s : State) : Out :=
  onIfcmd s 1 fun s t i =>
    let a := argAsid t i
    if 64 ≤ i.arg0.toNat then endCmd s t .badArg
    else if s.mgmt.reservedAsids.contains a then endCmd s t .noSpace
    else if (s.asid a).inUse then endCmd s t .wrongState
    else match asidQueues (s.setAsid a { inUse := true }) a ((List.range 8).filter (dieOnline s)) with
      | none => endCmd s t .noSpace
      | some s => endCmd s t .done

/-- A bound window or aperture names a local ASID (R94, R95). -/
def bindsAsid (i : Iface) (la : Nat) : Bool :=
  let names (w : W64) : Bool := w.getLsbD 63 && bitsOf w.toNat 61 56 == la
  (List.range 16).any fun k => names (tget i.apcfg k 0) || names (tget i.wincfg k 0)

/-- ERT entries and pools that a test picks are gone, with the fetches and the holds of the entries; no landing record is
written (R95, R150). -/
def dropExperts (s : State) (pick : Nat → BitVec 12 → Bool) : State :=
  let gone (e : Ert) : Bool := e.valid && pick e.tenant.toNat e.asid
  let s := (List.range 8).foldl (fun s d =>
    ((s.die d).fetches.filter fun f => gone (s.ert d f.idx)).foldl (fun s f =>
      let x := s.die d
      let s := if f.step = .copying then freeFrame s d (s.ert d f.idx) else s
      dropFetchSleeper (s.setDie d { x with fetches := x.fetches.filter fun y => y.id != f.id }) d f.id) s) s
  let dropped (d : Nat) (h : W16) : Bool := gone (s.ert d h.toNat)
  { s with
    blocks := s.blocks.map fun b => (b.1, { b.2 with holds := b.2.holds.filter fun h => !dropped (slotDie b.1) h })
    erts := s.erts.filter fun e => !gone e.2
    pools := s.pools.filter fun p => !pick (p.1 / 16 % 64) p.2.asid }

/-- Every object of an ASID is freed. -/
def freeObjects (s : State) (asid : Nat) : State :=
  ((s.objs.filter fun o => o.1 / 2 ^ 20 == asid && o.2.state != .invalid).map fun o => o.1 % 2 ^ 20).foldl (fun s o => freeObject s asid o) s

/-- The ASID is gone: its queues are forced, its objects, entries and tables freed. -/
def freeAsid (s : State) (a : Nat) : State :=
  let mine := ((List.range 8).flatMap (queuesOf s)).filter fun r => (s.qref r).asid.toNat == a && (s.qref r).state != .free
  let s := mine.foldl (fun s r => retireQtt s (pqidOf s r)) s
  let s := forceAll s fun q => q.asid.toNat == a
  let s := freeObjects (dropExperts s fun _ x => x.toNat == a) a
  let s := s.setAsid a {}
  { s with qtt := s.qtt.filter fun e => e.1 / 65536 != a, objs := s.objs.filter fun o => o.1 / 2 ^ 20 != a }

/-- ASIDFREE (R95): wrong state while a graph of the ASID runs or a binding names it. -/
def execAsidfree (s : State) : Out :=
  onIfcmd s 2 fun s t i =>
    let a := argAsid t i
    if 64 ≤ i.arg0.toNat then endCmd s t .badArg
    else if !tenantAsid s a || (s.graphs.any fun g => g.asid.toNat == a) || bindsAsid i (a % 64) then endCmd s t .wrongState
    else endCmd (freeAsid s a) t .done

/-- OBJNEW (R95). -/
def execObjnew (s : State) : Out :=
  onIfcmd s 3 fun s t i =>
    let n := i.arg0.toNat
    let a := argAsid t i
    let kind := bitsOf n 7 6
    let bound := i.arg1.toNat
    let made (s : State) (obj : Nat) : State := s.setIface t { s.iface t with arg0 := BitVec.ofNat 64 (obj * 2 ^ 44), result := .done }
    if bitsOf n 63 18 ≠ 0 ∨ kind = 3 ∨ n.testBit 14 ∨ bound = 0 ∨ 2 ^ 44 ≤ bound ∨ (kind ≠ 1 ∧ i.arg2 ≠ 0) then endCmd s t .badArg
    else if !tenantAsid s a then endCmd s t .wrongState
    else
      let o : Obj := { state := .valid, a := n.testBit 13, w := n.testBit 12, r := n.testBit 11, key := t, bound := bound }
      match kind with
      | 0 =>
        (match newDieObj s a (bitsOf n 10 8) (bitsOf n 17 16) bound false o.a o.w o.r (n.testBit 15) with
         | some (j, s) => made s j
         | none => endCmd s t .noSpace)
      | 1 =>
        (match freeObj s a with
         | some j => made (s.setObj a j { o with kind := .host, extbase := i.arg2 }) j
         | none => endCmd s t .noSpace)
      | _ =>
        let e := farExtents bound
        if !quotaRoom i false e && !quotaRoom i true e then endCmd s t .overQuota
        else match freeObj s a, takeFar s t e with
          | some j, some (x, s) => made (s.setObj a j { o with kind := .far, extbase := BitVec.ofNat 64 x }) j
          | _, _ => endCmd s t .noSpace

/-- OBJFREE (R95, R213): it waits for a claim of the object, and for accesses under its translations. An object that does not exist is a
bad argument (log 131: DESIGN CHOICE). -/
def execObjfree (s : State) : Out :=
  onIfcmd s 4 fun s t i =>
    let a := argAsid t i
    let obj := addrObj i.arg1
    let o := s.obj a obj
    if 64 ≤ i.arg0.toNat ∨ obj = 0 then endCmd s t .badArg
    else if !tenantAsid s a then endCmd s t .wrongState
    else if o.state = .invalid then endCmd s t .badArg
    else if objBusy s (BitVec.ofNat 12 a) obj then endCmd s t .wrongState
    else if o.state = .moving || accessing s (BitVec.ofNat 12 a) obj then s
    else endCmd (freeObject s a obj) t .done

/-- QNEW (R95, R330). An address of no valid die-memory object is a bad argument, and an offline home has no space (log 131: DESIGN CHOICE). -/
def execQnew (s : State) : Out :=
  onIfcmd s 5 fun s t i =>
    let a := argAsid t i
    let o := s.obj a (addrObj i.arg1)
    let off := addrOff i.arg1
    if 64 ≤ i.arg0.toNat then endCmd s t .badArg
    else if !tenantAsid s a then endCmd s t .wrongState
    else if addrObj i.arg1 = 0 ∨ o.state ≠ .valid ∨ o.kind ≠ .die ∨ o.bound < off + 48 then endCmd s t .badArg
    else match parseEntry (readObj s o off 48) with
      | none => endCmd s t .badArg
      | some (q, rights, d, ports) =>
        let q : Queue := { q with tenant := BitVec.ofNat 6 t, asid := BitVec.ofNat 12 a }
        if !dieOnline s d then endCmd s t .noSpace
        else match makeQueue s d q ports with
          | .bad => endCmd s t .badArg
          | .full => endCmd s t .noSpace
          | .made r s' => match install s' a (pqidOf s' r) rights with
            | none => endCmd s t .noSpace
            | some (h, s') => s'.setIface t { s'.iface t with arg0 := h.setWidth 64, result := .done }

/-- The firmware forgets a queue that it consumes. -/
def forgetQueue (s : State) (p : W32) : State :=
  { s with asids := s.asids.map fun a => (a.1, { a.2 with launchQ := a.2.launchQ.filter fun e => e.2 != p
                                                          ctrlQ := a.2.ctrlQ.filter fun e => e.2 != p }) }

/-- The queue whose retirement has begun is forced once every shootdown is complete; its entries are free (R30, R95). -/
def finishQfree (s : State) (t : Nat) (p : W32) : State :=
  if s.qtt.any fun e => e.2.pqid == p && e.2.left != 0 then s
  else
    let s := if pqPkg p = s.pkgid then forgetQueue (forceFree s (qrefOf p)) p else s
    endCmd { s with qtt := s.qtt.map fun e => if e.2.pqid = p ∧ !e.2.valid then (e.1, { e.2 with pqid := 0 }) else e } t .done

/-- QFREE (R95): the entries are retired first, then the queue is forced. A handle that does not translate is a bad argument (log 131: DESIGN CHOICE). -/
def execQfree (s : State) : Out :=
  onIfcmd s 6 fun s t i =>
    let a := argAsid t i
    let h : W32 := i.arg1.setWidth 32
    let e := s.qtte a (h.setWidth 16).toNat
    if 64 ≤ i.arg0.toNat ∨ 2 ^ 32 ≤ i.arg1.toNat then endCmd s t .badArg
    else if !tenantAsid s a then endCmd s t .wrongState
    else if e.valid && e.gen == h.extractLsb' 16 16 then retireQtt s e.pqid
    else if !e.valid && e.pqid != 0 && e.gen == h.extractLsb' 16 16 + 1 then finishQfree s t e.pqid
    else endCmd s t .badArg

/-- HANDLES (R95, R110, R148). A die without the queues asked for answers wrong state (log 131: DESIGN CHOICE). -/
def execHandles (s : State) : Out :=
  onIfcmd s 7 fun s t i =>
    let n := i.arg0.toNat
    let a := argAsid t i
    let d := bitsOf n 10 8
    if bitsOf n 63 11 ≠ 0 ∨ bitsOf n 7 6 ≠ 0 then endCmd s t .badArg
    else if !tenantAsid s a then endCmd s t .wrongState
    else match (tfind (s.asid a).launchQ d).bind (handleOf s a), (tfind (s.asid a).ctrlQ d).bind (handleOf s a) with
      | some l, some c => s.setIface t { s.iface t with arg0 := l.setWidth 64, arg1 := c.setWidth 64, result := .done }
      | _, _ => endCmd s t .wrongState

/-! ### Halts end with RUN (R171, R294) -/

/-- What the slots of a die have put off while it was halted: pending wakes, deferred traps and ends of groups, and what waits
for room in the ring (R48, R171). -/
def settleDie (s : State) (d : Nat) : State :=
  let s := ((s.slots.map (·.1)).filter fun k => slotDie k == d).foldl settle (pendingWakes s d)
  postWaiting s d

/-- A halted die goes on: pending wakes, and commands that came meanwhile, take effect (R48, R171, R294). -/
def resumeDie (s : State) (d : Nat) : State :=
  let x := s.die d
  match x.halted with
  | none => s
  | some t =>
    let i := s.iface t.toNat
    let s := s.setIface t.toNat { i with halt := i.halt &&& ~~~(1#8 <<< d), halted := i.halted &&& ~~~(1#8 <<< d) }
    let s := settleDie (s.setDie d { x with halted := none, commands := [] }) d
    x.commands.foldl (fun s c => if c.1 then resumeGroup s c.2 else drainBlock s c.2) s

def clearHalts (s : State) (t : Nat) : State :=
  (List.range 8).foldl (fun s d => if (s.die d).halted.any fun u => u.toNat == t then resumeDie s d else s) s

/-! ### ERROR and STOP_INTERFACE (R93) -/

/-- Step 1 for a launch: its fault domain hears of an interface error, and it is killed. -/
def killLaunch (s : State) (r : NodeRef) : State :=
  match s.launchNode r with
  | none => s
  | some (g, n) =>
    if n.kind ≠ .launch ∨ n.state = .complete then s
    else
      let s := if n.state = .ready ∧ !n.stop then notify s g.asid n { cause := 0x22, fpol := 2, die := g.die, time := (s.die g.die).clock } else s
      stopLaunch s r 4

/-- Step 1: the tenant's launches and blocks are killed and its queues forced. -/
def killTenant (s : State) (t : Nat) : State :=
  let rs := (s.graphs.filter fun g => s.clientOwns t g.asid).flatMap fun g => (List.range g.nodes.length).map (nodeRef g)
  let s := rs.foldl killLaunch s
  let leads := ((s.slots.map (·.1)).filter fun k => (s.slot k).bind.sstate != .empty && (s.slot k).bind.tenant.toNat == t &&
    !s.reserved (s.slot k).bind.asid).map fun k =>
    leadOf k (s.slot k)
  sweep (forceAll (leads.eraseDups.foldl killBlock s) fun q => q.tenant.toNat == t && !s.reserved q.asid)

/-- A copy has a side in host memory. -/
def usesHost (s : State) (c : Copy) : Bool :=
  let host (scr : Bool) (a : Nat) : Bool := !scr && (s.obj c.asid.toNat (a / 2 ^ 44)).kind == .host
  host (recSscr c.record) (recNat c.record 0x08 8) || host (recDscr c.record) (recNat c.record 0x10 8)

/-- Step 3: outstanding host copies of the tenant end with a host failure. -/
def failHostCopies (s : State) (t : Nat) : State :=
  let fail (c : Copy) : Copy :=
    if s.clientOwns t c.asid ∧ c.stat = 0 ∧ usesHost s c then { c with stat := 3, stop := .none, prq := false } else c
  { s with dies := s.dies.map fun d => (d.1, { d.2 with copies := d.2.copies.map fail }) }

/-- Steps 1 to 3 of R93; from here on BAR2 and BAR4 are refused, and a busy load is abandoned (R333). -/
def errorSteps (s : State) (t : Nat) : State :=
  let i := s.iface t
  if i.erred then s
  else
    let j : Iface := { i with erred := true, imgstat := if i.imgstat = 1 then 6 else i.imgstat }
    failHostCopies (killTenant (clearHalts (s.setIface t j) t) t) t

/-- The interface enters ERROR (R93). -/
def enterError (s : State) (t : Nat) : State :=
  errorSteps (s.setIface t { s.iface t with tdisp := .error }) t

/-- The responder answers: the firmware runs, and the host can reach the DOE mailbox (R21, R98, R108). -/
def spdmUp (s : State) : Bool := s.lehr == .done && !s.mgmt.romhold

def answerSpdm (s : State) (r : SpdmReply) : State := { s with spdm := { s.spdm with reply := some r } }

/-- LOCK_INTERFACE (R89, R99, R102, R105): only in Deployed; the key is generated and the image digest starts anew. -/
def execLockInterface (s : State) : Out :=
  let t := s.arg.tenant.toNat
  let i := s.iface t
  if !spdmUp s then .next s
  else if i.tdisp ≠ .unlocked ∨ i.wiping ∨ s.mgmt.lc ≠ .deployed then .next (answerSpdm s .invalid)
  else
    let (k, s) := s.fresh
    let s := s.setIface t { i with tdisp := .locked, erred := false, digest := 0 }
    .next (answerSpdm { s with mgmt := { s.mgmt with keys := tset s.mgmt.keys t k } } (.tdisp t))

/-- START_INTERFACE (R89). -/
def execStartInterface (s : State) : Out :=
  let t := s.arg.tenant.toNat
  let i := s.iface t
  if !spdmUp s then .next s
  else if i.tdisp ≠ .locked ∨ i.wiping then .next (answerSpdm s .invalid)
  else .next (answerSpdm (s.setIface t { i with tdisp := .run }) (.tdisp t))

/-- STOP_INTERFACE (R93, R150): steps 1 to 3, then the wipe begins: no entry, pool or fetch of the tenant is left. -/
def execStopInterface (s : State) : Out :=
  let t := s.arg.tenant.toNat
  if (s.iface t).wiping || !spdmUp s then .next s
  else
    let s := errorSteps s t
    .next (dropExperts (s.setIface t { s.iface t with wiping := true }) fun x _ => x == t)

/-- Nothing of the tenant is left on a core or waits in an event ring. -/
def tenantQuiet (s : State) (t : Nat) : Bool :=
  (s.slots.all fun k => k.2.bind.sstate == .empty || k.2.bind.tenant.toNat != t || s.reserved k.2.bind.asid) &&
    (List.range 8).all fun d => (s.die d).bound.all fun b => !s.clientOwns t b.asid

/-- TENANT_WIPE (R93, R102, R131): the tenant's memory is overwritten, its address spaces are gone and its key erased, and
STOP_INTERFACE completes. -/
def execTenantWipe (s : State) : Out :=
  let t := s.arg.tenant.toNat
  let i := s.iface t
  if !i.wiping || !tenantQuiet s t then .next s
  else
    let s := { s with graphs := s.graphs.filter fun g => !s.clientOwns t g.asid }
    let s := (List.range 64).foldl (fun s a => if s.mgmt.reservedAsids.contains (64 * t + a) then s else freeAsid s (64 * t + a)) s
    let s := { s with mgmt := { s.mgmt with keys := tdel s.mgmt.keys t } }
    .next (answerSpdm (s.setIface t { s.iface t with tdisp := .unlocked, wiping := false, erred := false, ide := none, far := [], wakeVec := [] }) (.tdisp t))

/-- GET_INTERFACE_REPORT (R89, R99). -/
def execGetInterfaceReport (s : State) : Out :=
  let t := s.arg.tenant.toNat
  let i := s.iface t
  .next (if !spdmUp s then s
    else answerSpdm s (if i.tdisp = .locked ∨ i.tdisp = .run then .interfaceReport t i.apcfg i.wincfg i.msix i.digest else .invalid))

/-! ### Bindings (R89, R92, R94) -/

/-- Reserved bits of APCFG and WINCFG read zero (R94). -/
def apMask : W64 := 0xBF000000FFFFFFFF
def winMask : W64 := 0xBFFFFFF000000000

/-- An MSI-X table word is written; a vector that becomes unmasked while pending is sent (R92, PCIe). -/
def writeMsix (s : State) (t k : Nat) (v : W64) : State :=
  let i := s.iface t
  let s := s.setIface t { i with msix := tset i.msix k (if k % 2 = 1 then v &&& 0x1FFFFFFFF else v &&& ~~~3#64) }
  let vec := k / 2
  if i.pba.getLsbD vec && !msixMasked (s.iface t) vec then
    sendMsix (s.setIface t { s.iface t with pba := i.pba &&& ~~~(1#64 <<< vec) }) t vec
  else s

/-- A write to a binding while the interface is unlocked. -/
def writeBinding (s : State) (t off : Nat) (v : W64) : State :=
  let i := s.iface t
  if 0x100 ≤ off ∧ off < 0x180 then s.setIface t { i with apcfg := tset i.apcfg ((off - 0x100) / 8) (v &&& apMask) }
  else if 0x200 ≤ off ∧ off < 0x280 then s.setIface t { i with wincfg := tset i.wincfg ((off - 0x200) / 8) (v &&& winMask) }
  else if 0x8000 ≤ off ∧ off < 0x8400 then writeMsix s t ((off - 0x8000) / 8) v
  else s

def isBinding (off : Nat) : Bool :=
  decide ((0x100 ≤ off ∧ off < 0x180) ∨ (0x200 ≤ off ∧ off < 0x280) ∨ (0x8000 ≤ off ∧ off < 0x8400))

/-- BINDING_WRITE (R89, R94): from CONFIG_LOCKED onward the write has no effect, and the interface enters ERROR. -/
def execBindingWrite (s : State) : Out :=
  let t := s.arg.tenant.toNat
  let i := s.iface t
  if !isBinding s.arg.off then .next s
  else match i.tdisp with
    | .unlocked => .next (writeBinding s t s.arg.off s.arg.v)
    | .locked | .run => .next (enterError s t)
    | .error => .next s

/-! ### Apertures (R91) -/

/-- URCNT, saturating (R94). -/
def countUr (s : State) (t : Nat) : State :=
  let i := s.iface t
  s.setIface t { i with urcnt := if i.urcnt = 0xFFFFFFFF then i.urcnt else i.urcnt + 1 }

/-- The element size by which an aperture's image is read: that of the queue; of a queue of another package the device cannot
tell, and the value is open (log 14: DESIGN CHOICE). -/
def apertureSize (s : State) (p : W32) : Nat × State :=
  if pqPkg p = s.pkgid then ((s.qref (qrefOf p)).esizeB, s)
  else
    let (w, s) := s.freeWord
    (16 * 2 ^ (w.toNat % 5), s)

/-- The push of an aperture's element leaves die 0 (R91, log 24: DEDUCED). -/
def pushAperture (s : State) (t k asid : Nat) (h : W32) : State :=
  match if s.mgmt.reservedAsids.contains asid then .error 0x10 else translate s asid h rEnq with
  | .error c => apertureAnswer s t k c
  | .ok p =>
    if unreachable s 0 p then apertureAnswer s t k 0x19
    else
      let (n, s) := apertureSize s p
      let img := (tget (s.iface t).apertures k {}).image
      sendMsg s (flowTo s 0 p)
        { typ := .push, port := pqPort p, queue := pqQueue p, tenant := BitVec.ofNat 6 t, try_ := true,
          data := (List.range n).map fun i => tget img i 0, esz := some (eszOf n), ctx := .aperture t k,
          via := some (BitVec.ofNat 12 asid, (h.extractLsb' 0 16).toNat) }

/-- APERTURE_DOORBELL (R89, R91): `flag` is the request's T bit. -/
def execApertureDoorbell (s : State) : Out :=
  let t := s.arg.tenant.toNat
  let k := s.arg.idx
  let i := s.iface t
  let c := tget i.apcfg k 0
  let a := tget i.apertures k {}
  if !running i || !s.arg.flag || decide (16 ≤ k) then .next s
  else if !c.getLsbD 63 then .next (countUr s t)
  else if a.inFlight then .next s
  else
    let s := s.setIface t { i with apertures := tset i.apertures k { a with inFlight := true, status := 0xFF, result := none } }
    .next (pushAperture s t k (64 * t + bitsOf c.toNat 61 56) (c.setWidth 32))

/-- APERTURE_STATUS (R91). -/
def execApertureStatus (s : State) : Out :=
  let t := s.arg.tenant.toNat
  let i := s.iface t
  let a := tget i.apertures s.arg.idx {}
  match a.result with
  | none => .next s
  | some c => .next (s.setIface t { i with apertures := tset i.apertures s.arg.idx { a with inFlight := false, status := c, result := none } })

/-! ### Memory windows (R89, R90) -/

/-- A window access that the bindings admit: the ASID, the object and the offset. -/
def windowPlace (s : State) (t off n : Nat) (rt : Right) : Option (BitVec 12 × Nat × Nat) :=
  let c := (tget (s.iface t).wincfg (off / 2 ^ 32) 0).toNat
  let a := 64 * t + bitsOf c 61 56
  let obj := bitsOf c 55 36
  let o := s.obj a obj
  let off := off % 2 ^ 32
  if c.testBit 63 && obj != 0 && o.state == .valid && o.kind == .die && decide (off + n ≤ o.bound ∧ off + n ≤ 2 ^ 32) && o.holds rt &&
      !s.mgmt.reservedAsids.contains a then
    some (BitVec.ofNat 12 a, obj, off)
  else none

/-- The data of a completion, in words. -/
def completions (bs : List W8) : List (Option W64) :=
  (List.range ((bs.length + 7) / 8)).map fun i => some (BitVec.ofNat 64 (leNat ((bs.drop (8 * i)).take 8)))

/-- The data of a read of a window, in words; a word in which a byte is poisoned travels as poison and brings no data (R225, log 122: DEDUCED). -/
def windowData (s : State) (o : Obj) (off n : Nat) : List (Option W64) :=
  let bad (i : Nat) : Bool := (objByteAddr o (off + i)).any fun a => s.poison.contains (a / 64)
  (completions (readObj s o off n)).zipIdx.map fun p => if (List.range 8).any (fun j => decide (8 * p.2 + j < n) && bad (8 * p.2 + j)) then none else p.1

def hostReturns (s : State) (vs : List (Option W64)) : State := { s with out := { s.out with host := s.out.host ++ vs } }

/-- WINDOW_ACCESS (R89, R90): `flag` is the T bit, `idx` the number of bytes, and `v` is 1 for a write of the bytes of `words`;
an access performs at the object's home, at the memory points. -/
def execWindowAccess (s : State) : Out :=
  let t := s.arg.tenant.toNat
  let n := s.arg.idx
  let wr := s.arg.v == 1
  if !running (s.iface t) || !s.arg.flag then
    .next (if wr then s else hostReturns s (List.replicate ((n + 7) / 8) (some 0xFFFFFFFFFFFFFFFF)))
  else match windowPlace s t s.arg.off n (if wr then .w else .r) with
    | none => .next (if wr then countUr s t else hostReturns (countUr s t) [none])
    | some (a, obj, off) =>
      if wr then .next (writeObject s a obj off ((s.arg.words.flatMap fun w => leBytes 8 w.toNat).take n))
      else .next (hostReturns s (windowData s (s.obj a.toNat obj) off n))

end Sys2Proof.Machine
end

