-- ==== Sys2Proof/Machine/Trust.lean ====
section
/-! DEFINITION. Attestation (R96 to R100), the lifecycle and its commands (R104 to R107), and firmware images (R108).
Signatures, keys and digests are symbolic (log 6: DESIGN CHOICE). -/
namespace Sys2Proof.Machine

/-! ### Measurements (R99) -/

def digestBytes (d : BitVec 384) : List W8 := leBytes 48 d.toNat

/-- The number of LCSTATE STATE (R104). -/
def lcNumber : LcState → Nat
  | .blank => 0 | .provisioned => 1 | .deployed => 2 | .returned => 3

/-- FABCFG (R61). -/
def fabcfgWord (s : State) : W64 :=
  0#16 ++ s.fabric.unreach ++ s.fabric.rttw ++ s.fabric.rto ++ 0#6 ++ BitVec.ofBool s.fabric.enable ++ s.pkgid

/-- The firmware configuration, SVN and the owner's public keys, as measurement 3 has them. -/
def configBytes (m : Mgmt) : List W8 :=
  digestBytes m.running.digest ++ leBytes 2 m.svn.toNat ++ (m.reservedAsids.flatMap (leBytes 2)) ++
    digestBytes (m.owner.getD 0)

/-- The fuse summary: the fused fields of PKGINFO and LCSTATE (R13, R99, R104, log 102: DEDUCED). -/
def fuseBytes (m : Mgmt) : List W8 := leBytes 1 m.present.toNat ++ leBytes 1 m.step.toNat ++ leBytes 2 m.svn.toNat

/-- A measurement, where one has the index. -/
def measurement (s : State) (i : Nat) : Option (BitVec 384) :=
  if i = 1 then some Config.bootRomDigest
  else if i = 2 then some s.mgmt.running.digest
  else if i = 3 then some (Config.sha384 (configBytes s.mgmt))
  else if i = 4 then some (Config.sha384 (leBytes 1 (lcNumber s.mgmt.lc) ++ fuseBytes s.mgmt))
  else if i = 0xFD then some (Config.sha384 (leBytes 8 (fabcfgWord s).toNat ++ leBytes 1 s.mgmt.devten.toNat))
  else none

/-- The digest over every measurement, which signed answers carry. -/
def allMeasurements (s : State) : BitVec 384 :=
  Config.sha384 (([1, 2, 3, 4, 0xFD].filterMap (measurement s)).flatMap digestBytes)

/-! ### SPDM (R97, R98) -/

def onSpdm (s : State) (act : State → State) : Out := .next (if spdmUp s then act s else s)

/-- A request of the connection's state `k` or later; an earlier one is unexpected. -/
def onNegotiated (s : State) (k : Nat) (act : State → State) : Out :=
  onSpdm s fun s => if s.spdm.negotiated < k then answerSpdm s .unexpected else act s

/-- A slot holds a certificate chain: slot 0 alone, and none once the module is Returned (R98, R105). -/
def hasChain (s : State) (slot : Nat) : Bool := slot == 0 && s.mgmt.identity.isSome && s.mgmt.lc != .returned

/-- A pair of signatures is made; once the LMS key is used up the answer is Busy (R96, R97). -/
def signedAnswer (s : State) (r : SpdmReply) : State :=
  if 2 ^ 30 ≤ s.mgmt.lmsUsed then answerSpdm s .busy
  else answerSpdm { s with mgmt := { s.mgmt with lmsUsed := s.mgmt.lmsUsed + 1 } } r

/-- GET_VERSION (R98): the connection begins anew. -/
def execGetVersion (s : State) : Out :=
  onSpdm s fun s => { s with spdm := { negotiated := 1, sessions := [], reply := some .version } }

/-- GET_CAPABILITIES (R98). -/
def execGetCapabilities (s : State) : Out :=
  onNegotiated s 1 fun s => { s with spdm := { s.spdm with negotiated := max 2 s.spdm.negotiated, reply := some .capabilities } }

/-- NEGOTIATE_ALGORITHMS (R98): the request must offer SHA-384 (`v` bit 1), ECDSA P-384 (`w` bit 7) and AES-256-GCM (`idx` bit 1); the
bits are those of SPDM (log 133: PRESUMED). -/
def execNegotiateAlgorithms (s : State) : Out :=
  onNegotiated s 2 fun s =>
    if s.arg.v.getLsbD 1 && s.arg.w.getLsbD 7 && s.arg.idx.testBit 1 then
      { s with spdm := { s.spdm with negotiated := 3, reply := some .algorithms } }
    else answerSpdm s .invalid

/-- GET_DIGESTS (R98). -/
def execGetDigests (s : State) : Out :=
  onNegotiated s 3 fun s => answerSpdm s (.digests (if hasChain s 0 then 1 else 0))

/-- GET_CERTIFICATE (R98, R105). -/
def execGetCertificate (s : State) : Out :=
  onNegotiated s 3 fun s => answerSpdm s (if hasChain s s.arg.idx then .certificate s.arg.idx else .invalid)

/-- CHALLENGE (R96, R98). -/
def execChallenge (s : State) : Out :=
  onNegotiated s 3 fun s =>
    if hasChain s s.arg.idx then signedAnswer s (.challengeAuth s.arg.idx s.arg.v (allMeasurements s)) else answerSpdm s .invalid

/-- GET_MEASUREMENTS (R97, R99): `flag` asks for a signed answer. -/
def execGetMeasurements (s : State) : Out :=
  onNegotiated s 3 fun s =>
    match if s.arg.idx = 0xFF then some (allMeasurements s) else measurement s s.arg.idx with
    | none => answerSpdm s .invalid
    | some d =>
      if !s.arg.flag then answerSpdm s (.measurements s.arg.idx d false)
      else if s.mgmt.identity.isNone then answerSpdm s .invalid
      else signedAnswer s (.measurements s.arg.idx d true)

/-- KEY_EXCHANGE (R98): eight sessions at most. -/
def execKeyExchange (s : State) : Out :=
  onNegotiated s 3 fun s =>
    if 8 ≤ s.spdm.sessions.length then answerSpdm s .sessionLimit
    else if !hasChain s s.arg.idx then answerSpdm s .invalid
    else if 2 ^ 30 ≤ s.mgmt.lmsUsed then answerSpdm s .busy
    else
      let (k, s) := s.fresh
      signedAnswer { s with spdm := { s.spdm with sessions := s.spdm.sessions ++ [{ id := k }] } } (.keyExchange k)

def setSession (s : State) (x : Session) : State :=
  { s with spdm := { s.spdm with sessions := s.spdm.sessions.map fun y => if y.id = x.id then x else y } }

def endSession (s : State) (k : Nat) : State :=
  { s with spdm := { s.spdm with sessions := s.spdm.sessions.filter fun y => y.id != k } }

/-- A request that names a session; `open_` says that FINISH must have completed it. -/
def onSession (s : State) (open_ : Bool) (act : State → Session → State) : Out :=
  onSpdm s fun s => match s.spdm.sessions.find? fun x => x.id == s.arg.idx && x.open_ == open_ with
    | some x => act s x
    | none => answerSpdm s .unexpected

/-- FINISH (R98): `flag` says that the request verifies; one that does not ends the session. -/
def execFinish (s : State) : Out :=
  onSession s false fun s x =>
    if s.arg.flag then answerSpdm (setSession s { x with open_ := true }) (.finish x.id)
    else answerSpdm (endSession s x.id) .invalid

/-- KEY_UPDATE (R98). -/
def execKeyUpdate (s : State) : Out :=
  onSession s true fun s x => answerSpdm (setSession s { x with gen := x.gen + 1 }) (.keyUpdate x.id)

/-- END_SESSION (R98). -/
def execEndSession (s : State) : Out :=
  onSession s true fun s x => answerSpdm (endSession s x.id) (.endSession x.id)

/-- KEY_PROG (R100): the stream of a locked interface has a new key; a refresh switches its K-set. -/
def execKeyProg (s : State) : Out :=
  onSession s true fun s _ =>
    let t := s.arg.tenant.toNat
    let i := s.iface t
    if i.tdisp = .unlocked then answerSpdm s .invalid
    else
      let (k, s) := s.fresh
      answerSpdm (s.setIface t { i with ide := some (k, match i.ide with
        | some (_, b) => !b
        | none => false) }) (.keyProg t)

/-! ### Management commands (R105 to R108) -/

/-- The management block takes writes: the host link serves it, or the boot ROM holds the provisioning channel (R21, R108). -/
def mgmtUp (s : State) : Bool := s.lehr == .done || s.mgmt.romhold

/-- The command of MBCMD ends without its effect. -/
def endMb (s : State) (r : MbStat) : State := { s with mgmt := { s.mgmt with mbstat := r } }

/-- The command in MBCMD is performed. -/
def onMbcmd (s : State) (cmd : W4) (act : State → State) : Out :=
  .next (if s.mgmt.mbstat = .busy ∧ s.mgmt.mbcmd = cmd then act s else s)

/-- A page of the host's physical memory, which holds an argument or a token (R106, log 113: DESIGN CHOICE). -/
def hostBuffer (s : State) (a : W64) : List W8 := memBytes s.hostMem (8192 * 2 ^ 64 + a.toNat) 4096

/-- The signed part of a buffer, its first half, and its pair of signatures (log 113: DESIGN CHOICE). -/
def signedPart (b : List W8) : List W8 := b.take 2048
def signatures (b : List W8) : List W8 := b.drop 2048

/-- The name of an owner's keys; Peleili's is 0 (R105, R107). -/
def ownerKey (d : BitVec 384) : Nat := d.toNat + 1

/-- Interfaces not in CONFIG_UNLOCKED (R104). -/
def liveCount (s : State) : Nat := (s.ifaces.filter fun i => i.2.tdisp != .unlocked).length

/-- The keys against which an owner token verifies (R107). -/
def tokenKey (m : Mgmt) : Option Nat := if m.lc = .blank then some 0 else m.owner.map ownerKey

/-- An owner token for a command (R106): its two signatures, then the last nonce read, then what it states. One that states another
command or another identity has a bad signature for this one (log 112: DESIGN CHOICE). -/
def tokenCheck (s : State) (cmd : Nat) : Option MbStat :=
  let b := hostBuffer s s.mgmt.mbtoken
  match tokenKey s.mgmt with
  | none => some .badSignature
  | some k =>
    if !Config.pairVerifies k (signedPart b) (signatures b) then some .badSignature
    else if s.mgmt.mbnonce ≠ some (Config.tokenNonce b) then some .badNonce
    else if Config.tokenCommand b ≠ cmd ∨ Config.tokenIdentity b ≠ s.mgmt.identity then some .badSignature
    else none

/-- A lifecycle transition: the fuses change, and the module resets (R105). -/
def changeLc (s : State) (m : Mgmt) : State := resetMachine { s with mgmt := m }

/-- A command with an owner token moves the module between lifecycle states. -/
def moveLc (s : State) (cmd : Nat) (from_ : List LcState) (idle : Bool) (m : Mgmt → Mgmt) : State :=
  if !from_.contains s.mgmt.lc || (idle && liveCount s != 0) || s.mgmt.romhold then endMb s .notMet
  else match tokenCheck s cmd with
    | some r => endMb s r
    | none => changeLc s (m s.mgmt)

/-- The stores of a module with new identity keys and the owner keys of a bundle (R97, R107). -/
def provisioned (s : State) (b : List W8) : Mgmt :=
  { s.mgmt with identity := some s.ids, owner := some (Config.sha384 (signedPart b)), lmsUsed := 0 }

/-- PROVISION (R105, R107, R108): from Blank, or from the boot ROM, where it restores the image too. -/
def execProvision (s : State) : Out :=
  onMbcmd s 1 fun s =>
    let b := hostBuffer s s.mgmt.mbarg
    if s.mgmt.lc ≠ .blank ∧ !s.mgmt.romhold then endMb s .notMet
    else if !Config.pairVerifies 0 (signedPart b) (signatures b) then endMb s .badSignature
    else
      let m := provisioned s b
      let s := { s with ids := s.ids + 1 }
      if s.mgmt.romhold then
        if Config.imageVersion b < s.mgmt.svn then endMb s .versionLow
        else changeLc s { m with lc := if m.lc = .blank then .provisioned else m.lc,
                                 flash := ⟨Config.sha384 b, Config.imageVersion b, true⟩ }
      else changeLc s { m with lc := .provisioned }

/-- DEPLOY (R105). -/
def execDeploy (s : State) : Out :=
  onMbcmd s 2 fun s => moveLc s 2 [.provisioned] false fun m => { m with lc := .deployed }

/-- UNDEPLOY (R105). -/
def execUndeploy (s : State) : Out :=
  onMbcmd s 3 fun s => moveLc s 3 [.deployed] true fun m => { m with lc := .provisioned }

/-- RETURN (R105, R107): the identity keys and the owner keys are erased. -/
def execReturnModule (s : State) : Out :=
  onMbcmd s 4 fun s => moveLc s 4 [.blank, .provisioned, .deployed] true fun m => { m with lc := .returned, identity := none, owner := none }

/-- FWSTAGE (R96, R108): a verified image that is new enough is written to flash. -/
def execFwstage (s : State) : Out :=
  onMbcmd s 5 fun s =>
    let b := hostBuffer s s.mgmt.mbarg
    if s.mgmt.romhold then endMb s .notMet
    else if !Config.pairVerifies 0 (signedPart b) (signatures b) then endMb s .badSignature
    else if Config.imageVersion b < s.mgmt.svn then endMb s .versionLow
    else endMb { s with mgmt := { s.mgmt with flash := ⟨Config.sha384 b, Config.imageVersion b, true⟩ } } .done

/-- MB_RESET (R106). -/
def execMbReset (s : State) : Out := onMbcmd s 6 resetMachine

/-- MBNONCE_READ (R106): the nonce is fresh, and a token holds for it alone. -/
def execMbnonceRead (s : State) : Out :=
  let (v, s) := s.freeWord
  .next (hostAnswer { s with mgmt := { s.mgmt with mbnonce := some v } } (some v))

end Sys2Proof.Machine
end

