-- ==== Sys2Proof/Machine/Registers.lean ====
section
/-! DEFINITION. Writes to the registers that have no event of their own, the fault-domain ring's base (R288), and a
debugger's halts (R294). -/
namespace Sys2Proof.Machine

/-! ### The fault-domain ring and debug (R288, R294) -/

/-- FDRBASE_WRITE (R288): `flag` is the T bit. -/
def execFdrbaseWrite (s : State) : Out :=
  let t := s.arg.tenant.toNat
  let i := s.iface t
  let v := s.arg.v
  let base : W64 := v &&& ~~~0xFFF#64
  let l : W4 := v.setWidth 4
  if !running i || !s.arg.flag || (i.fdrBase != 0 && base != 0) then .next s
  else
    let j : Iface := { i with fdrBase := base, fdrLog2n := if l < 4 then 4 else l }
    .next (s.setIface t (if i.fdrBase = 0 ∧ base ≠ 0 then { j with fdrWr := 0, fdrRd := 0 } else j))

/-- The HALT bit of a die is written. -/
def writeHalt (s : State) (t : W6) (v : W8) (d : Nat) : State :=
  let held := (s.die d).halted == some t
  if v.getLsbD d then
    (if held then s else if haltPermitted s d t then haltDie s d t else refuseHalt s d t)
  else if held then resumeDie s d
  else s

/-- DBGCTL_HALT_WRITE (R294): `flag` is the T bit; the REFUSED bits written as one are cleared. -/
def execDbgctlHaltWrite (s : State) : Out :=
  let t := s.arg.tenant
  let i := s.iface t.toNat
  if !running i || !s.arg.flag then .next s
  else
    let s := s.setIface t.toNat { i with refused := i.refused &&& ~~~s.arg.v.extractLsb' 8 8 }
    .next ((List.range 8).foldl (fun s d => writeHalt s t (s.arg.v.setWidth 8) d) s)

/-! ### The management block (R83, R88, R104, R106) -/

/-- A W1C counter: a one in any bit clears the whole field (R58, R229, log 85: DEDUCED). -/
def w1c {n : Nat} (c : BitVec n) (v : BitVec n) : BitVec n := if v = 0 then c else 0

/-- The W1C fields of FLNK (R83). -/
def writeFlnk (s : State) (l : Nat) (v : W64) : State :=
  let x := s.link l
  s.setLink l { x with autherr := w1c x.autherr (v.extractLsb' 48 16), downs := w1c x.downs (v.extractLsb' 32 16),
                       malf := w1c x.malf (v.extractLsb' 16 16) }

/-- MBCMD (R106): a reserved command ends at once. -/
def writeMbcmd (s : State) (v : W64) : State :=
  let m := s.mgmt
  let c : W4 := v.setWidth 4
  if m.mbstat = .busy then s
  else { s with mgmt := { m with mbcmd := c, mbstat := if 1 ≤ c ∧ c ≤ 7 then .busy else .reserved } }

/-- What the device tenant has yet to send carries a new DEVTEN: its cells take the value that stands when they leave (R103). -/
def retenant (s : State) (t : W6) : State :=
  let msg (m : Msg) : Msg := if m.dev then { m with tenant := t } else m
  let op (q : QOp) : QOp := { q with tenant := t }
  let slot (g : Slot) : Slot :=
    if s.reserved g.bind.asid then
      { g with slept := g.slept.map op, outst := g.outst.map fun o => match o.op with
          | .queue q => { o with op := .queue (op q) }
          | _ => o }
    else g
  let flow (x : FlowState) : FlowState := { x with
    held := x.held.map msg
    unacked := x.unacked.map fun u => { u with msg := msg u.msg }
    answers := x.answers.map fun a => if a.dev then { a with tenant := t } else a
    flushes := x.flushes.map fun u => if u.dev then { u with tenant := t } else u }
  let die (x : Die) : Die := { x with
    dispatches := x.dispatches.map fun y => if s.reserved y.asid then { y with tenant := t } else y
    saved := x.saved.map fun v => if s.reserved v.bind.asid then { v with slept := v.slept.map fun p => (p.1, op p.2) } else v }
  { s with
    slots := s.slots.map fun p => (p.1, slot p.2)
    flows := s.flows.map fun p => (p.1, flow p.2)
    dies := s.dies.map fun p => (p.1, die p.2)
    limiters := s.limiters.map fun p => (p.1, { p.2 with waiting := p.2.waiting.map msg })
    ports := s.ports.map fun p => (p.1, { p.2 with marver := p.2.marver.map fun e => if e.dev then { e with tenant := t } else e })
    grants := s.grants.map fun e => if e.dev then { e with tenant := t } else e
    orphans := s.orphans.map fun e => if e.dev then { e with tenant := t } else e }

/-- DEVTEN, while the fabric is disabled (R103, R104). -/
def writeDevten (s : State) (t : W6) : State :=
  if s.fabric.enable then s else retenant { s with mgmt := { s.mgmt with devten := t } } t

/-- A register of PF0's BAR0. -/
def writePf0 (s : State) (off : Nat) (v : W64) : State :=
  let m := s.mgmt
  if !mgmtUp s then s
  else if off = 0x0008 then
    writeDevten s (v.extractLsb' 16 6)
  else if off = 0x0800 then writeMbcmd s v
  else if off = 0x0808 then { s with mgmt := { m with mbarg := v } }
  else if off = 0x0818 then { s with mgmt := { m with mbtoken := v } }
  else if 0x400 ≤ off ∧ off < 0x800 ∧ off % 16 = 0 then writeFlnk s ((off - 0x400) / 16) v
  else s

/-! ### The tenant's registers (R91, R94, R95, R195, R288, R294, R333) -/

/-- IFCMD (R95): the command starts, and reads its arguments; a reserved one ends at once. -/
def writeIfcmd (i : Iface) (v : W64) : Iface :=
  let op : W8 := v.extractLsb' 56 8
  if i.result = .busy ∨ op = 0 then i
  else { i with op := op, carg0 := i.arg0, carg1 := i.arg1, carg2 := i.arg2, result := if op ≤ 7 then .busy else .reserved }

/-- A register of BAR0 that obeys the rule of R89. -/
def writeIface (i : Iface) (off : Nat) (v : W64) : Iface :=
  match off with
  | 0x0400 => writeIfcmd i v
  | 0x0408 => { i with arg0 := v }
  | 0x0410 => { i with arg1 := v }
  | 0x0418 => { i with arg2 := v }
  | 0x0420 => { i with arg3 := v }
  | 0x2008 => if i.smpEnable then i else { i with smpNode := v &&& ~~~0x7F#64 }
  | 0x2010 => if i.smpEnable then i else { i with smpBuf := v &&& ~~~0x3F#64 }
  | 0x2018 => { i with smpErr := i.smpErr &&& ~~~v.extractLsb' 8 8 }
  | 0x2108 => { i with fdrRd := v.extractLsb' 32 32 }
  | 0x2110 => { i with fdrDrop := w1c i.fdrDrop (v.setWidth 32) }
  | 0x2208 => { i with brkHalt := v.getLsbD 0 }
  | 0x2308 => if i.imgstat = 1 then i else { i with imgarg := v &&& 0xF0000000FFFFFFF8 }
  | _ => i

def writeBar0 (s : State) (t off : Nat) (v : W64) (tbit : Bool) : State :=
  let i := s.iface t
  if off = 0x0300 then s.setIface t { i with urcnt := w1c i.urcnt (v.setWidth 32) }
  else if running i && tbit then s.setIface t (writeIface i off v)
  else s

/-- Bytes of an aperture's image (R89, R91): an aperture that is not bound counts the write. -/
def writeAperture (s : State) (t off n : Nat) (v : W64) (tbit : Bool) : State :=
  let i := s.iface t
  let k := off / 4096
  let a := tget i.apertures k {}
  if !running i || !tbit || decide (16 ≤ k) then s
  else if !(tget i.apcfg k 0).getLsbD 63 then countUr s t
  else
    let img := (List.range n).foldl (fun img j =>
      if off % 4096 + j < 256 then tset img (off % 4096 + j) (BitVec.ofNat 8 (v.toNat / 256 ^ j)) else img) a.image
    s.setIface t { i with apertures := tset i.apertures k { a with image := img } }

/-! ### The punty register space (R34, R54, R58, R152, R229) -/

/-- QPCMD (R54). -/
def writeQpcmd (s : State) (p : Nat) (v : W64) : State :=
  let x := s.port p
  let op : W4 := v.extractLsb' 56 4
  if x.result = .busy then s
  else s.setPort p { x with op := op, queue := v.setWidth 16,
                            result := if op = 0 then x.result else if op ≤ 4 then .busy else .descError }

def writeQpcnt (s : State) (p : Nat) (v : W64) : State :=
  let x := s.port p
  s.setPort p { x with slpovf := w1c x.slpovf (v.extractLsb' 48 16), stale := w1c x.stale (v.extractLsb' 32 16),
                       voids := w1c x.voids (v.extractLsb' 16 16), late := w1c x.late (v.setWidth 16) }

/-- A word of a queue descriptor, whose fields are written only while the queue is Free (R34). -/
def writeDesc (q : Queue) (w : Nat) (v : W64) : Queue :=
  let f (hi lo : Nat) : Nat := bitsOf v.toNat hi lo
  let mark (w n : Nat) : W8 := if n = 0 then q.rsv &&& ~~~(1#8 <<< w) else q.rsv ||| (1#8 <<< w)
  if q.state ≠ .free then q
  else match w with
    | 0 => { q with esize := BitVec.ofNat 3 (f 59 57), kind := BitVec.ofNat 3 (f 56 54), wakeAll := v.getLsbD 53, sys := v.getLsbD 52,
                    tenant := BitVec.ofNat 6 (f 51 46), asid := BitVec.ofNat 12 (f 45 34), spillN := f 24 0, rsv := mark 0 (f 33 25) }
    | 1 => { q with winM1 := f 63 52, winOff := f 44 32, rsv := mark 1 (f 51 45 + f 31 0) }
    | 2 => { q with spillBase := v, rsv := mark 2 (f 7 0) }
    | 3 => { q with rsv := mark 3 (f 63 48) }
    | 4 => { q with rsv := mark 4 (f 63 48) }
    | 5 => { q with keysM1 := BitVec.ofNat 8 (f 63 56), fanin := f 55 32, rsv := mark 5 (f 31 24) }
    | 6 => { q with coinKey := v }
    | 7 => { q with ctrBase := v }
    | _ => q

/-- DRPTR (R152, R159): SIZE is a power of two from 64 to 32,768. -/
def writeDrptr (s : State) (d : Nat) (v : W64) : State :=
  let n : W16 := v.extractLsb' 32 16
  let x := s.die d
  let x : Die := if [64, 128, 256, 512, 1024, 2048, 4096, 8192, 16384, 32768].contains n.toNat then { x with drsize := n } else x
  sweep (postWaiting (s.setDie d { x with drhead := v.extractLsb' 16 16 }) d)

def writeMemcnt (s : State) (d : Nat) (v : W64) : State :=
  let x := s.die d
  s.setDie d { x with prilate := w1c x.prilate (v.extractLsb' 48 16), cecc := w1c x.cecc (v.extractLsb' 32 16),
                      uecc := w1c x.uecc (v.extractLsb' 16 16), relaunch := w1c x.relaunch (v.setWidth 16) }

/-- A register of a die's punty core, which runs once the die is online (R20, R21). -/
def writePunty (s : State) (d off : Nat) (v : W64) : State :=
  if !s.mgmt.online.getLsbD d then s
  else if 0x2000 ≤ off ∧ off < 0x2400 then
    (if off % 0x40 = 0 then writeQpcmd s (portKey d ((off - 0x2000) / 0x40)) v
     else if off % 0x40 = 8 then writeQpcnt s (portKey d ((off - 0x2000) / 0x40)) v
     else s)
  else if off = 0x3000 then s.setDie d { s.die d with drbase := v &&& ~~~0xFF#64 }
  else if off = 0x3008 then writeDrptr s d v
  else if off = 0x5000 then writeMemcnt s d v
  else if 0x400000 ≤ off ∧ off < 0x800000 then
    let r : QRef := ⟨d, (off - 0x400000) / 0x40000, off % 0x40000 / 0x40⟩
    s.setQref r (writeDesc (s.qref r) (off % 0x40 / 8) v)
  else s

/-- A register of the capability of R130. -/
def writeDvsec (s : State) (off : Nat) (v : W64) : State :=
  if s.lehr ≠ .done then s
  else if off = 0x18 then { s with dvsec := { s.dvsec with tsel := v.setWidth 6 } }
  else if off = 0x28 ∧ v.getLsbD 0 then { s with dvsec := { s.dvsec with refused := false } }
  else s

/-- The cores that hold anything. -/
def coresUsed (s : State) : List Nat := (s.cores.map Prod.fst ++ s.slots.map fun e : Nat × Slot => e.1 / 16).eraseDups

/-- SMPCFG_WRITE (R195): `flag` is the T bit. While ENABLE is 1 only ENABLE changes; a change of it arms or disarms the
cores, which first take the samples of the expiries that have passed. -/
def execSmpcfgWrite (s : State) : Out :=
  let t := s.arg.tenant.toNat
  let v := s.arg.v
  let on := v.getLsbD 0
  if !running (s.iface t) || !s.arg.flag then .next s
  else
    let cks := coresUsed s
    let s := if (s.iface t).smpEnable && !on then cks.foldl takeDue s else s
    let i := s.iface t
    let p : W16 := v.extractLsb' 16 16
    let l : W4 := v.extractLsb' 12 4
    let j : Iface := if i.smpEnable then i else
      { i with smpPeriod := (if p < 16 then 16 else p), smpLog2n := if l < 4 then 4 else l }
    let j : Iface := { j with smpEnable := on, smpDies := if on && !i.smpEnable then [] else j.smpDies }
    let s := s.setIface t j
    .next (if on = i.smpEnable then s else cks.foldl rearm s)

end Sys2Proof.Machine
end

