-- ==== Sys2Proof/Machine/Images.lean ====
section
/-! DEFINITION. Graph images (R323 to R332) and their loading (R99, R333, R334). -/
namespace Sys2Proof.Machine

/-! ### The image (R323, R324) -/

/-- A little-endian field of an image. -/
def imgNat (img : List W8) (off n : Nat) : Nat := leNat ((img.drop off).take n)

/-- A section: its type, place, size and entries (R324). -/
structure Section where
  typ : Nat
  off : Nat
  size : Nat
  count : Nat
  deriving DecidableEq, Repr

def sectionAt (img : List W8) (i : Nat) : Section :=
  let e := 0x40 + 32 * i
  ⟨imgNat img e 4, imgNat img (e + 8) 8, imgNat img (e + 16) 8, imgNat img (e + 24) 8⟩

def sections (img : List W8) : List Section := (List.range (min 11 (imgNat img 0x10 4))).map (sectionAt img)

def sectionOf (img : List W8) (typ : Nat) : Option Section := (sections img).find? fun x => x.typ == typ

/-- The bytes of a section; none when the image has none. -/
def sectionBytes (img : List W8) (typ : Nat) : List W8 :=
  match sectionOf img typ with
  | none => []
  | some x => (img.drop x.off).take x.size

/-- The entries of a section, by an entry's size. -/
def entries (img : List W8) (typ n : Nat) : List (List W8) :=
  let b := sectionBytes img typ
  (List.range (b.length / n)).map fun i => (b.drop (n * i)).take n

def kernelsOf (img : List W8) : List (List W8) := entries img 1 32
def spEntries (img : List W8) : List (List W8) := entries img 3 64
def nodesOf (img : List W8) : List (List W8) := entries img 4 128
def edgesOf (img : List W8) : List (List W8) := entries img 5 16
def plansOf (img : List W8) : List (List W8) := entries img 7 32
def queuesIn (img : List W8) : List (List W8) := entries img 8 48
def patchesOf (img : List W8) : List (List W8) := entries img 9 32
def gdieOf (img : List W8) : Nat := imgNat img 0x18 8 % 8
def nextern (img : List W8) : Nat := imgNat img 0x20 4

/-- The 64-bit words of an entry, and a field of one. -/
def entWord (e : List W8) (i : Nat) : Nat := imgNat e (8 * i) 8
def entBits (e : List W8) (i hi lo : Nat) : Nat := bitsOf (entWord e i) hi lo

/-! ### The checks of step 3 (R321, R323 to R332) -/

def headerOk (img : List W8) : Bool :=
  let n := imgNat img 0x10 4
  imgNat img 0 4 == 0x31494746 && imgNat img 4 4 == 1 && decide (4 ≤ n ∧ n ≤ 11 ∧ 64 + 32 * n ≤ img.length) && imgNat img 0x14 4 == 1 &&
    imgNat img 0x18 8 / 8 == 0 && decide (nextern img ≤ 256) && imgNat img 0x24 28 == 0

/-- The bytes of an entry of each section of entries. -/
def entrySize : Nat → Option Nat
  | 1 => some 32 | 2 => some 64 | 3 => some 64 | 4 => some 128 | 5 => some 16 | 7 => some 32 | 8 => some 48 | 9 => some 32
  | _ => none

def sectionOk (img : List W8) (i : Nat) (x : Section) : Bool :=
  imgNat img (0x44 + 32 * i) 4 == 0 && x.off % 64 == 0 && decide (0x40 + 32 * imgNat img 0x10 4 ≤ x.off ∧ x.off + x.size ≤ img.length) &&
    ((1 ≤ x.typ && x.typ ≤ 10) || (x.typ == 15 && x.off + x.size == img.length)) &&
    (match entrySize x.typ with
     | some n => x.size == n * x.count
     | none => true)

/-- The section table: each type once, no overlap, and every required section. -/
def tableOk (img : List W8) : Bool :=
  let xs := sections img
  (xs.zipIdx.all fun p => sectionOk img p.2 p.1) && (xs.map (·.typ)).eraseDups.length == xs.length &&
    ([1, 2, 4, 15].all fun t => (sectionOf img t).isSome) &&
    xs.zipIdx.all fun p => (xs.take p.2).all fun y => !meets p.1.off p.1.size y.off y.size

def kernelOk (img : List W8) (e : List W8) : Bool :=
  let f := entBits e 2
  entWord e 0 % 64 == 0 && entBits e 1 63 32 % 64 == 0 &&
    decide (entWord e 0 + entBits e 1 63 32 ≤ (sectionBytes img 2).length) &&
    decide (1 ≤ f 63 59 ∧ f 63 59 ≤ 16 ∧ f 58 52 ≤ 64 ∧ f 51 48 ≤ 8 ∧ f 43 37 ≤ 64) && f 36 0 == 0 && entWord e 3 == 0 &&
    ((sectionOf img 10).isNone || decide (entBits e 1 31 0 < (sectionBytes img 10).length))

def spOk (e : List W8) : Bool := entBits e 0 47 16 == 0 && entBits e 6 63 8 == 0

/-- A node of an image: no address, no reserved bit, and limits within R112 and R321; USED may hold anything (R112). -/
def nodeOk (e : List W8) : Bool :=
  let w := (List.range 16).map fun i => BitVec.ofNat 64 (entWord e i)
  let k := entBits e 0 63 60
  let cnt := k == 1 && (entWord e 11).testBit 63
  decide (k ≤ 2) && [1, 5, 6, 8, 9, 12].all (fun i => entWord e i == 0) && (!cnt || entWord e 10 == 0) &&
    !recordBad (if k = 1 then w.set 11 (BitVec.ofNat 64 (bitsOf (entWord e 11) 63 62 * 2 ^ 62 + bitsOf (entWord e 11) 28 0 + 2 ^ 47)) else w) &&
    (k != 1 || decide (entBits e 11 61 56 ≤ 32 ∧ entBits e 11 46 40 ≤ 64 ∧ entBits e 11 39 36 ≤ 8 ∧ entBits e 11 35 29 ≤ 64 ∧
      entBits e 11 51 47 ≤ 16))

def edgeOk (e : List W8) : Bool := entWord e 0 == 0 && decide (entWord e 1 ≤ 1)

def planOk (img : List W8) (e : List W8) : Bool :=
  let init := (entWord e 1).testBit 50
  decide (1 ≤ entWord e 0 ∧ entWord e 0 < 2 ^ 44 ∧ entBits e 1 63 60 ≤ 8 ∧ 12 ≤ entBits e 1 55 51 ∧ entBits e 1 48 0 = 0) &&
    !(entWord e 1).testBit 59 && decide (entWord e 3 ≤ entWord e 0) &&
    (!init || decide (entWord e 2 + entWord e 3 ≤ (sectionBytes img 6).length))

def queueOk (e : List W8) : Bool := (parseEntry e).isSome && decide (entBits e 0 63 61 ≤ 4 ∧ entBits e 0 60 58 ≤ 4)

def patchOk (e : List W8) : Bool :=
  let f := entBits e 0
  decide (1 ≤ f 63 56 ∧ f 63 56 ≤ 6 ∧ 4 ≤ f 47 40 ∧ f 47 40 ≤ 6 ∧ f 39 0 = 0) && (f 55 48 == 4 || f 55 48 == 8) &&
    (f 63 56 != 4 || entWord e 3 == 0)

/-- Names, each ending in a zero byte (R324). -/
def stringsOk (b : List W8) : Bool := (b.getLast?).all (· == 0)

def formatOk (img : List W8) : Bool :=
  headerOk img && tableOk img && (kernelsOf img).all (kernelOk img) && decide ((spEntries img).length ≤ 65536) &&
    (spEntries img).all spOk && decide (1 ≤ (nodesOf img).length ∧ (nodesOf img).length ≤ 2 ^ 16 ∧ (edgesOf img).length ≤ 2 ^ 20) &&
    (nodesOf img).all nodeOk && (edgesOf img).all edgeOk && (plansOf img).all (planOk img) && (queuesIn img).all queueOk &&
    (patchesOf img).all patchOk && stringsOk (sectionBytes img 10) && imgNat (sectionBytes img 15) 0x61 7 == 0

/-- The parts of a SIGNATURE section (R332). -/
structure Signature where
  ecKey : List W8
  ecSig : List W8
  hssKey : List W8
  hssSig : List W8
  deriving DecidableEq, Repr

/-- A SIGNATURE section as R332 lays it out, when its lengths stay within it. -/
def parseSignature (b : List W8) : Option Signature :=
  let n := imgNat b 0xC8 4
  let m := imgNat b (0xCC + n) 4
  if b.length < 0xD0 + n + m then none
  else some { ecKey := b.take 97, ecSig := (b.drop 0x68).take 96, hssKey := (b.drop 0xCC).take n, hssSig := (b.drop (0xD0 + n)).take m }

/-- Both signatures over SHA-384 of the bytes before the SIGNATURE section verify under the keys that it carries (R96, R332, log 6: DESIGN CHOICE). -/
def signatureOk (img : List W8) : Bool :=
  match sectionOf img 15 with
  | none => false
  | some x => match parseSignature ((img.drop x.off).take x.size) with
    | none => false
    | some g =>
      let d := Config.sha384 (img.take x.off)
      Config.ecdsaVerifies g.ecKey d g.ecSig && Config.hssVerifies g.hssKey d g.hssSig

/-! ### Step 4: objects and queues (R326, R329, R330) -/

/-- What a load has made: the addresses of its plan items, code and graph, its nodes, and its handles. -/
structure Made where
  plans : List Nat := []
  code : Nat := 0
  graph : Nat := 0
  handles : List Nat := []
  deriving DecidableEq, Repr

/-- The address of an object. -/
def objectAddr (obj : Nat) : Nat := obj * 2 ^ 44

/-- The die of a plan item. -/
def planDie (img : List W8) (e : List W8) : Nat := if entBits e 1 63 60 = 8 then gdieOf img else entBits e 1 63 60

/-- The largest granule that an alignment admits (R208). -/
def alignGran (a : Nat) : Nat := if a = 31 then 3 else if 21 ≤ a then 2 else if 16 ≤ a then 1 else 0

def makePlans (s : State) (asid : Nat) (img : List W8) : List (List W8) → Option (List Nat × State)
  | [] => some ([], s)
  | e :: r =>
    match newDieObj s asid (planDie img e) (alignGran (entBits e 1 55 51)) (entWord e 0) false ((entWord e 1).testBit 58)
        ((entWord e 1).testBit 57) ((entWord e 1).testBit 56) ((entWord e 1).testBit 49) with
    | none => none
    | some (i, s) => (makePlans s asid img r).map fun x => (objectAddr i :: x.1, x.2)

/-- The places in CODE before which a copy of the safe-point table goes. -/
def kernelStarts (img : List W8) : List Nat := ((kernelsOf img).map fun e => entWord e 0).eraseDups

/-- Where an offset of CODE lies in the code object (R326). -/
def codePlace (img : List W8) (off : Nat) : Nat :=
  off + 64 * (spEntries img).length * ((kernelStarts img).filter fun k => k ≤ off).length

/-- The code object's bytes: each kernel follows its own copy of the table, in descending index order (R326). -/
def codeBytes (img : List W8) : List W8 :=
  let c := sectionBytes img 2
  let t := (spEntries img).reverse.flatten
  (List.range ((c.length + 63) / 64)).flatMap fun i =>
    (if (kernelStarts img).contains (64 * i) then t else []) ++ (c.drop (64 * i)).take 64

/-- Where the region control blocks and the edges lie in the graph object. -/
def nodeBase (img : List W8) : Nat := (64 + 8 * (nodesOf img).length + 127) / 128 * 128
def edgeBase (img : List W8) : Nat := nodeBase img + 128 * (nodesOf img).length
def graphBytes (img : List W8) : Nat := edgeBase img + 16 * (edgesOf img).length

def makeQueues (s : State) (t asid : Nat) : List (List W8) → Option (List Nat × State)
  | [] => some ([], s)
  | e :: r =>
    match parseEntry e with
    | none => none
    | some (q, rights, d, ports) =>
      if !dieOnline s d then none
      else match makeQueue s d { q with tenant := BitVec.ofNat 6 t, asid := BitVec.ofNat 12 asid } ports with
        | .made ref s => (match install s asid (pqidOf s ref) rights with
          | none => none
          | some (h, s) => (makeQueues s t asid r).map fun x => (h.toNat :: x.1, x.2))
        | _ => none

/-- Everything that step 4 makes; none when anything is refused. -/
def makeAll (s : State) (t asid : Nat) (img : List W8) : Option (Made × State) :=
  let g := gdieOf img
  match makePlans s asid img (plansOf img) with
  | none => none
  | some (ps, s) => match newDieObj s asid g 0 (max 64 (codeBytes img).length) true false false true false with
    | none => none
    | some (c, s) => match newDieObj s asid g 0 (graphBytes img) false false false true false with
      | none => none
      | some (o, s) => (makeQueues s t asid (queuesIn img)).map fun x =>
          ({ plans := ps, code := objectAddr c, graph := objectAddr o, handles := x.1 }, x.2)

/-! ### Step 5: patches (R325, R331) -/

/-- The working copies of NODES, EDGES and DATA. -/
structure Work where
  nodes : List W8
  edges : List W8
  data : List W8
  deriving DecidableEq, Repr

def Work.get (w : Work) (sec : Nat) : List W8 := if sec = 4 then w.nodes else if sec = 5 then w.edges else w.data

def Work.set (w : Work) (sec : Nat) (b : List W8) : Work :=
  if sec = 4 then { w with nodes := b } else if sec = 5 then { w with edges := b } else { w with data := b }

/-- Bytes put at a place of a list. -/
def splice (b : List W8) (off : Nat) (x : List W8) : List W8 := b.take off ++ x ++ b.drop (off + x.length)

/-- The value of a patch before its addend; none when its index names nothing. -/
def patchValue (img : List W8) (m : Made) (ext : List Nat) (kind i : Nat) : Option Nat :=
  match kind with
  | 1 => m.plans[i]?
  | 2 => if i < (nodesOf img).length then some (m.graph + nodeBase img + 128 * i) else none
  | 3 => (kernelsOf img)[i]?.map fun e => m.code + codePlace img (entWord e 0)
  | 4 => m.handles[i]?
  | 5 => some m.graph
  | _ => ext[i]?

/-- The resource fields of a kernel take the place of a launch node's (R325). -/
def withKernel (node k : List W8) : List W8 :=
  let old := entWord node 11
  let f := entBits k 2
  splice node 0x58 (leBytes 8 (old / 2 ^ 56 * 2 ^ 56 + f 47 44 * 2 ^ 52 + f 63 59 * 2 ^ 47 + f 58 52 * 2 ^ 40 + f 51 48 * 2 ^ 36 +
    f 43 37 * 2 ^ 29 + old % 2 ^ 29))

/-- A launch node whose KERNEL a patch has written takes the kernel's resources. -/
def takeKernel (img : List W8) (w : Work) (toff i : Nat) : Work :=
  let j := toff / 128
  let node := (w.nodes.drop (128 * j)).take 128
  match (kernelsOf img)[i]? with
  | some k => if toff % 128 = 0x40 ∧ entBits node 0 63 60 = 1 then { w with nodes := splice w.nodes (128 * j) (withKernel node k) } else w
  | none => w

/-- One patch; none on a patch error. -/
def applyPatch (img : List W8) (m : Made) (ext : List Nat) (w : Work) (e : List W8) : Option Work :=
  let f := entBits e 0
  let n := f 55 48
  let toff := entWord e 1
  let sec := f 47 40
  match patchValue img m ext (f 63 56) (entWord e 2) with
  | none => none
  | some v =>
    let v := (v + entWord e 3) % 2 ^ 64
    if (n = 4 ∧ 2 ^ 32 ≤ v) ∨ (w.get sec).length < toff + n then none
    else
      let w := w.set sec (splice (w.get sec) toff (leBytes n v))
      some (if f 63 56 = 3 ∧ sec = 4 then takeKernel img w toff (entWord e 2) else w)

def applyPatches (img : List W8) (m : Made) (ext : List Nat) (w : Work) : List (List W8) → Option Work
  | [] => some w
  | e :: r => match applyPatch img m ext w e with
    | none => none
    | some w => applyPatches img m ext w r

/-- The extern values that IMGARG names; none when they cannot be read. -/
def externValues (s : State) (t n : Nat) : Option (List Nat) :=
  if n = 0 then some []
  else
    let a := (s.iface t).imgarg.toNat
    match windowPlace s t (bitsOf a 63 60 * 2 ^ 32 + bitsOf a 31 3 * 8) (8 * n) .r with
    | none => none
    | some (asid, obj, off) =>
      let b := readObj s (s.obj asid.toNat obj) off (8 * n)
      some ((List.range n).map (entWord b))

/-! ### Steps 6 and 7 -/

/-- The graph header and the node array (R109). -/
def graphHead (img : List W8) (m : Made) : List W8 :=
  let n := (nodesOf img).length
  let ne := (edgesOf img).length
  leBytes 8 (m.graph + 64) ++ leBytes 8 (ne * 2 ^ 32 + n) ++ leBytes 8 (if ne = 0 then 0 else m.graph + edgeBase img) ++
    List.replicate 40 0 ++ (List.range n).flatMap fun i => leBytes 8 (m.graph + nodeBase img + 128 * i)

def putBytes (s : State) (asid : BitVec 12) (addr : Nat) (b : List W8) : State :=
  writeObject s asid (addr / 2 ^ 44) (addr % 2 ^ 44) b

/-- The DATA bytes of a plan item; none when its zero-fill runs find no room at their home (R218). -/
def placePlan (s : State) (asid : BitVec 12) (w : Work) (e : List W8) (addr : Nat) : Option State :=
  if (entWord e 1).testBit 50 then
    tryWrite s asid (addr / 2 ^ 44) (addr % 2 ^ 44) ((w.data.drop (entWord e 2)).take (entWord e 3))
  else some s

/-- The contents of the plan items. -/
def placePlans (asid : BitVec 12) (w : Work) : List (List W8 × Nat) → State → Option State
  | [], s => some s
  | p :: r, s => (placePlan s asid w p.1 p.2).bind (placePlans asid w r)

/-- Step 6: contents; none when a plan item's contents find no room. -/
def placeAll (s : State) (asid : BitVec 12) (img : List W8) (m : Made) (w : Work) : Option State :=
  (placePlans asid w ((plansOf img).zip m.plans) s).map fun s =>
  let s := putBytes s asid m.code (codeBytes img)
  let s := syncCopies s asid.toNat (m.code / 2 ^ 44)
  let s := putBytes s asid m.graph (graphHead img m)
  putBytes (putBytes s asid (m.graph + nodeBase img) w.nodes) asid (m.graph + edgeBase img) w.edges

/-- Step 7: the digest, the graph's address and the status. -/
def recordLoad (s : State) (t asid : Nat) (img : List W8) (m : Made) : State :=
  let i := s.iface t
  let a := s.asid asid
  let s := s.setAsid asid { a with graphs := a.graphs ++ [(BitVec.ofNat 64 m.graph, Config.sha384 img)] }
  s.setIface t { i with digest := Config.sha384 (digestBytes i.digest ++ digestBytes (Config.sha384 img)),
                        imggraph := BitVec.ofNat 64 m.graph, imgstat := 0 }

def endLoad (s : State) (t : Nat) (c : W8) : State := s.setIface t { s.iface t with imgstat := c }

/-- Steps 4 to 7: a failure leaves nothing behind but its status. Contents that find no room end the load as a refusal of
step 4 does (log 121: DESIGN CHOICE). -/
def loadImage (s : State) (t : Nat) (asid : BitVec 12) (img : List W8) : State :=
  match makeAll s t asid.toNat img with
  | none => endLoad s t 4
  | some (m, s') =>
    match (externValues s' t (nextern img)).bind fun ext =>
        applyPatches img m ext ⟨sectionBytes img 4, sectionBytes img 5, sectionBytes img 6⟩ (patchesOf img) with
    | none => endLoad s t 5
    | some w => match placeAll s' asid img m w with
      | none => endLoad s t 4
      | some u => recordLoad u t asid.toNat img m

/-- Where IMGLOAD's image is: the ASID, the object and the offset, when step 1 does not refuse it. -/
def imagePlace (s : State) (t : Nat) : Option (BitVec 12 × Nat × Nat) :=
  let i := s.iface t
  let v := i.imgload.toNat
  let c := (tget i.wincfg (bitsOf v 63 60) 0).toNat
  let a := 64 * t + bitsOf c 61 56
  let obj := bitsOf c 55 36
  let o := s.obj a obj
  if c.testBit 63 && tenantAsid s a && obj != 0 && o.state == .valid && o.kind == .die then
    some (BitVec.ofNat 12 a, obj, bitsOf v 31 12 * 4096)
  else none

/-- IMGLOAD_WRITE (R333): `flag` is the T bit. -/
def execImgloadWrite (s : State) : Out :=
  let t := s.arg.tenant.toNat
  let i := s.iface t
  if !running i || !s.arg.flag || i.imgstat == 1 then .next s
  else .next (s.setIface t { i with imgload := s.arg.v &&& 0xF0000000FFFFF000, imgstat := 1 })

/-- IMAGE_LOAD (R99, R334): the steps of a load, in order. -/
def execImageLoad (s : State) : Out :=
  let t := s.arg.tenant.toNat
  let i := s.iface t
  if i.imgstat ≠ 1 then .next s
  else if !running i then .next (endLoad s t 6)
  else match imagePlace s t with
    | none => .next (endLoad s t 6)
    | some (asid, obj, off) =>
      let o := s.obj asid.toNat obj
      let len := leNat (readObj s o (off + 8) 8)
      if o.bound < off + 64 ∨ len < 64 ∨ o.bound < off + len then .next (endLoad s t 3)
      else
        let img := readObj s o off len
        if !signatureOk img then .next (endLoad s t 2)
        else if !formatOk img then .next (endLoad s t 3)
        else .next (loadImage s t asid img)

end Sys2Proof.Machine
end

