-- ==== Sys2Proof/Machine/Access.lean ====
section
/-! DEFINITION. The register spaces by offset: what a write of each register does and what a read of it gives (R34, R88, R94, R130,
R152). -/
namespace Sys2Proof.Machine

/-! ### Writes -/

/-- An event whose operands come from the request that names a register. -/
def asEvent (s : State) (a : Args) (act : State → Out) : Out := act { s with arg := a }

/-- The registers of the provisioning channel, which alone answers while the boot ROM holds the module: LCSTATE, MBNONCE and the command
registers (R104, R106, R108, log 118: DESIGN CHOICE). -/
def provisioning (off : Nat) : Bool := off == 0x8 || off == 0x10 || (decide (0x800 ≤ off ∧ off ≤ 0x818) && off % 8 == 0)

/-- A register of PF0's BAR0 that is served now (R88, R108). -/
def pf0Serves (s : State) (off : Nat) : Bool := !s.mgmt.romhold || provisioning off

/-- A write to PF0's BAR0 (R88); in the boot ROM only the command registers take one (R108). -/
def pf0Write (s : State) : Out :=
  let a := s.arg
  let off := a.off
  let l := (off - 0x400) / 16
  if !mgmtUp s || (s.mgmt.romhold && decide (off < 0x800)) || !pf0Serves s off then .next s
  else if off = 0x18 then execThermrecWrite s
  else if 0x100 ≤ off ∧ off < 0x180 ∧ off % 16 = 0 then
    asEvent s { a with die := BitVec.ofNat 3 ((off - 0x100) / 16), v := a.v >>> 2 } execDievfReqWrite
  else if off = 0x200 then execFabcfgWrite s
  else if 0x280 ≤ off ∧ off < 0x2C0 ∧ off % 8 = 0 then asEvent s { a with idx := (off - 0x280) / 8 } execFabunrWrite
  else if 0x400 ≤ off ∧ off < 0x800 ∧ off % 16 = 0 then
    let s := writeFlnk s l a.v
    if a.v.getLsbD 1 = (s.link l).disable then .next s
    else asEvent s { a with link := BitVec.ofNat 6 l, flag := a.v.getLsbD 1 } execFlnkDisableWrite
  else .next (writePf0 s off a.v)

/-- A write to BAR0 of a tenant's VF (R94). -/
def bar0Write (s : State) : Out :=
  let a := s.arg
  if isBinding a.off then execBindingWrite s
  else match a.off with
    | 0x2000 => execSmpcfgWrite s
    | 0x2100 => execFdrbaseWrite s
    | 0x2200 => execDbgctlHaltWrite s
    | 0x2300 => execImgloadWrite s
    | off => .next (writeBar0 s a.tenant.toNat off a.v a.flag)

/-- A write to BAR2 of a tenant's VF (R91). -/
def bar2Write (s : State) : Out :=
  let a := s.arg
  if a.off % 4096 = 0xFF8 then asEvent s { a with idx := a.off / 4096 } execApertureDoorbell
  else .next (writeAperture s a.tenant.toNat a.off a.idx a.v a.flag)

/-- CORECMD of a core (R152, R158). -/
def corecmdWrite (s : State) (c : Nat) : Out :=
  let v := s.arg.v.toNat
  let on (slot : Nat) : Args := { s.arg with core := BitVec.ofNat 8 c, slot := BitVec.ofNat 4 slot }
  match bitsOf v 63 60 with
  | 1 => asEvent s (on (bitsOf v 3 0)) execPreempt
  | 2 => asEvent s (on (bitsOf v 3 0)) execKillblk
  | 3 => asEvent s (on (bitsOf v 7 4)) execKillgrp
  | 4 => asEvent s (on (bitsOf v 7 4)) execResumegrp
  | _ => .next s

/-- The write of a record to an Empty slot, word by word: the check of R155 follows the word that sets Ready. -/
def bindWordWrite (s : State) (k w : Nat) (v : W64) : Out :=
  let b := setBindWord (s.slot k).bind w v
  if startsOutside s k b then .fault (.noMemory (slotDie k) b.save.toNat) else .next (writeBind s k b)

/-- A write to the register space of a die's punty core, which runs once the die is online (R20, R21, R152). -/
def puntyWrite (s : State) : Out :=
  let a := s.arg
  let d := a.die.toNat
  let off := a.off
  if !s.mgmt.online.getLsbD d then .next s
  else if 0x4800 ≤ off ∧ off < 0x4D00 ∧ off % 8 = 0 then corecmdWrite s ((off - 0x4800) / 8)
  else if 0x10000 ≤ off ∧ off < 0x38000 ∧ off % 8 = 0 then
    bindWordWrite s (slotKey d ((off - 0x10000) / 0x400) (off % 0x400 / 0x40)) (off % 0x40 / 8) a.v
  else .next (writePunty s d off a.v)

/-- REGISTER_WRITE (R5): the space, the offset and the value; a read-only register and an offset that is reserved take nothing from
it. The tenants' functions take nothing while the boot ROM holds the module (R108). -/
def execRegisterWrite (s : State) : Out :=
  let a := s.arg
  let tenant (act : State → Out) : Out := if s.mgmt.romhold then .next s else act s
  match a.space with
  | .pf0 => pf0Write s
  | .bar0 => tenant bar0Write
  | .bar2 => tenant bar2Write
  | .bar4 => tenant fun s => asEvent s { a with v := 1, words := [a.v] } execWindowAccess
  | .punty => puntyWrite s
  | .dvsec => if 0x1C ≤ a.off ∧ a.off ≤ 0x24 then execTierQuotaWrite s else .next (writeDvsec s a.off a.v)

/-! ### The management block (R13, R18, R88, R104, R106) -/

def pkginfoWord (m : Mgmt) : W64 := 0#16 ++ m.online ++ m.present ++ m.step ++ 0x01#8 ++ 0x0001#16

/-- WIPING: the wipe of stage C, or a tenant's, is running. -/
def wipeRuns (s : State) : Bool := s.lehr == .stageC || s.ifaces.any fun i => i.2.wiping

def lcstateWord (s : State) : W64 :=
  0#16 ++ s.mgmt.svn ++ 0#10 ++ s.mgmt.devten ++ 0#1 ++ BitVec.ofNat 7 (liveCount s) ++ 0#4 ++ BitVec.ofBool s.mgmt.romhold ++
    BitVec.ofBool (wipeRuns s) ++ BitVec.ofNat 2 (lcNumber s.mgmt.lc)

def dievfWord (x : Die) : W64 := x.steps ++ 0#16 ++ x.temp ++ 0#2 ++ x.cause ++ x.req ++ x.cur

def mbstatNo : MbStat → Nat
  | .done => 0
  | .busy => 1
  | .badSignature => 2
  | .badNonce => 3
  | .notMet => 4
  | .reserved => 5
  | .versionLow => 6

/-- A register of PF0's BAR0; MBNONCE is not among them, since a read of it is an event. -/
def pf0Word (s : State) (off : Nat) : W64 :=
  if 0x100 ≤ off ∧ off < 0x180 ∧ off % 16 = 0 then dievfWord (s.die ((off - 0x100) / 16))
  else if 0x280 ≤ off ∧ off < 0x2C0 ∧ off % 8 = 0 then tget s.fabric.fabunr ((off - 0x280) / 8) 0
  else if 0x400 ≤ off ∧ off < 0x800 ∧ off % 16 = 0 then flnkWord (s.link ((off - 0x400) / 16))
  else match off with
    | 0x000 => pkginfoWord s.mgmt
    | 0x008 => lcstateWord s
    | 0x018 => s.mgmt.thermrec
    | 0x200 => fabcfgWord s
    | 0x800 => s.mgmt.mbcmd.setWidth 64
    | 0x808 => s.mgmt.mbarg
    | 0x810 => BitVec.ofNat 64 (mbstatNo s.mgmt.mbstat)
    | 0x818 => s.mgmt.mbtoken
    | _ => 0

/-! ### A tenant's registers (R91, R94, R95, R195, R288, R294, R333) -/

def tdispNo : Tdisp → Nat
  | .unlocked => 0
  | .locked => 1
  | .run => 2
  | .error => 3

def ifResultNo : IfResult → Nat
  | .done => 0
  | .busy => 1
  | .badArg => 2
  | .noSpace => 3
  | .overQuota => 4
  | .wrongState => 5
  | .reserved => 6

/-- Local ASIDs in use (R94). -/
def localAsids (s : State) (t : Nat) : Nat := (List.range 64).countP fun a => tenantAsid s (64 * t + a)

def ifstatWord (s : State) (t : Nat) : W64 :=
  0#24 ++ BitVec.ofNat 8 (localAsids s t) ++ 0#18 ++ BitVec.ofNat 6 t ++ 0#6 ++ BitVec.ofNat 2 (tdispNo (s.iface t).tdisp)

/-- ACTIVE: ENABLE is set, and a core of some die is armed for the tenant (R195, R197). -/
def smpActive (s : State) (t : Nat) : Bool :=
  (s.iface t).smpEnable && s.cores.any fun c =>
    (armedTenants s c.1).contains t && (s.die (c.1 / 160)).halted.isNone && !(tget (s.iface t).smpDies (c.1 / 160) {}).stopped

/-- The registers that the T-bit and RUN rule governs (R94). -/
def runWord (s : State) (t off : Nat) : W64 :=
  let i := s.iface t
  match off with
  | 0x0400 => i.op ++ BitVec.ofNat 8 (ifResultNo i.result) ++ 0#48
  | 0x0408 => i.arg0
  | 0x0410 => i.arg1
  | 0x0418 => i.arg2
  | 0x0420 => i.arg3
  | 0x2000 => 0#32 ++ i.smpPeriod ++ i.smpLog2n ++ 0#11 ++ BitVec.ofBool i.smpEnable
  | 0x2008 => i.smpNode
  | 0x2010 => i.smpBuf
  | 0x2018 => 0#48 ++ i.smpErr ++ 0#7 ++ BitVec.ofBool (smpActive s t)
  | 0x2100 => i.fdrBase ||| i.fdrLog2n.setWidth 64
  | 0x2108 => i.fdrRd ++ i.fdrWr
  | 0x2110 => 0#32 ++ i.fdrDrop
  | 0x2200 => 0#40 ++ i.halted ++ i.refused ++ i.halt
  | 0x2208 => 0#63 ++ BitVec.ofBool i.brkHalt
  | 0x2300 => i.imgload
  | 0x2308 => i.imgarg
  | 0x2310 => i.imgstat ++ 0#56
  | _ => i.imggraph

def runOffsets : List Nat :=
  [0x400, 0x408, 0x410, 0x418, 0x420, 0x2000, 0x2008, 0x2010, 0x2018, 0x2100, 0x2108, 0x2110, 0x2200, 0x2208, 0x2300, 0x2308, 0x2310,
   0x2318]

/-- A register of BAR0 as a request reads it: outside RUN, or without the T bit, the registers of the tenant's work read as all ones
(R89, R94). -/
def bar0Word (s : State) (t off : Nat) (tbit : Bool) : W64 :=
  let i := s.iface t
  if off % 8 ≠ 0 then 0
  else if off = 0 then ifstatWord s t
  else if 0x100 ≤ off ∧ off < 0x180 then tget i.apcfg ((off - 0x100) / 8) 0
  else if 0x200 ≤ off ∧ off < 0x280 then tget i.wincfg ((off - 0x200) / 8) 0
  else if off = 0x300 then i.urcnt.setWidth 64
  else if 0x8000 ≤ off ∧ off < 0x8400 then msixWord i ((off - 0x8000) / 8)
  else if off = 0x8800 then i.pba
  else if runOffsets.contains off then (if running i && tbit then runWord s t off else 0xFFFFFFFFFFFFFFFF)
  else 0

/-- A byte of an aperture: the element image, the status of the last push, or zero (R91, log 103: DESIGN CHOICE). -/
def apertureByte (a : Aperture) (o : Nat) : W8 :=
  if o < 256 then tget a.image o 0
  else if o = 0xFF0 then (if a.inFlight then 0xFF else a.status)
  else 0

/-- Eight bytes of BAR2: all ones outside RUN, without the T bit, and where no aperture is bound (R89, R91). -/
def bar2Word (s : State) (t off : Nat) (tbit : Bool) : W64 :=
  let i := s.iface t
  let k := off / 4096
  if !running i || !tbit || decide (16 ≤ k) || !(tget i.apcfg k 0).getLsbD 63 then 0xFFFFFFFFFFFFFFFF
  else BitVec.ofNat 64 (leNat ((List.range 8).map fun j => apertureByte (tget i.apertures k {}) (off % 4096 + j)))

/-! ### The punty register space (R34, R54, R58, R152 to R154, R229) -/

def qpResultNo : QpResult → Nat
  | .done => 0
  | .busy => 1
  | .descError => 2
  | .poolExhausted => 3
  | .wrongState => 4

def qpcmdWord (p : Port) : W64 := BitVec.ofNat 4 (qpResultNo p.result) ++ p.op ++ 0#40 ++ p.queue
def qpcntWord (p : Port) : W64 := p.slpovf ++ p.stale ++ p.voids ++ p.late
def memcntWord (x : Die) : W64 := x.prilate ++ x.cecc ++ x.uecc ++ x.relaunch
def drptrWord (x : Die) : W64 := 0#16 ++ x.drsize ++ x.drhead ++ x.drtail

def qlifeNo : QLife → Nat
  | .free => 0
  | .active => 1
  | .closing => 2
  | .lost => 3

/-- A word of a queue descriptor (R34). -/
def descWord (q : Queue) (w : Nat) : W64 := match w with
  | 0 => BitVec.ofNat 4 (qlifeNo q.state) ++ q.esize ++ q.kind ++ BitVec.ofBool q.wakeAll ++ BitVec.ofBool q.sys ++ q.tenant ++ q.asid ++
      0#9 ++ BitVec.ofNat 25 q.spillN
  | 1 => BitVec.ofNat 12 q.winM1 ++ 0#7 ++ BitVec.ofNat 13 q.winOff ++ 0#32
  | 2 => q.spillBase
  | 3 => 0#16 ++ q.head
  | 4 => 0#16 ++ q.tail
  | 5 => q.keysM1 ++ BitVec.ofNat 24 q.fanin ++ 0#8 ++ BitVec.ofNat 24 q.round
  | 6 => q.coinKey
  | _ => q.ctrBase

/-- The slots of a core in a state, as a mask. -/
def slotMask (s : State) (ck : Nat) (st : SState) : W16 :=
  BitVec.ofNat 16 ((List.range 16).foldl (fun n i => if (s.slot (ck * 16 + i)).bind.sstate = st then n + 2 ^ i else n) 0)

/-- CORESTAT of a core (R153). -/
def corestatWord (s : State) (ck : Nat) : W64 :=
  slotMask s ck .empty ++ slotMask s ck .running ++ 0#20 ++ BitVec.ofBool (s.die (ck / 160)).halted.isSome ++
    BitVec.ofBool (s.core ck).fused ++ BitVec.ofBool (s.core ck).awake ++ 0#9

/-- A register of a die's punty core as its firmware reads it. -/
def puntyWord (s : State) (d off : Nat) : W64 :=
  if off % 8 ≠ 0 then 0
  else if 0x2000 ≤ off ∧ off < 0x2400 then
    let p := s.port (portKey d ((off - 0x2000) / 0x40))
    if off % 0x40 = 0 then qpcmdWord p else if off % 0x40 = 8 then qpcntWord p else 0
  else if off = 0x3000 then (s.die d).drbase
  else if off = 0x3008 then drptrWord (s.die d)
  else if 0x4000 ≤ off ∧ off < 0x4500 then corestatWord s (coreKey d ((off - 0x4000) / 8))
  else if off = 0x5000 then memcntWord (s.die d)
  else if 0x10000 ≤ off ∧ off < 0x38000 then
    bindWord (s.slot (slotKey d ((off - 0x10000) / 0x400) (off % 0x400 / 0x40))).bind (off % 0x40 / 8)
  else if 0x400000 ≤ off ∧ off < 0x800000 then
    descWord (s.qref ⟨d, (off - 0x400000) / 0x40000, off % 0x40000 / 0x40⟩) (off % 0x40 / 8)
  else 0

/-! ### Reads -/

/-- A read of a register, by whoever may reach its space; the answer joins the completions (R88, R89, R94, R130, R152). The
management controller reads the block of PF0 in the same way, also while the lehr runs (R21, R88); the boot ROM answers the
provisioning channel alone (R108). -/
def readRegister (s : State) : Out :=
  let a := s.arg
  let t := a.tenant.toNat
  let tenant (act : State → Out) : Out := if s.mgmt.romhold then .next s else act s
  match a.space with
  | .pf0 =>
    if a.off = 0x10 then execMbnonceRead s
    else .next (if pf0Serves s a.off then hostAnswer s (some (pf0Word s a.off)) else s)
  | .bar0 => tenant fun s => .next (hostAnswer s (some (bar0Word s t a.off a.flag)))
  | .bar2 => tenant fun s => .next (hostAnswer s (some (bar2Word s t a.off a.flag)))
  | .bar4 => tenant fun s => asEvent s { a with v := 0 } execWindowAccess
  | .punty => .next (if s.mgmt.online.getLsbD a.die.toNat then hostAnswer s (some (puntyWord s a.die.toNat a.off)) else s)
  | .dvsec => asEvent s { a with off := Config.dvsecBase + a.off } execHostConfigRequest

/-- A management access that names a socket: 1 for one that is present and 0 for one that is absent (log 119: DESIGN CHOICE), or
Unsupported Request for the unused numbers (R10). -/
def readSocket (s : State) (k : Nat) : State :=
  if s.mgmt.romhold then s
  else hostAnswer s (if k < 34 then some (if socketPresent s k then 1 else 0) else none)

/-! ### The firmware's own acts (R103) -/

/-- A queue of the device tenant, with its entry in the ASID's QTT. -/
def fwQueue (s : State) (a : BitVec 12) (entry : List W8) : State :=
  match parseEntry entry with
  | none => s
  | some (q, rights, d, ports) =>
    if !dieOnline s d then s
    else match makeQueue s d { q with tenant := s.ownerOf a, asid := a } ports with
      | .made r s' => ((install s' a.toNat (pqidOf s' r) rights).map (·.2)).getD s
      | _ => s

/-- A start element in the launch queue of an ASID on a die. -/
def fwStart (s : State) (a : BitVec 12) (d : Nat) (elem : List W8) : State :=
  match tfind (s.asid a.toNat).launchQ d with
  | none => s
  | some p =>
    let r := qrefOf p
    wakeSince (pushAt s r elem true .none {}).2 r (s.qref r)

/-- An act of the firmware in an ASID of the device tenant; in any other, and while the boot ROM holds the module, it does nothing
(R103, R108). An executable object is never writable, and its pages are always present (R314). -/
def firmwareAct (s : State) (c : FwAct) : State :=
  if s.mgmt.romhold then s else match c with
  | .asid a =>
    if !s.reserved a || (s.asid a.toNat).inUse then s
    else (asidQueues (s.setAsid a.toNat { inUse := true }) a.toNat ((List.range 8).filter (dieOnline s))).getD s
  | .object a d gran bound rights zfill =>
    if !s.reserved a || !(s.asid a.toNat).inUse || (rights.getLsbD 3 && (rights.getLsbD 1 || zfill)) then s
    else ((newDieObj s a.toNat d.toNat gran bound (rights.getLsbD 3) (rights.getLsbD 2) (rights.getLsbD 1) (rights.getLsbD 0) zfill).map
      (·.2)).getD s
  | .queue a entry => if !s.reserved a || !(s.asid a.toNat).inUse then s else fwQueue s a entry
  | .bytes a addr bs =>
    let o := s.obj a.toNat (addrObj addr)
    if s.reserved a && addrObj addr != 0 && o.state == .valid && o.kind == .die && decide (addrOff addr + bs.length ≤ o.bound) then
      syncCopies (writeObject s a (addrObj addr) (addrOff addr) bs) a.toNat (addrObj addr)
    else s
  | .start a d elem => if s.reserved a then fwStart s a d.toNat elem else s

/-! ### The other turns of the outside world -/

/-- The driver binds the wakes of a queue to a vector, or unbinds them, while its interface is unlocked (R92, log 101: DESIGN
CHOICE). -/
def bindWakeVector (s : State) (t : Nat) (p : W32) (vec : Option W6) : State :=
  let i := s.iface t
  let rest := i.wakeVec.filter fun b => b.1 != p
  if i.tdisp ≠ .unlocked ∨ s.mgmt.romhold then s
  else s.setIface t { i with wakeVec := match vec with
    | some v => rest ++ [(p, v)]
    | none => rest }

/-- The next fetches of a line by a core meet bit errors (R292). -/
def addFlaw (s : State) (ck asid : Nat) (line : W64) (n : Nat) : State :=
  let c := s.core ck
  s.setCore ck { c with flaws := c.flaws ++ [(asid, line, n)] }

end Sys2Proof.Machine
end

