-- ==== Sys2Proof/Machine/Masks.lean ====
section
/-! DEFINITION. Mask instructions (R358, R359): whole 32-bit masks, with no regard to `em`. -/
namespace Sys2Proof.Machine

/-- A mask form with a mask destination; every mask register is present (R175). -/
def mForm (s : State) (sw : Bool) (d : MReg) (v : W32) : Out := .next (s.retire (setM s.grp d v) sw)

/-- A mask form with a scalar destination. -/
def mToS (s : State) (sw : Bool) (d : SReg) (v : W64) : Out :=
  let g := s.grp
  checked s (okS g d) g.em (s.retire (setS g d v) sw)

/-- The index of the lowest set bit, or 32 (R358). -/
def ffsN (n : Nat) : Nat := ((List.range 32).takeWhile fun i => !n.testBit i).length

/-- MAND (R358). -/
def execMand (o : MBin) (s : State) : Out :=
  mForm s o.sw o.d (maskReg s.grp o.a &&& maskReg s.grp o.b)

/-- MOR (R358). -/
def execMor (o : MBin) (s : State) : Out :=
  mForm s o.sw o.d (maskReg s.grp o.a ||| maskReg s.grp o.b)

/-- MXOR (R358). -/
def execMxor (o : MBin) (s : State) : Out :=
  mForm s o.sw o.d (maskReg s.grp o.a ^^^ maskReg s.grp o.b)

/-- MANDN (R358). -/
def execMandn (o : MBin) (s : State) : Out :=
  mForm s o.sw o.d (maskReg s.grp o.a &&& ~~~(maskReg s.grp o.b))

/-- MNOT (R358). -/
def execMnot (o : MUn) (s : State) : Out :=
  mForm s o.sw o.d (~~~(maskReg s.grp o.a))

/-- MMOV (R358). -/
def execMmov (o : MUn) (s : State) : Out :=
  mForm s o.sw o.d (maskReg s.grp o.a)

/-- MMOV, format 2 (R339). -/
def execMmovImm64 (o : MLong) (s : State) : Out :=
  mForm s o.sw o.d o.imm

/-- MRDEM: reads `em` (R358). -/
def execMrdem (o : MDst) (s : State) : Out :=
  mForm s o.sw o.d s.grp.em

/-- MWREM: writes `em`, for the next instruction on (R182, R359). -/
def execMwrem (o : MSrc) (s : State) : Out :=
  .next (s.retire { s.grp with em := maskReg s.grp o.a } o.sw)

/-- MPOPC: the number of set bits (R358). -/
def execMpopc (o : MToS) (s : State) : Out :=
  mToS s o.sw o.d (BitVec.ofNat 64 (popN 32 (maskReg s.grp o.a).toNat))

/-- MFFS: the lowest set bit (R358). -/
def execMffs (o : MToS) (s : State) : Out :=
  mToS s o.sw o.d (BitVec.ofNat 64 (ffsN (maskReg s.grp o.a).toNat))

/-- MFROMS: the low word of sA (R358). -/
def execMfroms (o : SToM) (s : State) : Out :=
  let g := s.grp
  checked s (okS g o.a) g.em (s.retire (setM g o.d ((getS g o.a).setWidth 32)) o.sw)

/-- MTOS: zero-extended (R358). -/
def execMtos (o : MToS) (s : State) : Out :=
  mToS s o.sw o.d ((maskReg s.grp o.a).setWidth 64)

end Sys2Proof.Machine
end

