-- ==== Sys2Proof/Machine/Dispatch.lean ====
section
/-! DEFINITION. What each instruction and each event does: one arm for each constructor of Instr, in the order of the
opcode table's families. -/
namespace Sys2Proof.Machine

def exec (i : Instr) (s : State) : Host.Outcome State Fault Refusal :=
  match i with
  | .nop sw => Sys2Proof.Machine.execNop sw s
  | .sadd o => Sys2Proof.Machine.execSadd o s
  | .saddImm o => Sys2Proof.Machine.execSaddImm o s
  | .ssub o => Sys2Proof.Machine.execSsub o s
  | .ssubImm o => Sys2Proof.Machine.execSsubImm o s
  | .smul o => Sys2Proof.Machine.execSmul o s
  | .smulImm o => Sys2Proof.Machine.execSmulImm o s
  | .smulh o => Sys2Proof.Machine.execSmulh o s
  | .smulhImm o => Sys2Proof.Machine.execSmulhImm o s
  | .sdiv o => Sys2Proof.Machine.execSdiv o s
  | .sdivImm o => Sys2Proof.Machine.execSdivImm o s
  | .srem o => Sys2Proof.Machine.execSrem o s
  | .sremImm o => Sys2Proof.Machine.execSremImm o s
  | .smin o => Sys2Proof.Machine.execSmin o s
  | .sminImm o => Sys2Proof.Machine.execSminImm o s
  | .smax o => Sys2Proof.Machine.execSmax o s
  | .smaxImm o => Sys2Proof.Machine.execSmaxImm o s
  | .sand o => Sys2Proof.Machine.execSand o s
  | .sandImm o => Sys2Proof.Machine.execSandImm o s
  | .sor o => Sys2Proof.Machine.execSor o s
  | .sorImm o => Sys2Proof.Machine.execSorImm o s
  | .sxor o => Sys2Proof.Machine.execSxor o s
  | .sxorImm o => Sys2Proof.Machine.execSxorImm o s
  | .sshl o => Sys2Proof.Machine.execSshl o s
  | .sshlImm o => Sys2Proof.Machine.execSshlImm o s
  | .sshr o => Sys2Proof.Machine.execSshr o s
  | .sshrImm o => Sys2Proof.Machine.execSshrImm o s
  | .ssra o => Sys2Proof.Machine.execSsra o s
  | .ssraImm o => Sys2Proof.Machine.execSsraImm o s
  | .srotl o => Sys2Proof.Machine.execSrotl o s
  | .srotlImm o => Sys2Proof.Machine.execSrotlImm o s
  | .sclz o => Sys2Proof.Machine.execSclz o s
  | .spopc o => Sys2Proof.Machine.execSpopc o s
  | .ssel o => Sys2Proof.Machine.execSsel o s
  | .sselImm o => Sys2Proof.Machine.execSselImm o s
  | .scmp o => Sys2Proof.Machine.execScmp o s
  | .scmpImm o => Sys2Proof.Machine.execScmpImm o s
  | .smov o => Sys2Proof.Machine.execSmov o s
  | .smovImm64 o => Sys2Proof.Machine.execSmovImm64 o s
  | .sofs o => Sys2Proof.Machine.execSofs o s
  | .sofsImm o => Sys2Proof.Machine.execSofsImm o s
  | .mand o => Sys2Proof.Machine.execMand o s
  | .mor o => Sys2Proof.Machine.execMor o s
  | .mxor o => Sys2Proof.Machine.execMxor o s
  | .mandn o => Sys2Proof.Machine.execMandn o s
  | .mnot o => Sys2Proof.Machine.execMnot o s
  | .mmov o => Sys2Proof.Machine.execMmov o s
  | .mmovImm64 o => Sys2Proof.Machine.execMmovImm64 o s
  | .mrdem o => Sys2Proof.Machine.execMrdem o s
  | .mwrem o => Sys2Proof.Machine.execMwrem o s
  | .mpopc o => Sys2Proof.Machine.execMpopc o s
  | .mffs o => Sys2Proof.Machine.execMffs o s
  | .mfroms o => Sys2Proof.Machine.execMfroms o s
  | .mtos o => Sys2Proof.Machine.execMtos o s
  | .br o => Sys2Proof.Machine.execBr o s
  | .brmz o => Sys2Proof.Machine.execBrmz o s
  | .brmnz o => Sys2Proof.Machine.execBrmnz o s
  | .call o => Sys2Proof.Machine.execCall o s
  | .ret o => Sys2Proof.Machine.execRet o s
  | .jmp o => Sys2Proof.Machine.execJmp o s
  | .srd o => Sys2Proof.Machine.execSrd o s
  | .swr o => Sys2Proof.Machine.execSwr o s
  | .safept o => Sys2Proof.Machine.execSafept o s
  | .exit sw => Sys2Proof.Machine.execExit sw s
  | .sbwait o => Sys2Proof.Machine.execSbwait o s
  | .sbmark o => Sys2Proof.Machine.execSbmark o s
  | .trap o => Sys2Proof.Machine.execTrap o s
  | .tret sw => Sys2Proof.Machine.execTret sw s
  | .tretReg o => Sys2Proof.Machine.execTretReg o s
  | .brk sw => Sys2Proof.Machine.execBrk sw s
  | .vadd o => Sys2Proof.Machine.execVadd o s
  | .vaddImm o => Sys2Proof.Machine.execVaddImm o s
  | .vsub o => Sys2Proof.Machine.execVsub o s
  | .vsubImm o => Sys2Proof.Machine.execVsubImm o s
  | .vmul o => Sys2Proof.Machine.execVmul o s
  | .vmulImm o => Sys2Proof.Machine.execVmulImm o s
  | .vmulh o => Sys2Proof.Machine.execVmulh o s
  | .vmulhImm o => Sys2Proof.Machine.execVmulhImm o s
  | .vmad o => Sys2Proof.Machine.execVmad o s
  | .vmadImm o => Sys2Proof.Machine.execVmadImm o s
  | .vdiv o => Sys2Proof.Machine.execVdiv o s
  | .vdivImm o => Sys2Proof.Machine.execVdivImm o s
  | .vrem o => Sys2Proof.Machine.execVrem o s
  | .vremImm o => Sys2Proof.Machine.execVremImm o s
  | .vmin o => Sys2Proof.Machine.execVmin o s
  | .vminImm o => Sys2Proof.Machine.execVminImm o s
  | .vmax o => Sys2Proof.Machine.execVmax o s
  | .vmaxImm o => Sys2Proof.Machine.execVmaxImm o s
  | .vabs o => Sys2Proof.Machine.execVabs o s
  | .vneg o => Sys2Proof.Machine.execVneg o s
  | .vand o => Sys2Proof.Machine.execVand o s
  | .vandImm o => Sys2Proof.Machine.execVandImm o s
  | .vor o => Sys2Proof.Machine.execVor o s
  | .vorImm o => Sys2Proof.Machine.execVorImm o s
  | .vxor o => Sys2Proof.Machine.execVxor o s
  | .vxorImm o => Sys2Proof.Machine.execVxorImm o s
  | .vnot o => Sys2Proof.Machine.execVnot o s
  | .vshl o => Sys2Proof.Machine.execVshl o s
  | .vshlImm o => Sys2Proof.Machine.execVshlImm o s
  | .vshr o => Sys2Proof.Machine.execVshr o s
  | .vshrImm o => Sys2Proof.Machine.execVshrImm o s
  | .vsra o => Sys2Proof.Machine.execVsra o s
  | .vsraImm o => Sys2Proof.Machine.execVsraImm o s
  | .vclz o => Sys2Proof.Machine.execVclz o s
  | .vpopc o => Sys2Proof.Machine.execVpopc o s
  | .vsel o => Sys2Proof.Machine.execVsel o s
  | .vcmp o => Sys2Proof.Machine.execVcmp o s
  | .vcmpImm o => Sys2Proof.Machine.execVcmpImm o s
  | .vmov o => Sys2Proof.Machine.execVmov o s
  | .vmovs o => Sys2Proof.Machine.execVmovs o s
  | .vfadd o => Sys2Proof.Machine.execVfadd o s
  | .vfaddImm o => Sys2Proof.Machine.execVfaddImm o s
  | .vfsub o => Sys2Proof.Machine.execVfsub o s
  | .vfsubImm o => Sys2Proof.Machine.execVfsubImm o s
  | .vfmul o => Sys2Proof.Machine.execVfmul o s
  | .vfmulImm o => Sys2Proof.Machine.execVfmulImm o s
  | .vffma o => Sys2Proof.Machine.execVffma o s
  | .vffmaImm o => Sys2Proof.Machine.execVffmaImm o s
  | .vfmin o => Sys2Proof.Machine.execVfmin o s
  | .vfminImm o => Sys2Proof.Machine.execVfminImm o s
  | .vfmax o => Sys2Proof.Machine.execVfmax o s
  | .vfmaxImm o => Sys2Proof.Machine.execVfmaxImm o s
  | .vfabs o => Sys2Proof.Machine.execVfabs o s
  | .vfneg o => Sys2Proof.Machine.execVfneg o s
  | .vfcmp o => Sys2Proof.Machine.execVfcmp o s
  | .vfcmpImm o => Sys2Proof.Machine.execVfcmpImm o s
  | .vcvt o => Sys2Proof.Machine.execVcvt o s
  | .vex2 o => Sys2Proof.Machine.execVex2 o s
  | .vlg2 o => Sys2Proof.Machine.execVlg2 o s
  | .vrcp o => Sys2Proof.Machine.execVrcp o s
  | .vrsq o => Sys2Proof.Machine.execVrsq o s
  | .vsqrt o => Sys2Proof.Machine.execVsqrt o s
  | .vfdiv o => Sys2Proof.Machine.execVfdiv o s
  | .vperm o => Sys2Proof.Machine.execVperm o s
  | .vbcast o => Sys2Proof.Machine.execVbcast o s
  | .vscan o => Sys2Proof.Machine.execVscan o s
  | .vred o => Sys2Proof.Machine.execVred o s
  | .vtopk o => Sys2Proof.Machine.execVtopk o s
  | .vhist o => Sys2Proof.Machine.execVhist o s
  | .vdraw o => Sys2Proof.Machine.execVdraw o s
  | .dmerge o => Sys2Proof.Machine.execDmerge o s
  | .wclr h => Sys2Proof.Machine.execWclr h s
  | .wadd o => Sys2Proof.Machine.execWadd o s
  | .wdot o => Sys2Proof.Machine.execWdot o s
  | .wrnd o => Sys2Proof.Machine.execWrnd o s
  | .wget o => Sys2Proof.Machine.execWget o s
  | .wset o => Sys2Proof.Machine.execWset o s
  | .vld o => Sys2Proof.Machine.execVld o s
  | .vst o => Sys2Proof.Machine.execVst o s
  | .vatom o => Sys2Proof.Machine.execVatom o s
  | .vlds o => Sys2Proof.Machine.execVlds o s
  | .vsts o => Sys2Proof.Machine.execVsts o s
  | .vatoms o => Sys2Proof.Machine.execVatoms o s
  | .tld o => Sys2Proof.Machine.execTld o s
  | .tst o => Sys2Proof.Machine.execTst o s
  | .vprefL1 o => Sys2Proof.Machine.execVprefL1 o s
  | .vprefLlc o => Sys2Proof.Machine.execVprefLlc o s
  | .bset o => Sys2Proof.Machine.execBset o s
  | .phaseBlk h => Sys2Proof.Machine.execPhaseBlk h s
  | .phaseDie h => Sys2Proof.Machine.execPhaseDie h s
  | .claim o => Sys2Proof.Machine.execClaim o s
  | .tcopy o => Sys2Proof.Machine.execTcopy o s
  | .twait o => Sys2Proof.Machine.execTwait o s
  | .twaitImm o => Sys2Proof.Machine.execTwaitImm o s
  | .tlrd o => Sys2Proof.Machine.execTlrd o s
  | .tcset o => Sys2Proof.Machine.execTcset o s
  | .tzero o => Sys2Proof.Machine.execTzero o s
  | .tmma o => Sys2Proof.Machine.execTmma o s
  | .tmmaSparse o => Sys2Proof.Machine.execTmmaSparse o s
  | .tconv o => Sys2Proof.Machine.execTconv o s
  | .tdraw o => Sys2Proof.Machine.execTdraw o s
  | .tmovTv o => Sys2Proof.Machine.execTmovTv o s
  | .tmovVt o => Sys2Proof.Machine.execTmovVt o s
  | .xlook o => Sys2Proof.Machine.execXlook o s
  | .xlookHold o => Sys2Proof.Machine.execXlookHold o s
  | .xdrop o => Sys2Proof.Machine.execXdrop o s
  | .xpark o => Sys2Proof.Machine.execXpark o s
  | .xfetch o => Sys2Proof.Machine.execXfetch o s
  | .xpin o => Sys2Proof.Machine.execXpin o s
  | .xunpin o => Sys2Proof.Machine.execXunpin o s
  | .xstat o => Sys2Proof.Machine.execXstat o s
  | .qres o => Sys2Proof.Machine.execQres o s
  | .qput o => Sys2Proof.Machine.execQput o s
  | .qpush o => Sys2Proof.Machine.execQpush o s
  | .qget o => Sys2Proof.Machine.execQget o s
  | .qpeek o => Sys2Proof.Machine.execQpeek o s
  | .qcount o => Sys2Proof.Machine.execQcount o s
  | .qsleep o => Sys2Proof.Machine.execQsleep o s
  | .qwake o => Sys2Proof.Machine.execQwake o s
  | .qrel o => Sys2Proof.Machine.execQrel o s
  | .qrelMrg o => Sys2Proof.Machine.execQrelMrg o s
  | .qfence h => Sys2Proof.Machine.execQfence h s
  | .qmerge o => Sys2Proof.Machine.execQmerge o s
  | .qscatter o => Sys2Proof.Machine.execQscatter o s
  | .qcurrd o => Sys2Proof.Machine.execQcurrd o s
  | .qcurwr o => Sys2Proof.Machine.execQcurwr o s
  | .qsysRes o => Sys2Proof.Machine.execQsysRes o s
  | .qsysPut o => Sys2Proof.Machine.execQsysPut o s
  | .qsysPush o => Sys2Proof.Machine.execQsysPush o s
  | .qsysGet o => Sys2Proof.Machine.execQsysGet o s
  | .qsysPeek o => Sys2Proof.Machine.execQsysPeek o s
  | .qsysCount o => Sys2Proof.Machine.execQsysCount o s
  | .qsysSleep o => Sys2Proof.Machine.execQsysSleep o s
  | .qsysWake o => Sys2Proof.Machine.execQsysWake o s
  | .qsysRel o => Sys2Proof.Machine.execQsysRel o s
  | .qsysFence h => Sys2Proof.Machine.execQsysFence h s
  | .qsysMerge o => Sys2Proof.Machine.execQsysMerge o s
  | .reset => Sys2Proof.Machine.execReset s
  | .lehrStageAEnd => Sys2Proof.Machine.execLehrStageAEnd s
  | .socketBringUp => Sys2Proof.Machine.execSocketBringUp s
  | .stageCWipeEnd => Sys2Proof.Machine.execStageCWipeEnd s
  | .clusterWake => Sys2Proof.Machine.execClusterWake s
  | .clusterWakeRequest => Sys2Proof.Machine.execClusterWakeRequest s
  | .clusterGate => Sys2Proof.Machine.execClusterGate s
  | .hostConfigRequest => Sys2Proof.Machine.execHostConfigRequest s
  | .dievfReqWrite => Sys2Proof.Machine.execDievfReqWrite s
  | .powerStepDown => Sys2Proof.Machine.execPowerStepDown s
  | .powerStepUp => Sys2Proof.Machine.execPowerStepUp s
  | .thermalThrottle => Sys2Proof.Machine.execThermalThrottle s
  | .thermalRecover => Sys2Proof.Machine.execThermalRecover s
  | .thermalTrip => Sys2Proof.Machine.execThermalTrip s
  | .thermrecWrite => Sys2Proof.Machine.execThermrecWrite s
  | .homeFailure => Sys2Proof.Machine.execHomeFailure s
  | .objectEvacuate => Sys2Proof.Machine.execObjectEvacuate s
  | .qttShootdown => Sys2Proof.Machine.execQttShootdown s
  | .queueCreate => Sys2Proof.Machine.execQueueCreate s
  | .queueClose => Sys2Proof.Machine.execQueueClose s
  | .queueDestroy => Sys2Proof.Machine.execQueueDestroy s
  | .queueForce => Sys2Proof.Machine.execQueueForce s
  | .queueReserve => Sys2Proof.Machine.execQueueReserve s
  | .queueWrite => Sys2Proof.Machine.execQueueWrite s
  | .queuePush => Sys2Proof.Machine.execQueuePush s
  | .queueDequeue => Sys2Proof.Machine.execQueueDequeue s
  | .queuePeek => Sys2Proof.Machine.execQueuePeek s
  | .queueCount => Sys2Proof.Machine.execQueueCount s
  | .queueSleep => Sys2Proof.Machine.execQueueSleep s
  | .queueWake => Sys2Proof.Machine.execQueueWake s
  | .sleeperWithdraw => Sys2Proof.Machine.execSleeperWithdraw s
  | .queueRelease => Sys2Proof.Machine.execQueueRelease s
  | .mergeRelease => Sys2Proof.Machine.execMergeRelease s
  | .marverEvictionArrival => Sys2Proof.Machine.execMarverEvictionArrival s
  | .roundClose => Sys2Proof.Machine.execRoundClose s
  | .sleeperParkRetry => Sys2Proof.Machine.execSleeperParkRetry s
  | .replyReceive => Sys2Proof.Machine.execReplyReceive s
  | .wakeReceive => Sys2Proof.Machine.execWakeReceive s
  | .linkTraining => Sys2Proof.Machine.execLinkTraining s
  | .fabcfgWrite => Sys2Proof.Machine.execFabcfgWrite s
  | .messageAdmit => Sys2Proof.Machine.execMessageAdmit s
  | .switchForward => Sys2Proof.Machine.execSwitchForward s
  | .frameReceive => Sys2Proof.Machine.execFrameReceive s
  | .authFailLinkDown => Sys2Proof.Machine.execAuthFailLinkDown s
  | .ackSend => Sys2Proof.Machine.execAckSend s
  | .ackReceive => Sys2Proof.Machine.execAckReceive s
  | .retransmitTimeout => Sys2Proof.Machine.execRetransmitTimeout s
  | .flushArrival => Sys2Proof.Machine.execFlushArrival s
  | .flushackReceive => Sys2Proof.Machine.execFlushackReceive s
  | .flushRetransmit => Sys2Proof.Machine.execFlushRetransmit s
  | .rateTick => Sys2Proof.Machine.execRateTick s
  | .unreachableDeclare => Sys2Proof.Machine.execUnreachableDeclare s
  | .fabunrWrite => Sys2Proof.Machine.execFabunrWrite s
  | .flowresetRequest => Sys2Proof.Machine.execFlowresetRequest s
  | .flowresetAnswer => Sys2Proof.Machine.execFlowresetAnswer s
  | .flowresetRetry => Sys2Proof.Machine.execFlowresetRetry s
  | .keyInstall => Sys2Proof.Machine.execKeyInstall s
  | .keySwitch => Sys2Proof.Machine.execKeySwitch s
  | .keyRetire => Sys2Proof.Machine.execKeyRetire s
  | .frameCounterExhaust => Sys2Proof.Machine.execFrameCounterExhaust s
  | .linkFailure => Sys2Proof.Machine.execLinkFailure s
  | .flnkDisableWrite => Sys2Proof.Machine.execFlnkDisableWrite s
  | .accessTableWrite => Sys2Proof.Machine.execAccessTableWrite s
  | .lockInterface => Sys2Proof.Machine.execLockInterface s
  | .startInterface => Sys2Proof.Machine.execStartInterface s
  | .stopInterface => Sys2Proof.Machine.execStopInterface s
  | .getInterfaceReport => Sys2Proof.Machine.execGetInterfaceReport s
  | .tenantWipe => Sys2Proof.Machine.execTenantWipe s
  | .bindingWrite => Sys2Proof.Machine.execBindingWrite s
  | .apertureDoorbell => Sys2Proof.Machine.execApertureDoorbell s
  | .apertureStatus => Sys2Proof.Machine.execApertureStatus s
  | .windowAccess => Sys2Proof.Machine.execWindowAccess s
  | .asidnew => Sys2Proof.Machine.execAsidnew s
  | .asidfree => Sys2Proof.Machine.execAsidfree s
  | .objnew => Sys2Proof.Machine.execObjnew s
  | .objfree => Sys2Proof.Machine.execObjfree s
  | .qnew => Sys2Proof.Machine.execQnew s
  | .qfree => Sys2Proof.Machine.execQfree s
  | .handles => Sys2Proof.Machine.execHandles s
  | .getVersion => Sys2Proof.Machine.execGetVersion s
  | .getCapabilities => Sys2Proof.Machine.execGetCapabilities s
  | .negotiateAlgorithms => Sys2Proof.Machine.execNegotiateAlgorithms s
  | .getDigests => Sys2Proof.Machine.execGetDigests s
  | .getCertificate => Sys2Proof.Machine.execGetCertificate s
  | .challenge => Sys2Proof.Machine.execChallenge s
  | .getMeasurements => Sys2Proof.Machine.execGetMeasurements s
  | .keyExchange => Sys2Proof.Machine.execKeyExchange s
  | .finish => Sys2Proof.Machine.execFinish s
  | .keyUpdate => Sys2Proof.Machine.execKeyUpdate s
  | .endSession => Sys2Proof.Machine.execEndSession s
  | .keyProg => Sys2Proof.Machine.execKeyProg s
  | .provision => Sys2Proof.Machine.execProvision s
  | .deploy => Sys2Proof.Machine.execDeploy s
  | .undeploy => Sys2Proof.Machine.execUndeploy s
  | .returnModule => Sys2Proof.Machine.execReturnModule s
  | .fwstage => Sys2Proof.Machine.execFwstage s
  | .mbReset => Sys2Proof.Machine.execMbReset s
  | .dieoff => Sys2Proof.Machine.execDieoff s
  | .mbnonceRead => Sys2Proof.Machine.execMbnonceRead s
  | .tierQuotaWrite => Sys2Proof.Machine.execTierQuotaWrite s
  | .atsInvalidation => Sys2Proof.Machine.execAtsInvalidation s
  | .pageResponse => Sys2Proof.Machine.execPageResponse s
  | .farTierTimeout => Sys2Proof.Machine.execFarTierTimeout s
  | .farTierLinkDown => Sys2Proof.Machine.execFarTierLinkDown s
  | .startElementConsume => Sys2Proof.Machine.execStartElementConsume s
  | .blockClaim => Sys2Proof.Machine.execBlockClaim s
  | .drrBind => Sys2Proof.Machine.execDrrBind s
  | .preemptDecision => Sys2Proof.Machine.execPreemptDecision s
  | .bindRecordWrite => Sys2Proof.Machine.execBindRecordWrite s
  | .preempt => Sys2Proof.Machine.execPreempt s
  | .killblk => Sys2Proof.Machine.execKillblk s
  | .killgrp => Sys2Proof.Machine.execKillgrp s
  | .resumegrp => Sys2Proof.Machine.execResumegrp s
  | .drainComplete => Sys2Proof.Machine.execDrainComplete s
  | .saveComplete => Sys2Proof.Machine.execSaveComplete s
  | .blockRetire => Sys2Proof.Machine.execBlockRetire s
  | .eventRingHeadWrite => Sys2Proof.Machine.execEventRingHeadWrite s
  | .retiredEvent => Sys2Proof.Machine.execRetiredEvent s
  | .faultEvent => Sys2Proof.Machine.execFaultEvent s
  | .watchdogExpiry => Sys2Proof.Machine.execWatchdogExpiry s
  | .gangstart => Sys2Proof.Machine.execGangstart s
  | .gangAck => Sys2Proof.Machine.execGangAck s
  | .gangTimeout => Sys2Proof.Machine.execGangTimeout s
  | .gangDone => Sys2Proof.Machine.execGangDone s
  | .gangabort => Sys2Proof.Machine.execGangabort s
  | .gangFinalStatus => Sys2Proof.Machine.execGangFinalStatus s
  | .register => Sys2Proof.Machine.execRegister s
  | .unregister => Sys2Proof.Machine.execUnregister s
  | .split => Sys2Proof.Machine.execSplit s
  | .unsplit => Sys2Proof.Machine.execUnsplit s
  | .evict => Sys2Proof.Machine.execEvict s
  | .pool => Sys2Proof.Machine.execPool s
  | .fetchFrameTake => Sys2Proof.Machine.execFetchFrameTake s
  | .evictionDone => Sys2Proof.Machine.execEvictionDone s
  | .fetchLanding => Sys2Proof.Machine.execFetchLanding s
  | .resultReturn => Sys2Proof.Machine.execResultReturn s
  | .faultResolve => Sys2Proof.Machine.execFaultResolve s
  | .translationShootdown => Sys2Proof.Machine.execTranslationShootdown s
  | .claimServe => Sys2Proof.Machine.execClaimServe s
  | .clusterFuse => Sys2Proof.Machine.execClusterFuse s
  | .copyComplete => Sys2Proof.Machine.execCopyComplete s
  | .dispatchComplete => Sys2Proof.Machine.execDispatchComplete s
  | .scrub => Sys2Proof.Machine.execScrub s
  | .uncorrectableError => Sys2Proof.Machine.execUncorrectableError s
  | .sampleExpiry => Sys2Proof.Machine.execSampleExpiry s
  | .smpcfgWrite => Sys2Proof.Machine.execSmpcfgWrite s
  | .fdrbaseWrite => Sys2Proof.Machine.execFdrbaseWrite s
  | .dbgctlHaltWrite => Sys2Proof.Machine.execDbgctlHaltWrite s
  | .imgloadWrite => Sys2Proof.Machine.execImgloadWrite s
  | .imageLoad => Sys2Proof.Machine.execImageLoad s
  | .registerWrite => Sys2Proof.Machine.execRegisterWrite s
  | .frameAlignmentLoss => Sys2Proof.Machine.execFrameAlignmentLoss s
  | .farTierLinkUp => Sys2Proof.Machine.execFarTierLinkUp s
  | .tileInstructionRetire => Sys2Proof.Machine.execTileInstructionRetire s
  | .copyChunk => Sys2Proof.Machine.execCopyChunk s
  | .publishLineAccept => Sys2Proof.Machine.execPublishLineAccept s
  | .atomicPerform => Sys2Proof.Machine.execAtomicPerform s

end Sys2Proof.Machine
end

