-- ==== Sys2Proof/Machine/Schedule.lean ====
section
/-! DEFINITION. What moves next when nothing has been asked for: the machine's own turns (log 18: DESIGN CHOICE). A turn whose event is not
enabled changes nothing, so the lists name what may move. -/
namespace Sys2Proof.Machine

def ev (i : Instr) : Turn := .device i {}
def evDie (i : Instr) (d : Nat) : Turn := .device i { die := BitVec.ofNat 3 d }
def evIdx (i : Instr) (d n : Nat) : Turn := .device i { die := BitVec.ofNat 3 d, idx := n }
def evNode (i : Instr) (d : Nat) (r : NodeRef) : Turn := .device i { die := BitVec.ofNat 3 d, node := r }
def evAsid (i : Instr) (d a : Nat) : Turn := .device i { die := BitVec.ofNat 3 d, asid := BitVec.ofNat 12 a }
def evTenant (i : Instr) (t : Nat) : Turn := .device i { tenant := BitVec.ofNat 6 t }
def evFlow (i : Instr) (f : Flow) : Turn := .device i { flow := f }
def evLink (i : Instr) (l : Nat) : Turn := .device i { link := BitVec.ofNat 6 l }
def evPort (i : Instr) (k n : Nat) : Turn := .device i { die := BitVec.ofNat 3 (k / 16), port := BitVec.ofNat 4 (k % 16), idx := n }
def evPkg (i : Instr) (k : Nat) : Turn := .device i { die := BitVec.ofNat 3 (k / 512), pkg := BitVec.ofNat 9 (k % 512) }

/-- An event of a slot, with a number and a set of lanes. -/
def evSlot (i : Instr) (k : Nat) (n : Nat := 0) (lanes : W32 := 0) : Turn :=
  .device i { die := BitVec.ofNat 3 (slotDie k), core := BitVec.ofNat 8 (slotCoreNo k), slot := BitVec.ofNat 4 (k % 16), idx := n,
              lanes := lanes }

def evCore (i : Instr) (ck : Nat) (a : Nat := 0) : Turn :=
  .device i { die := BitVec.ofNat 3 (ck / 160), core := BitVec.ofNat 8 (ck % 160), addr := a }

/-! ### The lehr, samples and cores -/

def bootTurns (s : State) : List Turn :=
  match s.lehr with
  | .stageA => [ev .lehrStageAEnd]
  | .stageB _ => [ev .socketBringUp]
  | .stageC => [ev .stageCWipeEnd]
  | .stageD _ => [ev .clusterWake]
  | .done => if s.wakeQ.isEmpty then [] else [ev .clusterWake]

/-- Cores with a sample to take: once the core has had its cycle, the sample comes; before that, the core's turn (R197,
R198). -/
def sampleTurns (s : State) : List Turn :=
  (s.cores.filter fun c => (s.die (c.1 / 160)).halted.isNone && c.2.samp.any fun e => !e.2.due.isEmpty).map fun c =>
    if cycleDone s c.1 then evCore .sampleExpiry c.1 else .core (c.1 / 160) (c.1 % 160)

/-- The cores that have a group to issue from and have not had their cycle. -/
def coreTurns (s : State) : List Turn :=
  (((s.slots.map fun e => e.1 / 16).eraseDups).filter fun c => !cycleDone s c).map fun c => .core (c / 160) (c % 160)

/-! ### Groups and blocks -/

/-- What an outstanding operation may do. -/
def outstTurns (k : Nat) (o : Outst) : List Turn :=
  let back := evSlot .resultReturn k o.id 0xFFFFFFFF
  match o.op with
  | .mem m => (match m.kind with
    | .atom _ _ _ =>
      if m.scr || o.res.isSome then [back]
      else (m.lanes.filter fun x => !(m.got.any fun p => p.1 == x.lane)).map fun x => evSlot .atomicPerform k o.id (BitVec.ofNat 32 x.lane)
    | _ => [back])
  | .queue q => (match q.st with
    | .parked _ => [back, evSlot .sleeperParkRetry k]
    | _ => [back])
  | _ => [back]

def slotTurns (e : Nat × Slot) : List Turn :=
  let k := e.1
  let g := e.2
  g.outst.flatMap (outstTurns k) ++ (g.board.map fun b => evSlot .tileInstructionRetire k b.id) ++
    (g.pubs.map fun p => evCore .publishLineAccept (k / 16) p.1) ++
    (match g.bind.sstate with
     | .draining => [evSlot .drainComplete k]
     | .saving => [evSlot .saveComplete k]
     | .retiring => [evSlot .blockRetire k]
     | _ => [])

/-! ### Messages, queues and the fabric -/

/-- The event that performs a message. -/
def msgEvent (m : Msg) : Instr :=
  match m.typ with
  | .write => .queueWrite
  | .reserve => .queueReserve
  | .push => .queuePush
  | .dequeue => if m.mode < 2 then .queueDequeue else if m.mode = 2 then .queuePeek else .queueCount
  | .merge => .marverEvictionArrival
  | .release => if m.mrg then .mergeRelease else .queueRelease
  | .sleep => if m.withdraw then .sleeperWithdraw else if m.mode < 2 then .queueSleep else .queueWake
  | .flush => .flushArrival
  | .reply => .replyReceive
  | .wake => .wakeReceive
  | .flushAck => .flushackReceive
  | .ack => .ackReceive
  | .flowReset => if m.n = 0 then .flowresetRequest else .flowresetAnswer

def flowTurns (e : Flow × FlowState) : List Turn :=
  let f := e.1
  let x := e.2
  (((x.arrived.take 1) ++ x.arrived.filter fun m => !numbered m.typ).map fun m => evFlow (msgEvent m) f) ++
    (if x.ackSince.isSome then [evFlow .ackSend f] else []) ++ (if x.unacked.isEmpty then [] else [evFlow .retransmitTimeout f]) ++
    (if x.flushes.isEmpty then [] else [evFlow .flushRetransmit f]) ++ if x.resetAt.isSome then [evFlow .flowresetRetry f] else []

def limiterTurns (s : State) (e : Nat × Limiter) : List Turn :=
  (if e.2.waiting.isEmpty then [] else [evPkg .messageAdmit e.1]) ++ (if e.2.tickAt + 10000 ≤ s.time then [evPkg .rateTick e.1] else []) ++
    if !e.2.unreachable && unreachDue s (e.1 / 512) (BitVec.ofNat 9 (e.1 % 512)) then [evPkg .unreachableDeclare e.1] else []

def linkTurns (e : Nat × Link) : List Turn :=
  (if e.2.atSwitch.isEmpty then [] else [evLink .switchForward e.1]) ++ (if e.2.rx.isEmpty then [] else [evLink .frameReceive e.1]) ++
    (if 16 ≤ e.2.fails.length then [evLink .authFailLinkDown e.1] else []) ++ (if rxRetires e.2 || txRetires e.2 then [evLink .keyRetire e.1] else []) ++
    if e.2.state = .up ∧ 2 ^ 48 ≤ e.2.txSlot.ctr then [evLink .frameCounterExhaust e.1] else []

def portTurns (e : Nat × Port) : List Turn :=
  if e.2.result ≠ .busy then []
  else match e.2.op.toNat with
    | 1 => [evPort .queueCreate e.1 0]
    | 2 => [evPort .queueClose e.1 0]
    | 3 => [evPort .queueDestroy e.1 0]
    | _ => [evPort .queueForce e.1 0]

def queueTurns (e : Nat × Queue) : List Turn :=
  if roundDue e.2 then [evPort .roundClose (e.1 / 65536) (e.1 % 65536)] else []

/-! ### Dies and their firmware -/

/-- The binding of blocks on the awake cores of a die. -/
def bindTurns (s : State) (d : Nat) (x : Die) : List Turn :=
  if x.rqs.isEmpty then []
  else (x.rqs.flatMap fun q => [evNode .blockClaim d (queueNode q), evNode .preemptDecision d (queueNode q)]) ++
    ((dieCores d).filter fun c => (s.core c).awake).map fun c => evCore .drrBind c

/-- The event ring: the firmware handles an event, and gives its room back. -/
def ringTurns (d : Nat) (x : Die) : List Turn :=
  (if x.drseen = x.drtail then [] else [evDie .retiredEvent d, evDie .faultEvent d]) ++
    if x.drhead = x.drseen then [] else [.device .eventRingHeadWrite { die := BitVec.ofNat 3 d, v := x.drseen.setWidth 64 }]

def dieTurns (s : State) (e : Nat × Die) : List Turn :=
  let d := e.1
  let x := e.2
  (x.copies.flatMap fun c => [evIdx .copyChunk d c.id, evIdx .copyComplete d c.id]) ++
    (x.dispatches.map fun y => evIdx .dispatchComplete d y.id) ++
    (x.fetches.flatMap fun f => [evIdx .fetchFrameTake d f.id, evIdx .fetchLanding d f.id]) ++
    (if x.faults.isEmpty then [] else [evDie .faultResolve d]) ++ (if x.claims.isEmpty then [] else [evDie .claimServe d]) ++
    bindTurns s d x ++ ringTurns d x

def ertTurns (e : Nat × Ert) : List Turn :=
  if e.2.state = .evicting then [evIdx .evictionDone (e.1 / 65536) (e.1 % 65536)] else []

/-- The launch queues and the expert control queues of an ASID. -/
def asidTurns (s : State) (e : Nat × Asid) : List Turn :=
  (e.2.launchQ.flatMap fun q => if (s.qref (qrefOf q.2)).len = 0 then [] else [evAsid .startElementConsume q.1 e.1]) ++
    e.2.ctrlQ.flatMap fun q =>
      if (s.qref (qrefOf q.2)).len = 0 then []
      else [.register, .unregister, .split, .unsplit, .evict, .pool].map fun i => evAsid i q.1 e.1

/-- Watchdogs and the timers of gangs. -/
def graphTurns (g : Graph) : List Turn :=
  (List.range g.nodes.length).flatMap fun j =>
    (if (g.node j).state = .ready ∧ (g.node j).wdog ≠ 0 then [evNode .watchdogExpiry 0 (nodeRef g j)] else []) ++
      if (g.node j).gang.isSome then [evNode .gangTimeout 0 (nodeRef g j)] else []

/-! ### Tenants and the module -/

def ifaceTurns (e : Nat × Iface) : List Turn :=
  let t := e.1
  let i := e.2
  (if i.result ≠ .busy then []
   else match i.op.toNat with
     | 1 => [evTenant .asidnew t]
     | 2 => [evTenant .asidfree t]
     | 3 => [evTenant .objnew t]
     | 4 => [evTenant .objfree t]
     | 5 => [evTenant .qnew t]
     | 6 => [evTenant .qfree t]
     | _ => [evTenant .handles t]) ++
    (if i.imgstat = 1 then [evTenant .imageLoad t] else []) ++ (if i.wiping then [evTenant .tenantWipe t] else []) ++
    (i.apertures.filter fun a => a.2.result.isSome).map fun a => .device .apertureStatus { tenant := BitVec.ofNat 6 t, idx := a.1 }

def qttTurns (e : Nat × Qtte) : List Turn :=
  ((List.range 8).filter fun d => e.2.left.getLsbD d).map fun d =>
    .device .qttShootdown { die := BitVec.ofNat 3 d, asid := BitVec.ofNat 12 (e.1 / 65536), idx := e.1 % 65536 }

def mgmtTurns (s : State) : List Turn :=
  (if s.mgmt.mbstat ≠ .busy then []
   else match s.mgmt.mbcmd.toNat with
     | 1 => [ev .provision]
     | 2 => [ev .deploy]
     | 3 => [ev .undeploy]
     | 4 => [ev .returnModule]
     | 5 => [ev .fwstage]
     | 6 => [ev .mbReset]
     | _ => [ev .dieoff]) ++
    ((List.range 8).filter fun d => !dieOnline s d && (nextEvacuee s d).isSome).map (evDie .objectEvacuate)

/-- The turns that the machine may take by itself; time passes among them. A sample that is due comes before everything else,
so that it sees its own cycle. -/
def ownTurns (s : State) : List Turn :=
  match sampleTurns s with
  | [] =>
    .pass 1 :: bootTurns s ++ coreTurns s ++ s.slots.flatMap slotTurns ++ s.flows.flatMap flowTurns ++
      s.limiters.flatMap (limiterTurns s) ++ s.links.flatMap linkTurns ++ s.ports.flatMap portTurns ++
      s.queues.flatMap queueTurns ++ s.dies.flatMap (dieTurns s) ++ s.erts.flatMap ertTurns ++ s.asids.flatMap (asidTurns s) ++
      s.graphs.flatMap graphTurns ++ s.ifaces.flatMap ifaceTurns ++ s.qtt.flatMap qttTurns ++ mgmtTurns s
  | ts => ts

/-- The turn that the machine takes by itself: each in its rotation (log 18: DESIGN CHOICE). -/
def nextTurn (s : State) : Turn :=
  let ts := ownTurns s
  ts.getD (s.turn % ts.length) (.pass 1)

end Sys2Proof.Machine
end

