-- ==== Sys2Proof/Machine/Turns.lean ====
section
/-! DEFINITION. One turn of the machine: an event of the device, a core that issues, time, an arrival from the fabric, or what the
outside world does beside the events. -/
namespace Sys2Proof.Machine

/-- The next instruction of a group issues, or the group traps before it (R280). -/
def issueFrom (s : State) (k : Nat) : Out :=
  match fetchNext (turnTo s k) with
  | .error s' => .next s'
  | .ok i => exec i (turnTo s k)

/-- The instruction at a pc of a group. -/
def wordOfGroup (s : State) (k : Nat) (pc : W64) : Except Reject Instr :=
  decode (lineSlot (fetchLine s (slotDie k) (s.slot k).bind.asid.toNat pc) (pc.toNat % 8))

/-- The second instruction of a pair issues in the same cycle; `t` is the state after the first (R170). -/
def issueSecond (t : State) (k : Nat) (pc : W64) : Out :=
  match issueFrom t k with
  | .next u => .next (noteIssue (keepLast t u k) k (u.slot k).last.isSome pc)
  | r => r

/-- What follows the try of a group that has not been found to wait: `s` is the state before it and `t` after it. -/
def afterTry (s t : State) (k : Nat) : Out :=
  let pc := (s.slot k).pc
  if (t.slot k).last.isNone then .next (keepLast s t k)
  else if pairs t k (s.slot k) pc (match wordOfGroup s k pc with
      | .ok i => i
      | .error _ => .exit false) then issueSecond t k pc
  else .next (noteIssue t k false pc)

/-- A core tries its ready groups, the one whose last issue is oldest first, until one does not wait at issue (R169, R172). -/
def coreTries (ck : Nat) : Nat → List Nat → State → Out
  | 0, _, s => .next s
  | n + 1, tried, s =>
    match pickGroup s ck tried with
    | none => .next s
    | some k =>
      match issueFrom s k with
      | .next t => if (t.slot k).stall = .none then afterTry s t k else coreTries ck n (k :: tried) (keepLast s t k)
      | r => r

/-- Whether a group that has not issued would have waited at issue in the cycle, and why (R198); `s` is the state in which
the core chose. -/
def wouldStall (s : State) (k : Nat) : Stall :=
  match issueFrom s k with
  | .next u => (u.slot k).stall
  | _ => .none

/-- The core notes for a sample of this cycle why each ready group that has not issued waits (R198). -/
def noteStalls (s t : State) (ck : Nat) : State :=
  (coreSlots ck).foldl (fun t k =>
    if slotReady s k && (t.core ck).issued.map (·.1) != some (k % 16) then
      t.setSlot k { t.slot k with stall := wouldStall s k }
    else t) t

/-- A core has samples to take (R197). -/
def sampleDue (s : State) (ck : Nat) : Bool := (s.core ck).samp.any fun e => !e.2.due.isEmpty

/-- A core's cycle (R169, R170); a core that has had its cycle waits for the next one. -/
def coreTurn (s : State) (die core : Nat) : Out :=
  let ck := coreKey die core
  if hadCycle s ck then .next s
  else
    let b := (phased s ck).foldl settle (beginCycle s ck)
    match coreTries ck 16 [] b with
    | .next t => .next (if sampleDue b ck then noteStalls b t ck else t)
    | r => r

/-- Time passes: the links carry frames, the dies' clocks count, and acknowledgements fall due (R60, R68, R178). -/
def passTime (s : State) (ns : Nat) : State := ackDue (passCycles (passLinks s ns) ns)

/-- Cells from other packages reach the last-hop switch of a link (R59, R78). -/
def cellsArrive (s : State) (l : Nat) (cs : List Cell) : State :=
  let x := s.link l
  s.setLink l { x with atSwitch := x.atSwitch ++ cs }

/-- A frame is on its way to the package on a link (R65). -/
def frameArrives (s : State) (l : Nat) (f : LFrame) : State :=
  let x := s.link l
  s.setLink l { x with rx := x.rx ++ [f] }

/-- A turn. Only events of the device are asked for by name: instructions issue from their lines (log 18: DESIGN CHOICE). -/
def takeTurn (s : State) (t : Turn) : Out :=
  match t with
  | .device i a => if (encode i).isNone then exec i { s with arg := a } else .next s
  | .core d c => coreTurn s d c
  | .pass ns => .next (passTime s ns)
  | .cells l cs => .next (cellsArrive s l cs)
  | .frame l f => .next (frameArrives s l f)
  | .read a => readRegister { s with arg := a }
  | .socket k => .next (readSocket s k)
  | .grant n => .next { s with priAlloc := n }
  | .corrected d => .next (countCecc s d 1)
  | .flaw ck asid line n => .next (addFlaw s ck asid line n)
  | .firmware c => .next (firmwareAct s c)
  | .bindWake t p v => .next (bindWakeVector s t p v)

/-! ### A program placed from outside (log 19: DESIGN CHOICE) -/

/-- The parity of a line's eight stripes (R298). -/
def stripeParity (n : Nat) : Nat :=
  (List.range 8).foldl (fun p k =>
    if (List.range 60).foldl (fun b i => b ^^ n.testBit (60 * k + i)) false then p + 2 ^ k else p) 0

/-- A line with an instruction in slot 0 and NOP in the others, every slot a branch target, no pairs, version 1 (R296 to
R298). -/
def lineOfWord (w : Nat) : Nat := w + 2 ^ 480 * (2 ^ 17 + 31 * 2 ^ 12 + stripeParity w)

/-- The code object of the placed line: object 1 of ASID 0, one page at physical page 0 of die 0. -/
def placedObj : Obj :=
  { state := .valid, x := true, r := true, bound := 4096, exts := [⟨0, 1, true, false, 0, 0⟩] }

/-- The group that issues the placed line: all the registers a group can have (R154). -/
def placedSlot (g : Slot) : Slot :=
  { g with
    bind := { g.bind with sstate := .running, lead := 0, gidx := 0, gcntm1 := 0, asid := 0, sregs := 64, vreg16 := 16,
                          tiles := 8, scr4k := 64 }
    pc := 0x100000000000, em := 0xFFFFFFFF, exiting := false, pend := none, dfault := none, marked := false, aside := none,
    barrier := none, fpark := none, outst := [], twait := none, replay := none, last := none, count := 0 }

/-- The line, the object that holds it, and the group that issues from it; the core takes the next turn. -/
def placeWord (s : State) (nbits w : Nat) : State :=
  let s := s.setObj 0 1 placedObj
  let s := { s with mem := memStore (memClear s.mem 0 64) 0 (leBytes 64 (lineOfWord (w % 2 ^ nbits))) }
  let s := s.setSlot 0 (placedSlot (s.slot 0))
  let s := s.setCore 0 { s.core 0 with awake := true, cycle := none, flaws := [] }
  let s := s.setDie 0 { s.die 0 with halted := none }
  { s with slots := s.slots.map fun e => if e.1 ≠ 0 ∧ e.1 < 16 then (e.1, { e.2 with last := some 0 }) else e,
           agenda := .core 0 0 :: s.agenda }

end Sys2Proof.Machine
end

