-- ==== Sys2Proof/Machine/Step.lean ====
section
/-! DEFINITION. One step: the turn that the agenda names, or one of the machine's own. -/
namespace Sys2Proof.Machine

/-- The machine takes its next turn: the first of the agenda, or one of its own (log 18: DESIGN CHOICE). -/
def step (s : State) : Host.Outcome State Fault Refusal :=
  match s.agenda with
  | t :: r => takeTurn { s with agenda := r } t
  | [] => takeTurn { s with turn := s.turn + 1 } (nextTurn s)

/-- The state with an instruction as slot 0 of the line that group 0 of core 0 of die 0 issues from next (log 19: DESIGN CHOICE): a code
object of ASID 0 holds the line, the group is Running, and the core's turn comes first. -/
def State.withFetchWord (s : State) (nbits w : Nat) : State :=
  placeWord s nbits w

end Sys2Proof.Machine
end

