-- ==== Sys2Proof/Safety.lean ====
section
/-! DEFINITION. The terms that claims about the machine use: how an instruction completes, what it leaves as it was, what
makes a state sound, and the arithmetic of the operand types said apart from the meanings. -/
namespace Sys2Proof.Machine

/-! ### How an instruction completes -/

/-- `exec` answers a next state, and `P` holds of it. -/
def Completes (i : Instr) (s : State) (P : State → Prop) : Prop := ∃ t, exec i s = .next t ∧ P t

/-- The issuing group once an instruction has issued: `g` holds what the instruction itself changed, and the group goes on
at `pc`. The count rises (R166) unless the instruction replays (R399), the switch marker is that of the instruction (R185),
and the issue is the group's latest (R169). -/
def groupAfter (s : State) (g : Slot) (pc : W64) (sw : Bool) : Slot :=
  { g with pc := pc, count := if g.replay.isSome then g.count else g.count + 1, marked := sw,
           last := some (s.die (slotDie s.cur)).clock.toNat, stall := .none, replay := none }

/-- From `s` to `t` only slots have changed, and among them only the issuing group's, which is now `g`. -/
structure OnlyGroup (s t : State) (g : Slot) : Prop where
  group : t.slot s.cur = g
  others : ∀ k, k ≠ s.cur → t.slot k = s.slot k
  machine : { t with slots := s.slots } = s

/-- `i` issues, changes the issuing group to `g` and nothing else of the machine, and the group goes on at `pc`. -/
def GoesTo (i : Instr) (s : State) (g : Slot) (pc : W64) (sw : Bool) : Prop :=
  Completes i s fun t => OnlyGroup s t (groupAfter s g pc sw)

/-- `i` issues, changes the issuing group to `g` and nothing else of the machine, and the group goes on at the following
slot (R361). -/
def Does (i : Instr) (s : State) (g : Slot) (sw : Bool) : Prop := GoesTo i s g (nextPc g.pc) sw

/-- From `s` to `t` only slots and the next fresh name have changed: the issuing group has issued an operation under a fresh
name, which joins its outstanding operations with the result it has (R185), and goes on at the following slot. -/
structure Launched (s t : State) (g : Slot) (op : OpKind) (res : Option Result) (sw : Bool) : Prop where
  group : t.slot s.cur = groupAfter s { g with outst := g.outst ++ [⟨s.ids, g.pc, op, res⟩] } (nextPc g.pc) sw
  others : ∀ k, k ≠ s.cur → t.slot k = s.slot k
  name : t.ids = s.ids + 1
  machine : { t with slots := s.slots, ids := s.ids } = s

/-- `i` issues an operation of variable latency and changes nothing else. -/
def Launches (i : Instr) (s : State) (op : OpKind) (res : Option Result) (sw : Bool) : Prop :=
  Completes i s fun t => Launched s t s.grp op res sw

/-- From `s` to `t` a tile instruction has been accepted under a fresh name (R174, R187, R188): it joins the group's scoreboard
with the tiles it reads and writes, the matrix engine's order when it is one of the engine's, and the group's outstanding
operations when it will bring a vector result; the group goes on, and nothing else has changed. -/
structure Accepted (s t : State) (reads writes : List Nat) (engine : Bool) (kind : TileKind) (later sw : Bool) : Prop where
  group : t.slot s.cur = groupAfter s
    { s.grp with board := s.grp.board ++ [⟨s.ids, s.grp.pc, reads, writes, engine, kind⟩],
                 outst := if later then s.grp.outst ++ [⟨s.ids, s.grp.pc, .wait, none⟩] else s.grp.outst } (nextPc s.grp.pc) sw
  others : ∀ k, k ≠ s.cur → t.slot k = s.slot k
  order : engine = true → t.core (s.cur / 16) =
    { s.core (s.cur / 16) with engine := (s.core (s.cur / 16)).engine ++ [(s.cur, s.ids)] }
  cores : ∀ c, engine = false ∨ c ≠ s.cur / 16 → t.core c = s.core c
  name : t.ids = s.ids + 1
  machine : { t with slots := s.slots, cores := s.cores, ids := s.ids } = s

/-- A trap sends the issuing group to its handler (R282, R283): the group keeps its registers, the frame says where it was,
and it goes on at slot 0 of the handler's line with every lane on. `arg` and `pcs` are the frame's words. -/
structure EntersHandler (s t : State) (tr : Trap) : Prop where
  frame : (t.slot s.cur).frame =
    { trapw := trapWord tr, fpc := tr.fpc, rpc := tr.rpc, more := tr.more, em := s.grp.em, arg0 := tr.arg0, arg1 := tr.arg1,
      bcount := BitVec.ofNat 14 s.grp.count }
  handler : (t.slot s.cur).inHandler = true
  lanes : (t.slot s.cur).em = 0xFFFFFFFF
  pc : (t.slot s.cur).pc = lineOf (s.trapv s.grp.bind)
  registers : (t.slot s.cur).s = s.grp.s ∧ (t.slot s.cur).m = s.grp.m ∧ (t.slot s.cur).v = s.grp.v ∧
    (t.slot s.cur).b = s.grp.b ∧ (t.slot s.cur).t = s.grp.t ∧ (t.slot s.cur).tc = s.grp.tc ∧ (t.slot s.cur).wa = s.grp.wa ∧
    (t.slot s.cur).fflags = s.grp.fflags ∧ (t.slot s.cur).iflags = s.grp.iflags
  others : ∀ k, k ≠ s.cur → t.slot k = s.slot k

/-- The issuing group may enter its handler: it is in none, has one, and the handler's first slot is a branch target
(R283, R285, R300). -/
def handlerReady (s : State) : Bool :=
  !s.grp.inHandler && s.trapv s.grp.bind != 0 && !entryBad s (slotDie s.cur) s.grp.bind.asid.toNat (s.trapv s.grp.bind)

/-- Every byte of the four memories reads as before. -/
structure SameMemory (s t : State) : Prop where
  die : ∀ a, memRead t.mem a = memRead s.mem a
  scratchpad : ∀ a, memRead t.scr a = memRead s.scr a
  farTier : ∀ a, memRead t.far a = memRead s.far a
  host : ∀ a, memRead t.hostMem a = memRead s.hostMem a

/-- A group for which a change of its outstanding operations leads to nothing further: no fault waits to be taken, it has not
issued `exit`, no phase is pending, and none of its queue operations is held back. -/
structure Quiet (g : Slot) : Prop where
  fault : g.dfault = none
  going : g.exiting = false
  phase : g.phase = none
  sent : ∀ o ∈ g.outst, ∀ q, o.op = .queue q → o.res = none → q.st ≠ .held

/-- `o` is the outstanding operation of the group that the event names. -/
def Names (s : State) (g : Slot) (o : Outst) : Prop := o ∈ g.outst ∧ o.id = s.arg.idx ∧ ∀ x ∈ g.outst, x.id = o.id → x = o

/-- `m` is the oldest delivered message of the event's flow, which stays inside the package, and its home can be asked (R36,
R56, R62). -/
structure Arrives (s : State) (m : Msg) (ty : MsgType) : Prop where
  here : s.arg.flow.dpkg = s.pkgid ∧ s.arg.flow.spkg = s.pkgid
  head : (s.flow s.arg.flow).arrived.head? = some m
  flow : m.flow = s.arg.flow
  typ : m.typ = ty
  home : homeFault s (reqRef m) = none

/-- The REPLY to `m` is on its way back, and `m` has been taken from its flow (R73). -/
def Answered (s t : State) (m : Msg) (code : W8) (seq : BitVec 48) (ticket : W64) (data : List W8) : Prop :=
  (∃ x ∈ (t.flow (revFlow m.flow)).arrived, x.typ = .reply ∧ x.num = m.fseq.toNat ∧ x.code = code ∧ x.seq = seq ∧
    x.ticket = ticket ∧ x.data = data ∧ x.ctx = m.ctx) ∧
  ∃ later, (t.flow m.flow).arrived = (s.flow m.flow).arrived.tail ++ later

/-! ### The events of the device -/

/-- The rows of the opcode table that stand in no table of spec/14_opcode_map.md: the events of the device, which have no words
(log 2: DESIGN CHOICE). -/
def deviceEvents : List Instr :=
  [.reset, .lehrStageAEnd, .socketBringUp, .stageCWipeEnd, .clusterWake, .clusterWakeRequest, .clusterGate,
   .hostConfigRequest, .dievfReqWrite, .powerStepDown, .powerStepUp, .thermalThrottle, .thermalRecover, .thermalTrip,
   .thermrecWrite, .homeFailure, .objectEvacuate, .qttShootdown, .queueCreate, .queueClose, .queueDestroy,
   .queueForce, .queueReserve, .queueWrite, .queuePush, .queueDequeue, .queuePeek, .queueCount, .queueSleep,
   .queueWake, .sleeperWithdraw, .queueRelease, .mergeRelease, .marverEvictionArrival, .roundClose,
   .sleeperParkRetry, .replyReceive, .wakeReceive, .linkTraining, .fabcfgWrite, .messageAdmit, .switchForward,
   .frameReceive, .authFailLinkDown, .ackSend, .ackReceive, .retransmitTimeout, .flushArrival, .flushackReceive,
   .flushRetransmit, .rateTick, .unreachableDeclare, .fabunrWrite] ++
  [.flowresetRequest, .flowresetAnswer, .flowresetRetry, .keyInstall, .keySwitch, .keyRetire, .frameCounterExhaust,
   .linkFailure, .flnkDisableWrite, .accessTableWrite, .lockInterface, .startInterface, .stopInterface,
   .getInterfaceReport, .tenantWipe, .bindingWrite, .apertureDoorbell, .apertureStatus, .windowAccess, .asidnew,
   .asidfree, .objnew, .objfree, .qnew, .qfree, .handles, .getVersion, .getCapabilities, .negotiateAlgorithms,
   .getDigests, .getCertificate, .challenge, .getMeasurements, .keyExchange, .finish, .keyUpdate, .endSession,
   .keyProg, .provision, .deploy, .undeploy, .returnModule, .fwstage, .mbReset, .dieoff, .mbnonceRead,
   .tierQuotaWrite, .atsInvalidation, .pageResponse, .farTierTimeout, .farTierLinkDown, .startElementConsume] ++
  [.blockClaim, .drrBind, .preemptDecision, .bindRecordWrite, .preempt, .killblk, .killgrp, .resumegrp,
   .drainComplete, .saveComplete, .blockRetire, .eventRingHeadWrite, .retiredEvent, .faultEvent, .watchdogExpiry,
   .gangstart, .gangAck, .gangTimeout, .gangDone, .gangabort, .gangFinalStatus, .register, .unregister, .split,
   .unsplit, .evict, .pool, .fetchFrameTake, .evictionDone, .fetchLanding, .resultReturn, .faultResolve,
   .translationShootdown, .claimServe, .clusterFuse, .copyComplete, .dispatchComplete, .scrub, .uncorrectableError,
   .sampleExpiry, .smpcfgWrite, .fdrbaseWrite, .dbgctlHaltWrite, .imgloadWrite, .imageLoad, .registerWrite,
   .frameAlignmentLoss, .farTierLinkUp, .tileInstructionRetire, .copyChunk, .publishLineAccept, .atomicPerform]

/-! ### What makes a state sound -/

/-- The four memories have their canonical form: the addresses rise strictly, and no listed byte is zero. -/
def State.memoriesOk (s : State) : Prop :=
  Memory.wf s.mem = true ∧ Memory.wf s.scr = true ∧ Memory.wf s.far = true ∧ Memory.wf s.hostMem = true

/-! ### The operand types, said in bit vectors -/

/-- The low bits of a register as a value of a type: two's complement for `.i` types, unsigned for the others (R303). -/
def typed {n : Nat} (t : Ty) (a : BitVec n) : Int :=
  if tySigned t then (a.setWidth (tyWidth t)).toInt else ((a.setWidth (tyWidth t)).toNat : Int)

/-- An exact result cut to its type and extended to `n` bits again (R351, R375). -/
def extended (n : Nat) (t : Ty) (r : Int) : BitVec n :=
  if tySigned t then (BitVec.ofInt (tyWidth t) r).signExtend n else (BitVec.ofInt (tyWidth t) r).setWidth n

/-- The condition codes on two exact values (R356). -/
def condHolds (c : Cond) (a b : Int) : Prop :=
  match c with
  | .eq => a = b
  | .ne => a ≠ b
  | .lt => a < b
  | .le => a ≤ b
  | .gt => b < a
  | .ge => b ≤ a
  | .un => False

/-! ### Vector results -/

/-- What a fixed-latency vector form leaves (R181, R372, R373): in the halves of its destination, which begins at register
`d`, the active lanes hold their results and the others what they held; each lane's flags take what its results raise and
keep what they had (R259); every other register, and the rest of the machine, is as it was. -/
structure VectorResult (s t : State) (act : W32) (sw : Bool) (halves d : Nat) (f : Nat → Nat → LaneRes) : Prop where
  written : ∀ k, k < halves → ∀ l, l < 32 →
    lane (getVn (t.slot s.cur) (d + k)) l = if laneOn act l then (f k l).bits else lane (getVn s.grp (d + k)) l
  kept : ∀ r, (r < d ∨ d + halves ≤ r) → getVn (t.slot s.cur) r = getVn s.grp r
  fflags : ∀ l, l < 32 → lane (t.slot s.cur).fflags l = lane s.grp.fflags l |||
    (if laneOn act l then (f 0 l).ff ||| (if halves = 2 then (f 1 l).ff else 0) else 0)
  iflags : ∀ l, l < 32 → lane (t.slot s.cur).iflags l = lane s.grp.iflags l |||
    (if laneOn act l then (f 0 l).iff ||| (if halves = 2 then (f 1 l).iff else 0) else 0)
  rest : OnlyGroup s t (groupAfter s { s.grp with v := (t.slot s.cur).v, fflags := (t.slot s.cur).fflags,
                                                  iflags := (t.slot s.cur).iflags } (nextPc s.grp.pc) sw)

/-- `i` issues as a vector form with the lane results `f`. -/
def VectorDoes (i : Instr) (s : State) (h : Hdr) (x2 : Bool) (d : VReg) (f : Nat → Nat → LaneRes) : Prop :=
  Completes i s fun t => VectorResult s t (activeSet s.grp h) h.sw (if x2 then 2 else 1) d.toNat f

/-- The single check of R375 on an exact integer result. -/
def checkedLane (t : Ty) (sat : Bool) (r : Int) : LaneRes :=
  if sat then
    if r < tyMin t then ⟨extended 32 t (tyMin t), 0, iSAT⟩
    else if tyMax t < r then ⟨extended 32 t (tyMax t), 0, iSAT⟩
    else ⟨extended 32 t r, 0, 0⟩
  else ⟨extended 32 t r, 0, if tySigned t && (decide (r < tyMin t) || decide (tyMax t < r)) then iOV else 0⟩

/-- A variable-latency vector result: the active lanes of `d` and the flags that those lanes raise (R372). -/
def laneResult (act : W32) (d : VReg) (f : Nat → LaneRes) : Result :=
  { vw := [⟨d, act, genVec fun l => (f l).bits⟩]
    ff := genVec fun l => if laneOn act l then (f l).ff else 0
    iff := genVec fun l => if laneOn act l then (f l).iff else 0 }

/-- A vector compare writes its mask in the active lanes alone, with the flags it raises (R378). -/
structure CompareResult (s t : State) (act : W32) (sw : Bool) (d : MReg) (f : Nat → Bool) (ff : Nat → W8) : Prop where
  written : ∀ l, l < 32 → d ≠ 0 → laneOn (maskReg (t.slot s.cur) d) l = if laneOn act l then f l else laneOn (maskReg s.grp d) l
  kept : ∀ r, r ≠ d → maskReg (t.slot s.cur) r = maskReg s.grp r
  fflags : ∀ l, l < 32 → lane (t.slot s.cur).fflags l = lane s.grp.fflags l ||| (if laneOn act l then ff l else 0)
  iflags : ∀ l, l < 32 → lane (t.slot s.cur).iflags l = lane s.grp.iflags l
  rest : OnlyGroup s t (groupAfter s { s.grp with m := (t.slot s.cur).m, fflags := (t.slot s.cur).fflags,
                                                  iflags := (t.slot s.cur).iflags } (nextPc s.grp.pc) sw)

end Sys2Proof.Machine
end

