-- ==== Sys2Proof/Certificates/Slice0/Obligations.lean ====
section
/-! DEFINITION. The obligations: what the numbered rules of the spec say an instruction, an event of the device or the
machine does, as statements for the provers. -/
open Sys2Proof Sys2Proof.Machine

/-! ### Scalar, mask and control instructions -/

/-- Scalar arithmetic (R351 to R353, R356) and its immediate forms (R340): each operation computes exactly on the low bits of
its sources read in its type, and writes the result cut to the type and extended to 64 bits; nothing else of the machine
changes but the group's passage to the following slot. -/
def Obligations.ScalarArithmetic : Prop :=
  ∀ (s : State) (sw : Bool) (ty : Ty) (d a b : SReg) (imm : W32),
    okS s.grp d → okS s.grp a →
    let writes := fun (i : Instr) (r : Int) => Does i s (setS s.grp d (extended 64 ty r)) sw
    let x := typed ty (getS s.grp a)
    (okS s.grp b →
      let y := typed ty (getS s.grp b)
      writes (.sadd ⟨sw, ty, d, a, b⟩) (x + y) ∧
      writes (.ssub ⟨sw, ty, d, a, b⟩) (x - y) ∧
      writes (.smul ⟨sw, ty, d, a, b⟩) (x * y) ∧
      writes (.smulh ⟨sw, ty, d, a, b⟩) (x * y / 2 ^ tyWidth ty) ∧
      writes (.sdiv ⟨sw, ty, d, a, b⟩) (if y = 0 then -1 else x.tdiv y) ∧
      writes (.srem ⟨sw, ty, d, a, b⟩) (if y = 0 then x else x.tmod y) ∧
      writes (.smin ⟨sw, ty, d, a, b⟩) (min x y) ∧
      writes (.smax ⟨sw, ty, d, a, b⟩) (max x y) ∧
      ∀ c : Cond, (condHolds c x y → Does (.scmp ⟨sw, ty, c, d, a, b⟩) s (setS s.grp d 1) sw) ∧
        (¬ condHolds c x y → Does (.scmp ⟨sw, ty, c, d, a, b⟩) s (setS s.grp d 0) sw)) ∧
    (
      let y := typed ty (immS ty imm)
      writes (.saddImm ⟨sw, ty, d, a, imm⟩) (x + y) ∧
      writes (.ssubImm ⟨sw, ty, d, a, imm⟩) (x - y) ∧
      writes (.smulImm ⟨sw, ty, d, a, imm⟩) (x * y) ∧
      writes (.smulhImm ⟨sw, ty, d, a, imm⟩) (x * y / 2 ^ tyWidth ty) ∧
      writes (.sdivImm ⟨sw, ty, d, a, imm⟩) (if y = 0 then -1 else x.tdiv y) ∧
      writes (.sremImm ⟨sw, ty, d, a, imm⟩) (if y = 0 then x else x.tmod y) ∧
      writes (.sminImm ⟨sw, ty, d, a, imm⟩) (min x y) ∧
      writes (.smaxImm ⟨sw, ty, d, a, imm⟩) (max x y) ∧
      ∀ c : Cond, (condHolds c x y → Does (.scmpImm ⟨sw, ty, c, d, a, imm⟩) s (setS s.grp d 1) sw) ∧
        (¬ condHolds c x y → Does (.scmpImm ⟨sw, ty, c, d, a, imm⟩) s (setS s.grp d 0) sw))

/-- The bitwise, shift, count, select and copy operations of R352 and R355 on whole 64-bit registers, `sofs` (R354), and
their immediate forms (R311, R340). -/
def Obligations.ScalarLogic : Prop :=
  ∀ (s : State) (sw : Bool) (ty : Ty) (d a b c : SReg) (imm : W32) (imm64 : W64),
    okS s.grp d →
    let writes := fun (i : Instr) (r : W64) => Does i s (setS s.grp d r) sw
    writes (.smovImm64 ⟨sw, d, imm64⟩) imm64 ∧
    (okS s.grp a →
      let x := getS s.grp a
      writes (.smov ⟨sw, d, a⟩) x ∧
      (∃ n : Nat, n ≤ 64 ∧ (∀ i, 64 - n ≤ i → i < 64 → x.getLsbD i = false) ∧ (n < 64 → x.getLsbD (63 - n) = true) ∧
        writes (.sclz ⟨sw, d, a⟩) (BitVec.ofNat 64 n)) ∧
      writes (.spopc ⟨sw, d, a⟩) (BitVec.ofNat 64 (((List.range 64).filter fun i => x.getLsbD i).length)) ∧
      (
        let y := immS ty imm
        writes (.sandImm ⟨sw, ty, d, a, imm⟩) (x &&& y) ∧
        writes (.sorImm ⟨sw, ty, d, a, imm⟩) (x ||| y) ∧
        writes (.sxorImm ⟨sw, ty, d, a, imm⟩) (x ^^^ y) ∧
        writes (.sshlImm ⟨sw, ty, d, a, imm⟩) (x <<< (y.toNat % 64)) ∧
        writes (.sshrImm ⟨sw, ty, d, a, imm⟩) (x >>> (y.toNat % 64)) ∧
        writes (.ssraImm ⟨sw, ty, d, a, imm⟩) (x.sshiftRight (y.toNat % 64)) ∧
        writes (.srotlImm ⟨sw, ty, d, a, imm⟩) (x.rotateLeft (y.toNat % 64)) ∧
        writes (.sofsImm ⟨sw, ty, d, a, imm⟩) (x.extractLsb' 44 20 ++ (x.setWidth 44 + BitVec.ofInt 44 (typed ty y)))) ∧
      (okS s.grp b →
        let y := getS s.grp b
        writes (.sand ⟨sw, ty, d, a, b⟩) (x &&& y) ∧
        writes (.sor ⟨sw, ty, d, a, b⟩) (x ||| y) ∧
        writes (.sxor ⟨sw, ty, d, a, b⟩) (x ^^^ y) ∧
        writes (.sshl ⟨sw, ty, d, a, b⟩) (x <<< (y.toNat % 64)) ∧
        writes (.sshr ⟨sw, ty, d, a, b⟩) (x >>> (y.toNat % 64)) ∧
        writes (.ssra ⟨sw, ty, d, a, b⟩) (x.sshiftRight (y.toNat % 64)) ∧
        writes (.srotl ⟨sw, ty, d, a, b⟩) (x.rotateLeft (y.toNat % 64)) ∧
        writes (.sofs ⟨sw, ty, d, a, b⟩) (x.extractLsb' 44 20 ++ (x.setWidth 44 + BitVec.ofInt 44 (typed ty y))) ∧
        writes (.sselImm ⟨sw, d, a, b, imm⟩) (if x ≠ 0 then y else immS .b64 imm) ∧
        (okS s.grp c → writes (.ssel ⟨sw, d, a, b, c⟩) (if x ≠ 0 then y else getS s.grp c))))

/-- The mask instructions of R358 on whole 32-bit masks, whatever `em` holds, and the format 2 `mmov` (R339). -/
def Obligations.MaskInstructions : Prop :=
  ∀ (s : State) (sw : Bool) (d a b : MReg) (sd sa : SReg) (imm : W32),
    let writes := fun (i : Instr) (r : W32) => Does i s (setM s.grp d r) sw
    let x := maskReg s.grp a
    let y := maskReg s.grp b
    writes (.mand ⟨sw, d, a, b⟩) (x &&& y) ∧
    writes (.mor ⟨sw, d, a, b⟩) (x ||| y) ∧
    writes (.mxor ⟨sw, d, a, b⟩) (x ^^^ y) ∧
    writes (.mandn ⟨sw, d, a, b⟩) (x &&& ~~~y) ∧
    writes (.mnot ⟨sw, d, a⟩) (~~~x) ∧
    writes (.mmov ⟨sw, d, a⟩) x ∧
    writes (.mmovImm64 ⟨sw, d, imm⟩) imm ∧
    writes (.mrdem ⟨sw, d⟩) s.grp.em ∧
    Does (.mwrem ⟨sw, a⟩) s { s.grp with em := x } sw ∧
    (okS s.grp sa → writes (.mfroms ⟨sw, d, sa⟩) ((getS s.grp sa).setWidth 32)) ∧
    (okS s.grp sd →
      Does (.mpopc ⟨sw, sd, a⟩) s (setS s.grp sd (BitVec.ofNat 64 (((List.range 32).filter fun i => x.getLsbD i).length))) sw ∧
      Does (.mtos ⟨sw, sd, a⟩) s (setS s.grp sd (x.setWidth 64)) sw ∧
      ∃ n : Nat, n ≤ 32 ∧ (∀ i, i < n → x.getLsbD i = false) ∧ (n < 32 → x.getLsbD n = true) ∧
        Does (.mffs ⟨sw, sd, a⟩) s (setS s.grp sd (BitVec.ofNat 64 n)) sw)

/-- Control transfers (R356, R360, R361): a branch that is taken goes to its target, and one that is not to the following
slot; `call` writes its link; a target that fails the checks of R360 raises CFLOW with the target in ARG0 before any state
changes. `nop` only goes on (R313). -/
def Obligations.ControlTransfers : Prop :=
  ∀ (s : State) (sw : Bool) (a b : SReg) (m : MReg) (disp : BitVec 29) (tslot : W3),
    let pc := s.grp.pc
    let t : W64 := ((pc &&& 0xFFFFFFFFFFFFFFC0) + 64 * disp.signExtend 64) ||| tslot.setWidth 64
    let legal := fun (p : W64) => targetBad s (slotDie s.cur) s.grp.bind.asid.toNat p = false
    let traps := fun (i : Instr) (p : W64) =>
      exec i s = .next (takeTrap s s.cur
        { cause := 0x03, lanes := s.grp.em, fpc := pc, rpc := pc, arg0 := p })
    Does (.nop sw) s s.grp sw ∧
    (legal t → GoesTo (.br ⟨sw, none, a, disp, tslot⟩) s s.grp t sw) ∧
    (¬ legal t → traps (.br ⟨sw, none, a, disp, tslot⟩) t) ∧
    (∀ c, okS s.grp a →
      (condHolds c (getS s.grp a).toInt 0 → legal t → GoesTo (.br ⟨sw, some c, a, disp, tslot⟩) s s.grp t sw) ∧
      (condHolds c (getS s.grp a).toInt 0 → ¬ legal t → traps (.br ⟨sw, some c, a, disp, tslot⟩) t) ∧
      (¬ condHolds c (getS s.grp a).toInt 0 → Does (.br ⟨sw, some c, a, disp, tslot⟩) s s.grp sw)) ∧
    (maskReg s.grp m = 0 → legal t → GoesTo (.brmz ⟨sw, m, disp, tslot⟩) s s.grp t sw) ∧
    (maskReg s.grp m = 0 → ¬ legal t → traps (.brmz ⟨sw, m, disp, tslot⟩) t) ∧
    (maskReg s.grp m ≠ 0 → Does (.brmz ⟨sw, m, disp, tslot⟩) s s.grp sw) ∧
    (maskReg s.grp m ≠ 0 → legal t → GoesTo (.brmnz ⟨sw, m, disp, tslot⟩) s s.grp t sw) ∧
    (maskReg s.grp m ≠ 0 → ¬ legal t → traps (.brmnz ⟨sw, m, disp, tslot⟩) t) ∧
    (maskReg s.grp m = 0 → Does (.brmnz ⟨sw, m, disp, tslot⟩) s s.grp sw) ∧
    (okS s.grp b → legal t → GoesTo (.call ⟨sw, b, disp, tslot⟩) s (setS s.grp b (nextPc pc)) t sw) ∧
    (okS s.grp b → ¬ legal t → traps (.call ⟨sw, b, disp, tslot⟩) t) ∧
    (okS s.grp a → legal (getS s.grp a) →
      GoesTo (.ret ⟨sw, a⟩) s s.grp (getS s.grp a) sw ∧ GoesTo (.jmp ⟨sw, a⟩) s s.grp (getS s.grp a) sw) ∧
    (okS s.grp a → ¬ legal (getS s.grp a) →
      traps (.ret ⟨sw, a⟩) (getS s.grp a) ∧ traps (.jmp ⟨sw, a⟩) (getS s.grp a))

/-- Special registers (R178, R282, R362 to R364): `srd` of a uniform register writes its value zero-extended; of a per-lane
register, each of the 32 lanes; `swr` writes the flag bits that exist; a move of the flags waits until nothing that can raise
them is unfinished; a `swr` of a read-only register raises ILLEGAL code 0x02.
Where the spec leaves a point open the statement follows the model's choices of its own: what a move of the flags waits for (log 29). -/
def Obligations.SpecialRegisters : Prop :=
  ∀ (s : State) (sw : Bool) (idx : BitVec 5) (v : VReg) (r : Spr),
    let g := s.grp
    let d : SReg := v.setWidth 6
    let reads := fun (r : Spr) (x : W64) => Does (.srd ⟨sw, r, idx, v⟩) s (setS g d x) sw
    let lanes := fun (r : Spr) (f : Nat → W32) =>
      Does (.srd ⟨sw, r, idx, v⟩) s { g with v := tset g.v v.toNat (genVec fun l => if l < 32 then f l else 0) } sw
    (okS g d →
      reads .group (g.bind.gidx.setWidth 64) ∧ reads .block (g.bind.block.setWidth 64) ∧
      reads .core (BitVec.ofNat 64 (slotCoreNo s.cur)) ∧ reads .die (BitVec.ofNat 64 (slotDie s.cur)) ∧
      reads .pkg ((s.fabric.pkgid.getD 0).setWidth 64) ∧ reads .clock (s.die (slotDie s.cur)).clock ∧
      reads .safe (BitVec.ofNat 64 (g.count + 1)) ∧
      (idx = 0 → reads .trap g.frame.trapw) ∧ (idx = 1 → reads .trap g.frame.fpc) ∧ (idx = 2 → reads .trap g.frame.rpc) ∧
      (idx = 3 → reads .trap (g.frame.em.setWidth 64 ||| (if g.frame.more then 0x100000000 else 0))) ∧
      (idx = 4 → reads .trap g.frame.arg0) ∧ (idx = 5 → reads .trap g.frame.arg1) ∧
      (idx = 6 → reads .trap (g.frame.bcount.setWidth 64)) ∧ (7 ≤ idx.toNat → reads .trap 0)) ∧
    (okV g v →
      lanes .lane (fun l => BitVec.ofNat 32 l) ∧ lanes .quarter (fun l => BitVec.ofNat 32 (l / 8)) ∧
      (flagsPending g = false →
        lanes .fflags (fun l => (lane g.fflags l).setWidth 32) ∧ lanes .iflags (fun l => (lane g.iflags l).setWidth 32) ∧
        Does (.swr ⟨sw, .fflags, v⟩) s { g with fflags := genVec fun l => (lane (getV g v) l).setWidth 8 &&& 0x1F } sw ∧
        Does (.swr ⟨sw, .iflags, v⟩) s { g with iflags := genVec fun l => (lane (getV g v) l).setWidth 8 &&& 0x0F } sw) ∧
      (flagsPending g = true → r = .fflags ∨ r = .iflags →
        Completes (.srd ⟨sw, r, idx, v⟩) s (fun t => OnlyGroup s t { g with stall := .resource }) ∧
        Completes (.swr ⟨sw, r, v⟩) s (fun t => OnlyGroup s t { g with stall := .resource }))) ∧
    (r ≠ .fflags → r ≠ .iflags →
      exec (.swr ⟨sw, r, v⟩) s = .next (takeTrap s s.cur
        { cause := 0x01, code := 0x02, lanes := g.em, fpc := g.pc, rpc := g.pc }))

/-- `safept` zeroes the bound count, and stops a Draining group at its safe point (R366); `exit` issues nothing further and
keeps its pc while results are outstanding, and else the slot becomes Done, or its block Retiring (R157, R367).
Arrival at a named barrier (R193, R365): a group of a Running block whose stores have performed arrives with its count;
short of the count, `sbmark` goes on and `sbwait` is held at its place; at the count, every group held there goes on and the
barrier is idle again. A count of 0 or above the block's groups, another count within the generation, or a second arrival
raises BARRIER and changes nothing before it. An arrival waits for the group's stores and its phase instruction.
Where the spec leaves a point open the statement follows the model's choices of its own: an arrival waits behind a phase (log 120). -/
def Obligations.GroupStopsAndBarriers : Prop :=
  (
  ∀ (s : State) (sw : Bool) (idx : W16),
    let g := s.grp
    let after := { groupAfter s g (nextPc g.pc) sw with count := 0 }
    (g.bind.sstate ≠ .draining → Completes (.safept ⟨sw, idx⟩) s fun t => OnlyGroup s t after) ∧
    (g.bind.sstate = .draining →
      Completes (.safept ⟨sw, idx⟩) s fun t => OnlyGroup s t { after with stopped := true, safe := some idx }) ∧
    (g.dfault = none → g.outst ≠ [] → GoesTo (.exit sw) s { g with exiting := true } g.pc sw) ∧
    (g.dfault = none → g.outst = [] → g.bind.sstate = .running → g.stopped = false →
      (s.die (slotDie s.cur)).halted = none → Completes (.exit sw) s fun t =>
        ((t.slot s.cur).bind.sstate = .done ∨ (t.slot s.cur).bind.sstate = .retiring) ∧
        (t.slot s.cur).inHandler = false ∧ (t.slot s.cur).exiting = true ∧
        ∀ k, (t.slot k).s = (s.slot k).s ∧ (t.slot k).m = (s.slot k).m ∧ (t.slot k).v = (s.slot k).v)) ∧
  (
  ∀ (s : State) (sw : Bool) (k : W4) (c : BitVec 5),
    let g := s.grp
    let b := tget (s.block s.lead).bars k.toNat {}
    let gcnt := g.bind.gcntm1.toNat + 1
    let arrived : State := s.setBlock s.lead { s.block s.lead with
      bars := tset (s.block s.lead).bars k.toNat ⟨c.toNat, b.arr ||| (1#16 <<< g.bind.gidx.toNat)⟩ }
    let traps := fun (code : W8) => ∀ i ∈ [Instr.sbmark ⟨sw, k, c⟩, .sbwait ⟨sw, k, c⟩],
      exec i s = .next (takeTrap s s.cur { cause := 0x08, code := code, lanes := g.em, fpc := g.pc, rpc := g.pc,
                                           arg0 := BitVec.ofNat 64 (c.toNat * 256 + k.toNat) })
    (storesPerformed g = false →
      ∀ i ∈ [Instr.sbmark ⟨sw, k, c⟩, .sbwait ⟨sw, k, c⟩], Completes i s fun t => OnlyGroup s t { g with stall := .barrier }) ∧
    (storesPerformed g → g.phase.isSome →
      ∀ i ∈ [Instr.sbmark ⟨sw, k, c⟩, .sbwait ⟨sw, k, c⟩], Completes i s fun t => OnlyGroup s t { g with stall := .resource }) ∧
    (storesPerformed g → g.phase = none → g.bind.sstate = .running →
      (c.toNat = 0 ∨ gcnt < c.toNat → traps 0x01) ∧
      (1 ≤ c.toNat → c.toNat ≤ gcnt →
        (b.exp ≠ 0 → b.exp ≠ c.toNat → traps 0x02) ∧
        (b.exp = 0 ∨ b.exp = c.toNat →
          (b.arr.getLsbD g.bind.gidx.toNat → traps 0x03) ∧
          (b.arr.getLsbD g.bind.gidx.toNat = false → g.barrier = none →
            (barrierFull arrived s.lead k = false →
              exec (.sbmark ⟨sw, k, c⟩) s = .next (arrived.setSlot s.cur (groupAfter s g (nextPc g.pc) sw)) ∧
              exec (.sbwait ⟨sw, k, c⟩) s = .next (arrived.setSlot s.cur { groupAfter s g g.pc sw with barrier := some k })) ∧
            (barrierFull arrived s.lead k → barrierHeld arrived s.lead k = false → g.stopped = false →
              (∀ j ∈ blockSlots s s.lead, (s.slot j).dfault = none ∧ ∀ x, (s.slot j).aside = some x → x.barrier ≠ some k) →
              ∀ i ∈ [Instr.sbmark ⟨sw, k, c⟩, .sbwait ⟨sw, k, c⟩], Completes i s fun t =>
                t.slot s.cur = groupAfter s g (nextPc g.pc) sw ∧
                tget (t.block s.lead).bars k.toNat {} = {} ∧
                (∀ j ∈ blockSlots s s.lead, j ≠ s.cur → (s.slot j).barrier = some k →
                  t.slot j = { s.slot j with barrier := none, pc := nextPc (s.slot j).pc }) ∧
                (∀ j, j ≠ s.cur → (j ∉ blockSlots s s.lead ∨ (s.slot j).barrier ≠ some k) → t.slot j = s.slot j)))))))

/-- `trap` raises SOFT with its code (R368); `tret` leaves the handler for the frame's RPC or for the pc in a register,
changes no register, and traps outside a handler, on a different `em`, or on a pc of the wrong layout (R369).
`brk` (R293, R294, R370): without BRKHALT it raises BREAK with RPC at the following slot; with it, it halts the die for
the tenant and goes on at the following slot, where a halt is permitted, and else sets REFUSED and raises BREAK.
Where the spec leaves a point open the statement follows the model's choices of its own: a trap inside an issued instruction puts its wait aside (log 92). -/
def Obligations.TrapsReturnsAndBreakpoints : Prop :=
  (
  ∀ (s : State) (sw : Bool) (code : W8) (a : SReg),
    let g := s.grp
    let layout := fun (p : W64) => p.extractLsb' 3 3 = 0 ∧ (p.extractLsb' 0 3).toNat ≤ 4
    let back := fun (i : Instr) (p : W64) =>
      (g.aside = none → g.barrier = none → Completes i s fun t => OnlyGroup s t
        { groupAfter s { g with inHandler := false } p sw with count := g.count, replay := g.replay }) ∧
      (∀ x, g.aside = some x → x.pc = p → x.opened = false → g.bind.sstate ≠ .draining → Completes i s fun t => OnlyGroup s t
        { groupAfter s { g with inHandler := false, aside := none, barrier := x.barrier, twait := x.twait } p sw with
          count := g.count, replay := x.replay })
    let traps := fun (i : Instr) (cause code : W8) (arg : W64) => exec i s = .next (takeTrap s s.cur
      { cause := cause, code := code, lanes := g.em, fpc := g.pc, rpc := g.pc, arg0 := arg })
    (handlerReady s → Completes (.trap ⟨sw, code⟩) s fun t => EntersHandler s t
      { cause := 0x0D, code := code, lanes := g.em, fpc := g.pc, rpc := nextPc g.pc, arg0 := code.setWidth 64 }) ∧
    (g.inHandler = false → traps (.tret sw) 0x01 0x04 0 ∧ traps (.tretReg ⟨sw, a⟩) 0x01 0x04 0) ∧
    (g.inHandler →
      (g.em ≠ g.frame.em → traps (.tret sw) 0x06 0x02 0 ∧ (okS g a → traps (.tretReg ⟨sw, a⟩) 0x06 0x02 0)) ∧
      (g.em = g.frame.em →
        (layout g.frame.rpc → back (.tret sw) g.frame.rpc) ∧
        (¬ layout g.frame.rpc → traps (.tret sw) 0x03 0 g.frame.rpc) ∧
        (okS g a → layout (getS g a) → back (.tretReg ⟨sw, a⟩) (getS g a)) ∧
        (okS g a → ¬ layout (getS g a) → traps (.tretReg ⟨sw, a⟩) 0x03 0 (getS g a))))) ∧
  (
  ∀ (s : State) (sw : Bool),
    let g := s.grp
    let d := slotDie s.cur
    let ten := g.bind.tenant.toNat
    let brk : Trap := { cause := 0x0E, lanes := g.em, fpc := g.pc, rpc := nextPc g.pc }
    (handlerReady s → (s.iface ten).brkHalt = false ∨ s.reserved g.bind.asid = true → Completes (.brk sw) s fun t => EntersHandler s t brk) ∧
    ((s.iface ten).brkHalt → s.reserved g.bind.asid = false → haltPermitted s d g.bind.tenant → Completes (.brk sw) s fun t =>
      t.slot s.cur = groupAfter s g (nextPc g.pc) sw ∧ (t.die d).halted = some g.bind.tenant ∧
      (t.iface ten).halt = (s.iface ten).halt ||| (1#8 <<< d) ∧ (t.iface ten).halted = (s.iface ten).halted ||| (1#8 <<< d)) ∧
    (handlerReady s → (s.iface ten).brkHalt → s.reserved g.bind.asid = false → haltPermitted s d g.bind.tenant = false → Completes (.brk sw) s fun t =>
      EntersHandler s t brk ∧ (t.iface ten).refused = (s.iface ten).refused ||| (1#8 <<< d) ∧
      (t.iface ten).halt = (s.iface ten).halt))

/-! ### Vector instructions -/

/-- Vector integer arithmetic (R372, R373, R375 to R377) and its immediate forms (R374): each active lane computes exactly on
the low bits of its sources read in the type, and its result passes the single check of R375; `vmulh`, `vdiv` and `vrem`
raise what R376 and R377 say. -/
def Obligations.VectorArithmetic : Prop :=
  ∀ (s : State) (h : Hdr) (ty : Ty) (sat x2 : Bool) (d a b c : VReg) (imm : W32),
    okVx s.grp x2 d → okVx s.grp x2 a →
    let does := fun (i : Instr) (f : Nat → Nat → LaneRes) => VectorDoes i s h x2 d f
    let read := fun (r : VReg) (k l : Nat) => typed ty (lane (srcV s.grp k r) l)
    let quotient := fun (x y : Int) => if y = 0 then ⟨extended 32 ty (-1), 0, iDZ⟩ else checkedLane ty false (x.tdiv y)
    let remainder := fun (x y : Int) =>
      if y = 0 then (⟨extended 32 ty x, 0, iDZ⟩ : LaneRes) else ⟨extended 32 ty (x.tmod y), 0, 0⟩
    let x := read a
    let n := typed ty imm
    does (.vaddImm ⟨h, ty, sat, x2, d, a, imm⟩) (fun k l => checkedLane ty sat (x k l + n)) ∧
    does (.vsubImm ⟨h, ty, sat, x2, d, a, imm⟩) (fun k l => checkedLane ty sat (x k l - n)) ∧
    does (.vmulImm ⟨h, ty, sat, x2, d, a, imm⟩) (fun k l => checkedLane ty sat (x k l * n)) ∧
    does (.vmulhImm ⟨h, ty, sat, x2, d, a, imm⟩) (fun k l => ⟨extended 32 ty (x k l * n / 2 ^ tyWidth ty), 0, 0⟩) ∧
    does (.vdivImm ⟨h, ty, sat, x2, d, a, imm⟩) (fun k l => quotient (x k l) n) ∧
    does (.vremImm ⟨h, ty, sat, x2, d, a, imm⟩) (fun k l => remainder (x k l) n) ∧
    does (.vminImm ⟨h, ty, sat, x2, d, a, imm⟩) (fun k l => checkedLane ty false (min (x k l) n)) ∧
    does (.vmaxImm ⟨h, ty, sat, x2, d, a, imm⟩) (fun k l => checkedLane ty false (max (x k l) n)) ∧
    does (.vabs ⟨h, ty, sat, x2, d, a⟩) (fun k l => checkedLane ty sat ((x k l).natAbs : Int)) ∧
    does (.vneg ⟨h, ty, sat, x2, d, a⟩) (fun k l => checkedLane ty sat (- x k l)) ∧
    (okVx s.grp x2 b →
      let y := read b
      does (.vadd ⟨h, ty, sat, x2, d, a, b⟩) (fun k l => checkedLane ty sat (x k l + y k l)) ∧
      does (.vsub ⟨h, ty, sat, x2, d, a, b⟩) (fun k l => checkedLane ty sat (x k l - y k l)) ∧
      does (.vmul ⟨h, ty, sat, x2, d, a, b⟩) (fun k l => checkedLane ty sat (x k l * y k l)) ∧
      does (.vmulh ⟨h, ty, sat, x2, d, a, b⟩) (fun k l => ⟨extended 32 ty (x k l * y k l / 2 ^ tyWidth ty), 0, 0⟩) ∧
      does (.vdiv ⟨h, ty, sat, x2, d, a, b⟩) (fun k l => quotient (x k l) (y k l)) ∧
      does (.vrem ⟨h, ty, sat, x2, d, a, b⟩) (fun k l => remainder (x k l) (y k l)) ∧
      does (.vmin ⟨h, ty, sat, x2, d, a, b⟩) (fun k l => checkedLane ty false (min (x k l) (y k l))) ∧
      does (.vmax ⟨h, ty, sat, x2, d, a, b⟩) (fun k l => checkedLane ty false (max (x k l) (y k l))) ∧
      does (.vmadImm ⟨h, ty, sat, x2, d, a, b, imm⟩) (fun k l => checkedLane ty sat (x k l * y k l + n)) ∧
      (okVx s.grp x2 c →
        does (.vmad ⟨h, ty, sat, x2, d, a, b, c⟩) (fun k l => checkedLane ty sat (x k l * y k l + read c k l))))

/-- The bitwise, shift, count, select, compare and move forms of R376 and R378, which raise no flag, and their immediate
forms (R374). -/
def Obligations.VectorLogic : Prop :=
  ∀ (s : State) (h : Hdr) (ty : Ty) (sat x2 : Bool) (cc : Cond) (d a b : VReg) (m dm : MReg) (sa : SReg) (imm : W32),
    let does := fun (i : Instr) (f : Nat → Nat → W32) => VectorDoes i s h x2 d fun k l => ⟨f k l, 0, 0⟩
    let x := fun (k l : Nat) => lane (srcV s.grp k a) l
    let y := fun (k l : Nat) => lane (srcV s.grp k b) l
    let low := fun (v : W32) => v.setWidth (tyWidth ty)
    (okS s.grp sa → okV s.grp d → VectorDoes (.vmovs ⟨h, d, sa⟩) s h false d fun _ _ => ⟨(getS s.grp sa).setWidth 32, 0, 0⟩) ∧
    (okV s.grp a →
      (∀ f : Nat → Bool, (∀ l, f l = true ↔ condHolds cc (typed ty (x 0 l)) (typed ty imm)) →
        Completes (.vcmpImm ⟨h, ty, cc, dm, a, imm⟩) s fun t => CompareResult s t (activeSet s.grp h) h.sw dm f fun _ => 0) ∧
      (okV s.grp b → ∀ f : Nat → Bool, (∀ l, f l = true ↔ condHolds cc (typed ty (x 0 l)) (typed ty (y 0 l))) →
        Completes (.vcmp ⟨h, ty, cc, dm, a, b⟩) s fun t => CompareResult s t (activeSet s.grp h) h.sw dm f fun _ => 0)) ∧
    (okVx s.grp x2 d → okVx s.grp x2 a →
      does (.vandImm ⟨h, ty, sat, x2, d, a, imm⟩) (fun k l => x k l &&& imm) ∧
      does (.vorImm ⟨h, ty, sat, x2, d, a, imm⟩) (fun k l => x k l ||| imm) ∧
      does (.vxorImm ⟨h, ty, sat, x2, d, a, imm⟩) (fun k l => x k l ^^^ imm) ∧
      does (.vshlImm ⟨h, ty, sat, x2, d, a, imm⟩) (fun k l => extended 32 ty (typed ty (x k l) * 2 ^ (imm.toNat % 32))) ∧
      does (.vshrImm ⟨h, ty, sat, x2, d, a, imm⟩) (fun k l => extended 32 ty ((low (x k l) >>> (imm.toNat % 32)).toNat : Int)) ∧
      does (.vsraImm ⟨h, ty, sat, x2, d, a, imm⟩) (fun k l => extended 32 ty (typed ty (x k l) / 2 ^ (imm.toNat % 32))) ∧
      does (.vnot ⟨h, ty, sat, x2, d, a⟩) (fun k l => ~~~(x k l)) ∧
      does (.vmov ⟨h, ty, sat, x2, d, a⟩) x ∧
      does (.vpopc ⟨h, ty, sat, x2, d, a⟩)
        (fun k l => BitVec.ofNat 32 ((List.range 32).filter fun i => (x k l).getLsbD i).length) ∧
      (∀ n : Nat → Nat → Nat, (∀ k l, n k l ≤ 32 ∧ (∀ i, 32 - n k l ≤ i → i < 32 → (x k l).getLsbD i = false) ∧
          (n k l < 32 → (x k l).getLsbD (31 - n k l) = true)) →
        does (.vclz ⟨h, ty, sat, x2, d, a⟩) fun k l => BitVec.ofNat 32 (n k l)) ∧
      (okVx s.grp x2 b →
        does (.vand ⟨h, ty, sat, x2, d, a, b⟩) (fun k l => x k l &&& y k l) ∧
        does (.vor ⟨h, ty, sat, x2, d, a, b⟩) (fun k l => x k l ||| y k l) ∧
        does (.vxor ⟨h, ty, sat, x2, d, a, b⟩) (fun k l => x k l ^^^ y k l) ∧
        does (.vshl ⟨h, ty, sat, x2, d, a, b⟩) (fun k l => extended 32 ty (typed ty (x k l) * 2 ^ ((y k l).toNat % 32))) ∧
        does (.vshr ⟨h, ty, sat, x2, d, a, b⟩)
          (fun k l => extended 32 ty ((low (x k l) >>> ((y k l).toNat % 32)).toNat : Int)) ∧
        does (.vsra ⟨h, ty, sat, x2, d, a, b⟩) (fun k l => extended 32 ty (typed ty (x k l) / 2 ^ ((y k l).toNat % 32))) ∧
        does (.vsel ⟨h, x2, d, a, b, m⟩) (fun k l => if laneOn (maskReg s.grp m) l then x k l else y k l)))

/-- Vector floating point (R374, R378 to R382): each active lane holds the exact result rounded once, with its flags, as the
arithmetic of R255 to R259 gives it; `vfabs` and `vfneg` change the sign bit of a number and raise nothing. -/
def Obligations.VectorFloatingPoint : Prop :=
  ∀ (s : State) (h : Hdr) (ty st : Ty) (rm : Rm) (sat x2 : Bool) (cc : Cond) (d a b c : VReg) (dm : MReg) (imm : W32),
    let does := fun (i : Instr) (f : Nat → Nat → LaneRes) => VectorDoes i s h x2 d f
    let x := fun (k l : Nat) => lane (srcV s.grp k a) l
    let y := fun (k l : Nat) => lane (srcV s.grp k b) l
    let z := fun (k l : Nat) => lane (srcV s.grp k c) l
    let sign := fun (v w : W32) => (⟨if (fval fp32 v.toNat).isNan then 0x7FC00000 else w, 0, 0⟩ : LaneRes)
    (okV s.grp a →
      Completes (.vfcmpImm ⟨h, ty, cc, dm, a, imm⟩) s (fun t => CompareResult s t (activeSet s.grp h) h.sw dm
        (fun l => (cmpF cc (x 0 l).toNat imm.toNat).1) fun l => if (cmpF cc (x 0 l).toNat imm.toNat).2 then fNV else 0) ∧
      (okV s.grp b → Completes (.vfcmp ⟨h, ty, cc, dm, a, b⟩) s fun t => CompareResult s t (activeSet s.grp h) h.sw dm
        (fun l => (cmpF cc (x 0 l).toNat (y 0 l).toNat).1) fun l => if (cmpF cc (x 0 l).toNat (y 0 l).toNat).2 then fNV else 0)) ∧
    (okVx s.grp x2 d → okVx s.grp x2 a →
      does (.vfaddImm ⟨h, rm, sat, x2, d, a, imm⟩) (fun k l => fLane (addF rm sat (x k l).toNat imm.toNat)) ∧
      does (.vfsubImm ⟨h, rm, sat, x2, d, a, imm⟩) (fun k l => fLane (subF rm sat (x k l).toNat imm.toNat)) ∧
      does (.vfmulImm ⟨h, rm, sat, x2, d, a, imm⟩) (fun k l => fLane (mulF rm sat (x k l).toNat imm.toNat)) ∧
      does (.vfminImm ⟨h, rm, sat, x2, d, a, imm⟩) (fun k l => fLane (minMaxF false (x k l).toNat imm.toNat)) ∧
      does (.vfmaxImm ⟨h, rm, sat, x2, d, a, imm⟩) (fun k l => fLane (minMaxF true (x k l).toNat imm.toNat)) ∧
      does (.vfabs ⟨h, ty, sat, x2, d, a⟩) (fun k l => sign (x k l) (x k l &&& 0x7FFFFFFF)) ∧
      does (.vfneg ⟨h, ty, sat, x2, d, a⟩) (fun k l => sign (x k l) (x k l ^^^ 0x80000000)) ∧
      does (.vcvt ⟨h, ty, st, rm, sat, x2, d, a⟩) (fun k l => convert ty st rm sat (x k l).toNat) ∧
      (okVx s.grp x2 b →
        does (.vfadd ⟨h, rm, sat, x2, d, a, b⟩) (fun k l => fLane (addF rm sat (x k l).toNat (y k l).toNat)) ∧
        does (.vfsub ⟨h, rm, sat, x2, d, a, b⟩) (fun k l => fLane (subF rm sat (x k l).toNat (y k l).toNat)) ∧
        does (.vfmul ⟨h, rm, sat, x2, d, a, b⟩) (fun k l => fLane (mulF rm sat (x k l).toNat (y k l).toNat)) ∧
        does (.vfmin ⟨h, rm, sat, x2, d, a, b⟩) (fun k l => fLane (minMaxF false (x k l).toNat (y k l).toNat)) ∧
        does (.vfmax ⟨h, rm, sat, x2, d, a, b⟩) (fun k l => fLane (minMaxF true (x k l).toNat (y k l).toNat)) ∧
        does (.vffmaImm ⟨h, rm, sat, x2, d, a, b, imm⟩)
          (fun k l => fLane (fmaF rm sat (x k l).toNat (y k l).toNat imm.toNat)) ∧
        (okVx s.grp x2 c → does (.vffma ⟨h, rm, sat, x2, d, a, b, c⟩)
          (fun k l => fLane (fmaF rm sat (x k l).toNat (y k l).toNat (z k l).toNat)))))

/-- Special functions and cross-lane instructions (R253, R383 to R389, R392, R393): with fewer than 64 operations outstanding the
group issues an operation whose result is decided by the sources as they stand at issue, and goes on; with 64 it waits
(R185). A draw and a record merge bring their records; a top-k brings keys and payloads to a pair of registers, a narrow
integer key extended to 32 bits by its type.
The candidates of `vtopk` (R388): the list that the instruction keeps holds each active lane once, no key ranks above one
that stands before it, and keys of which neither ranks above the other keep the order of their lanes.
Where the spec leaves a point open the statement follows the model's choices of its own: RM with an integer scan is reserved (log 7); the root record is canonical (log 12); `vtopk` writes a narrow integer key extended (log 28); a NaN in lane 0 of a scan (log 123). -/
def Obligations.CrossLaneAndTopK : Prop :=
  (
  ∀ (s : State) (h : Hdr) (ty : Ty) (rm : Rm) (op : XOper) (excl idn : Bool) (k : W6) (sh : BitVec 5) (d a b : VReg)
      (sb sc : SReg),
    let g := s.grp
    let act := activeSet g h
    let x := fun (l : Nat) => lane (getV g a) l
    let y := fun (l : Nat) => lane (getV g b) l
    let launches := fun (i : Instr) (r : Result) =>
      (outstFull g → Completes i s fun t => OnlyGroup s t { g with stall := .resource }) ∧
      (outstFull g = false → Launches i s .wait (some r) h.sw)
    let brings := fun (i : Instr) (f : Nat → LaneRes) => launches i (laneResult act d f)
    let moves := fun (i : Instr) (f : Nat → W32) => brings i fun l => ⟨f l, 0, 0⟩
    let drawn := fun (l : Nat) => if laneOn act l then some (BitVec.ofNat 32 l + (getS g (sb + 1)).extractLsb' 32 32, (x l).toNat) else none
    okV g d → okV g a →
    brings (.vex2 ⟨h, rm, d, a⟩) (fun l => fLane (ex2F (x l).toNat)) ∧
    brings (.vlg2 ⟨h, rm, d, a⟩) (fun l => fLane (lg2F (x l).toNat)) ∧
    brings (.vrcp ⟨h, rm, d, a⟩) (fun l => fLane (rcpF rm (x l).toNat)) ∧
    brings (.vrsq ⟨h, rm, d, a⟩) (fun l => fLane (rsqF rm (x l).toNat)) ∧
    brings (.vsqrt ⟨h, rm, d, a⟩) (fun l => fLane (sqrtF rm (x l).toNat)) ∧
    brings (.vscan ⟨h, ty, rm, op, excl, idn, d, a⟩)
      (laneRes (if ty = .f32 then scanF rm op excl idn act (getV g a) else scanInt ty op excl idn act (getV g a))) ∧
    brings (.vred ⟨h, ty, rm, op, idn, d, a⟩)
      (fun _ => if ty = .f32 then redF rm op idn act (getV g a) else redInt ty op idn act (getV g a)) ∧
    brings (.vhist ⟨h, sh, d, a⟩) (fun n =>
      let seen := ((List.range 32).filter fun l => laneOn act l && (x l).toNat / 2 ^ sh.toNat == n).length
      ⟨lane (getV g d) n + BitVec.ofNat 32 seen, 0, if 2 ^ 32 ≤ (lane (getV g d) n).toNat + seen then iCNTOV else 0⟩) ∧
    (okS2 g sb → okS g sc → moves (.vdraw ⟨h, d, a, sb, sc⟩) fun l =>
      (canonRec (drawTree (getS g sb) (getS g sc) 5 0
        (leaves ((getS g (sb + 1)).toNat % 2 ^ 32) ((List.range 32).map drawn)))).words.getD (l % 4) 0) ∧
    (okV g b →
      brings (.vfdiv ⟨h, rm, d, a, b⟩) (fun l => fLane (divF rm (x l).toNat (y l).toNat)) ∧
      moves (.vperm ⟨h, d, a, b⟩) (fun l => x ((y l).toNat % 32)) ∧
      (∀ j < 32, laneOn act j → (∀ i < j, laneOn act i = false) → moves (.vbcast ⟨h, d, a, b⟩) fun _ => x ((y j).toNat % 32)) ∧
      (okS2 g sc → launches (.dmerge ⟨h, d, a, b, sc⟩) { vw := [⟨d,
        maskOf fun l => [0, 1, 2, 3].all fun i => laneOn act (l / 4 * 4 + i),
        genVec fun l => (mergeDraw (getS g sc) (getS g (sc + 1) + BitVec.ofNat 64 (l / 4)) (recordAt (getV g a) (l / 4))
          (recordAt (getV g b) (l / 4))).words.getD (l % 4) 0⟩] }) ∧
      (okVn g 2 d →
        let cs := (lanesOf act).foldl (fun r l => topInsert ty ((x l).toNat, y l) r) []
        let least : Nat := if ty = .f32 then 0xFF800000 else (extended 32 ty (tyMin ty)).toNat
        let kept := act &&& maskOf fun l => decide (l < k.toNat)
        let key := fun (n : Nat) => if ty = .f32 then BitVec.ofNat 32 n else extended 32 ty (tyVal ty n)
        launches (.vtopk ⟨h, ty, k, d, a, b⟩) {
          vw := [⟨d, kept, genVec fun j => key (cs.getD j (least, 0)).1⟩,
                 ⟨d + 1, kept, genVec fun j => (cs.getD j (0, 0xFFFFFFFF)).2⟩],
          ff := genVec fun l => if laneOn act l then
            (if ty = .f32 ∧ (List.range 32).any (fun j => laneOn act j && (fval fp32 (x j).toNat).isSig) then fNV else 0)
            else 0 }))) ∧
  (
  ∀ (ty : Ty) (act : W32) (a b : Vec),
    let key := fun (l : Nat) => (lane a l).toNat
    ∃ ls : List Nat,
      (lanesOf act).foldl (fun r l => topInsert ty (key l, lane b l) r) [] = ls.map (fun l => (key l, lane b l)) ∧
      ls.Perm (lanesOf act) ∧
      ls.Pairwise fun i j => keyAbove ty (key j) (key i) = false ∧ (keyAbove ty (key i) (key j) = false → i < j))

/-- The wide accumulator (R264 to R266, R390, R391): `wclr` zeroes it, `wadd` and `wdot` add the active lanes' exact values in
any order to the same end, `wrnd` rounds it once, `wget` and `wset` move its image. -/
def Obligations.WideAccumulator : Prop :=
  ∀ (s : State) (h : Hdr) (rm : Rm) (sat bf : Bool) (d a b : VReg),
    let g := s.grp
    let act := activeSet g h
    let adds := fun (i : Instr) (f : Nat → FVal) (nv : Nat → W8) => Completes i s fun t =>
      (∀ ls : List Nat, ls.Perm (lanesOf act) → (t.slot s.cur).wa = ls.foldl (fun w l => wideAdd w (f l)) g.wa) ∧
      (∀ l, l < 32 → lane (t.slot s.cur).fflags l = lane g.fflags l ||| (if laneOn act l then nv l else 0)) ∧
      OnlyGroup s t (groupAfter s
        { g with wa := (t.slot s.cur).wa, fflags := (t.slot s.cur).fflags, iflags := (t.slot s.cur).iflags } (nextPc g.pc) h.sw)
    Does (.wclr h) s { g with wa := {} } h.sw ∧
    (okV g d →
      VectorDoes (.wrnd ⟨h, bf, rm, sat, d⟩) s h false d (fun _ _ => fLane (wideRound (if bf then bf16 else fp32) rm sat g.wa)) ∧
      Completes (.wget ⟨h, d⟩) s fun t =>
        (∀ l, l < 10 → lane (getV (t.slot s.cur) d) l = g.wa.val.extractLsb' (32 * l) 32) ∧
        lane (getV (t.slot s.cur) d) 10 = (if g.wa.nan then 4 else 0) ||| (if g.wa.pinf then 2 else 0) ||| (if g.wa.ninf then 1 else 0) ∧
        (∀ l, 11 ≤ l → l < 32 → lane (getV (t.slot s.cur) d) l = 0) ∧
        (∀ r, r ≠ d → getV (t.slot s.cur) r = getV g r) ∧
        OnlyGroup s t (groupAfter s { g with v := (t.slot s.cur).v } (nextPc g.pc) h.sw)) ∧
    (okV g a →
      adds (.wadd ⟨h, a⟩) (fun l => fval fp32 (lane (getV g a) l).toNat)
        (fun l => if (fval fp32 (lane (getV g a) l).toNat).isSig then fNV else 0) ∧
      (okV g b → adds (.wdot ⟨h, a, b⟩)
        (fun l => (wideProduct (mulV (fval bf16 (lane (getV g a) l).toNat) (fval bf16 (lane (getV g b) l).toNat)).1).1)
        (fun l =>
          let x := fval bf16 (lane (getV g a) l).toNat
          let y := fval bf16 (lane (getV g b) l).toNat
          (wideProduct (mulV x y).1).2 ||| if (mulV x y).2 || x.isSig || y.isSig then fNV else 0)) ∧
      Completes (.wset ⟨h, a⟩) s fun t =>
        (∀ l, l < 10 → (t.slot s.cur).wa.val.extractLsb' (32 * l) 32 = lane (getV g a) l) ∧
        (t.slot s.cur).wa.nan = (lane (getV g a) 10).getLsbD 2 ∧ (t.slot s.cur).wa.pinf = (lane (getV g a) 10).getLsbD 1 ∧
        (t.slot s.cur).wa.ninf = (lane (getV g a) 10).getLsbD 0 ∧
        OnlyGroup s t (groupAfter s { g with wa := (t.slot s.cur).wa } (nextPc g.pc) h.sw))

/-! ### Memory instructions -/

/-- Lane-wise accesses to die memory and to the scratchpad (R202, R211, R215 to R217, R396 to R400, R402): once every lane that
acts has its translation, the access issues with the addresses, the store data and the atomic operands captured, and the
group goes on; an access fault of any lane stops every lane and launches a MEMORY fault that names the faulting lanes and the
address of the lowest; where lanes meet NOTPRESENT or MOVING and none faults, the others issue, and the group parks at the
instruction with those lanes and posts one fault record; with no lane it only goes on, and with 64 operations outstanding it waits. -/
def Obligations.MemoryAccesses : Prop :=
  ∀ (s : State) (h : Hdr) (ty : Ty) (op : AtomOp) (nr nov : Bool) (d d2 vo : VReg) (br : BReg) (imm : W32),
    let g := s.grp
    let act := memActive g h
    let b := tget g.b br.toNat {}
    let w := tyWidth ty / 8
    let dieOffset := fun (l : Nat) => (b.base.toNat : Int) + (if nov then 0 else (lane (getV g vo) l).toInt) + imm.toInt
    let scrOffset := fun (l : Nat) => (if nov then 0 else (lane (getV g vo) l).toInt) + imm.toInt
    let none_ := fun (_ : Nat) => ([] : List W8)
    let data := fun (n l : Nat) => leBytes n (lane (getV g d) l).toNat
    let cmp := fun (l : Nat) => lane (getV g d2) l
    let ret := if nr then none else some d2
    -- an access, its operation, its offsets, what it stores, and the translation of each lane
    let issues := fun (i : Instr) (kind : MemKind) (scr : Bool) (off : Nat → Int) (dat : Nat → List W8) (cm : Nat → W32)
        (trans : Nat → TRes) =>
      (outstFull g → Completes i s fun t => OnlyGroup s t { g with stall := .resource }) ∧
      (outstFull g = false →
        (act = 0 → Does i s g h.sw) ∧
        (∀ addr : Nat → Nat, act ≠ 0 → (∀ l < 32, laneOn act l → trans l = .ok (addr l)) →
          Launches i s (.mem ⟨kind, scr, if scr then 0 else b.obj.toNat,
            (lanesOf act).map fun l => ⟨l, (off l).toNat, addr l, dat l, cm l⟩, []⟩) none h.sw) ∧
        (∀ j < 32, ∀ c, laneOn act j → trans j = .fault c → (∀ l < j, laneOn act l → ∀ c', trans l ≠ .fault c') →
          Launches i s .wait (some { fault := some {
            cause := 0x09, code := c, precise := false, fpc := g.pc,
            lanes := maskOf fun l => laneOn act l && (match trans l with | .fault _ => true | _ => false),
            arg0 := if scr then BitVec.ofInt 64 (off j) else objAddr b.obj.toNat (off j) } }) h.sw) ∧
        (let obj := if scr then 0 else b.obj.toNat
          let some_ := fun (parks : Bool) => (lanesOf act).filterMap fun l => match trans l with
            | .ok a => if parks then none else some (⟨l, (off l).toNat, a, dat l, cm l⟩ : LaneOp)
            | .park => if parks then some ⟨l, (off l).toNat, 0, dat l, cm l⟩ else none
            | .fault _ => none
          let id := if some_ false = [] then s.ids else s.ids + 1
          (∀ l < 32, laneOn act l → ∀ c, trans l ≠ .fault c) → ∀ j < 32, laneOn act j → trans j = .park →
            (∀ l < j, laneOn act l → trans l ≠ .park) → Completes i s fun t =>
              t.slot s.cur = groupAfter s { g with
                outst := g.outst ++ (if some_ false = [] then [] else [⟨s.ids, g.pc, .mem ⟨kind, scr, obj, some_ false, []⟩, none⟩]),
                fpark := some ⟨some ⟨kind, scr, obj, some_ true, []⟩, id, h.sw, obj, (off j).toNat⟩,
                stopped := g.stopped || g.bind.sstate == .draining } g.pc false ∧
              (t.die (slotDie s.cur)).faults = (s.die (slotDie s.cur)).faults ++
                [{ id := id, slot := some s.cur, asid := g.bind.asid, obj := obj, off := (off j).toNat }] ∧
              (∀ k, k ≠ s.cur → t.slot k = s.slot k) ∧ SameMemory s t))
    let die := fun (w : Nat) (rt : Right) (l : Nat) => transLane s (slotDie s.cur) g.bind.asid.toNat b (dieOffset l) w w rt
    let scr := fun (w l : Nat) => scrLane g (s.cur / 16) (scrOffset l) w
    okV g d → nov ∨ okV g vo →
    issues (.vld ⟨h, ty, d, br, vo, nov, imm⟩) (.load ty d) false dieOffset none_ (fun _ => 0) (die w .r) ∧
    issues (.vst ⟨h, ty, d, br, vo, nov, imm⟩) (.store w) false dieOffset (data w) (fun _ => 0) (die w .w) ∧
    issues (.vlds ⟨h, ty, d, vo, nov, imm⟩) (.load ty d) true scrOffset none_ (fun _ => 0) (scr w) ∧
    issues (.vsts ⟨h, ty, d, vo, nov, imm⟩) (.store w) true scrOffset (data w) (fun _ => 0) (scr w) ∧
    (nr ∨ okV g d2 →
      issues (.vatom ⟨h, op, ty, nr, d, br, vo, nov, d2, imm⟩) (.atom op ty ret) false dieOffset (data 4) cmp (die 4 .a) ∧
      issues (.vatoms ⟨h, op, ty, nr, d, vo, nov, d2, imm⟩) (.atom op ty ret) true scrOffset (data 4) cmp (scr 4))

/-- Tile rows and configurations (R177, R188, R402, R420): `tld` waits for users of its tile and joins the scoreboard with the
translated rows, `tst` waits for writers and stores the rows it reads at issue, and `tcset` traps on a reserved value, waits
for users of the tile, writes the configuration, and zeroes the tile when its shape changes. -/
def Obligations.TileRowsAndConfiguration : Prop :=
  ∀ (s : State) (h : Hdr) (nov : Bool) (vo : VReg) (br : BReg) (imm : W32) (td : TReg) (sa : SReg),
    let g := s.grp
    let t := td.toNat
    let word := tget g.tc t 0
    let w := 4 * (bitsOf word.toNat 10 6 + 1)
    let act := memActive g h &&& maskOf fun l => decide (l < bitsOf word.toNat 15 11 + 1)
    let b := tget g.b br.toNat {}
    let off := fun (l : Nat) => (b.base.toNat : Int) + (if nov then 0 else (lane (getV g vo) l).toInt) + imm.toInt
    let trans := fun (rt : Right) (l : Nat) => transLane s (slotDie s.cur) g.bind.asid.toNat b (off l) w 128 rt
    let waits := fun (i : Instr) (r : Stall) => Completes i s fun t => OnlyGroup s t { g with stall := r }
    (okT g td → nov ∨ okV g vo →
      (outstFull g = false → userOf g [t] → waits (.tld ⟨h, td, br, vo, nov, imm⟩) .tile) ∧
      (outstFull g → waits (.tld ⟨h, td, br, vo, nov, imm⟩) .resource) ∧
      (userOf g [t] = false → outstFull g = false →
        (act = 0 → Does (.tld ⟨h, td, br, vo, nov, imm⟩) s g h.sw) ∧
        (∀ addr : Nat → Nat, act ≠ 0 → (∀ l < 32, laneOn act l → trans .r l = .ok (addr l)) →
          Completes (.tld ⟨h, td, br, vo, nov, imm⟩) s fun u => Accepted s u [] [t] false (.load ⟨.tload td w, false, b.obj.toNat,
            (lanesOf act).map fun l => ⟨l, (off l).toNat, addr l, [], 0⟩, []⟩) false h.sw)) ∧
      (outstFull g = false → writerOf g [t] → waits (.tst ⟨h, td, br, vo, nov, imm⟩) .tile) ∧
      (outstFull g → waits (.tst ⟨h, td, br, vo, nov, imm⟩) .resource) ∧
      (writerOf g [t] = false → outstFull g = false →
        (act = 0 → Does (.tst ⟨h, td, br, vo, nov, imm⟩) s g h.sw) ∧
        (∀ addr : Nat → Nat, act ≠ 0 → (∀ l < 32, laneOn act l → trans .w l = .ok (addr l)) →
          Launches (.tst ⟨h, td, br, vo, nov, imm⟩) s (.mem ⟨.store w, false, b.obj.toNat,
            (lanesOf act).map fun l => ⟨l, (off l).toNat, addr l, memBytes g.t (4096 * t + 128 * l) w, 0⟩, []⟩) none h.sw))) ∧
    (okT g td → okS g sa →
      let v := getS g sa
      (bitsOf v.toNat 5 3 = 7 ∨ bitsOf v.toNat 2 0 ≠ 0 ∨ bitsOf v.toNat 63 16 ≠ 0 → exec (.tcset ⟨h.sw, td, sa⟩) s =
        .next (takeTrap s s.cur { cause := 0x07, lanes := g.em, fpc := g.pc, rpc := g.pc })) ∧
      (bitsOf v.toNat 5 3 ≠ 7 → bitsOf v.toNat 2 0 = 0 → bitsOf v.toNat 63 16 = 0 →
        (userOf g [t] → waits (.tcset ⟨h.sw, td, sa⟩) .interlock) ∧
        (userOf g [t] = false →
          (bitsOf v.toNat 15 6 = bitsOf word.toNat 15 6 → Does (.tcset ⟨h.sw, td, sa⟩) s { g with tc := tset g.tc t v } h.sw) ∧
          (bitsOf v.toNat 15 6 ≠ bitsOf word.toNat 15 6 → Does (.tcset ⟨h.sw, td, sa⟩) s
            { g with tc := tset g.tc t v, t := memClear g.t (4096 * t) (4096 * t + 4096) } h.sw))))

/-- Matrix-engine instructions (R174, R187, R188, R416, R418 to R432): with their registers and tiles allocated, whole quarters
active, no unfinished instruction on their tiles and a place at the engine, they are accepted with the operands read at
issue; a partly active quarter raises MASK, a used tile makes them wait at the scoreboard, and a full engine waits. -/
def Obligations.MatrixInstructions : Prop :=
  ∀ (s : State) (o : Tmma) (p : TmmaSparse) (q : TConv) (r : TDraw) (z : TZero) (m : TMov),
    let g := s.grp
    let ta := fun (t : TReg) => t.toNat
    let accepts := fun (i : Instr) (h : Hdr) (quarters : Bool) (reads writes : List Nat) (kind : TileKind) (later : Bool) =>
      (quarters → quartersUniform (activeSet g h) = false → exec i s = .next (takeTrap s s.cur
        { cause := 0x06, code := 0x00, lanes := activeSet g h, fpc := g.pc, rpc := g.pc })) ∧
      ((quarters → quartersUniform (activeSet g h)) →
        (engineFull s ∨ (later ∧ outstFull g) → Completes i s fun t => OnlyGroup s t { g with stall := .resource }) ∧
        (engineFull s = false → (later → outstFull g = false) → writerOf g reads ∨ userOf g writes →
          Completes i s fun t => OnlyGroup s t { g with stall := .tile }) ∧
        (writerOf g reads = false → userOf g writes = false → engineFull s = false → (later → outstFull g = false) →
          Completes i s fun t => Accepted s t reads writes true kind later h.sw))
    (okT g z.td → accepts (.tzero z) z.h false [] [ta z.td] (.zero z.td (activeSet g z.h)) false) ∧
    (okT g m.t → okV g m.v → accepts (.tmovTv m) m.h false [ta m.t] [] (.movTv m (activeSet g m.h)) true ∧
      accepts (.tmovVt m) m.h false [] [ta m.t] (.movVt m (activeSet g m.h) (getV g m.v)) false) ∧
    (okT g q.td → okT g q.ta → accepts (.tconv q) q.h true [ta q.ta] [ta q.td] (.conv q (activeSet g q.h)) false) ∧
    (okT g r.td → okT g r.ta → okV g r.vs → okS2 g r.sa → okS g r.sb →
      accepts (.tdraw r) r.h true [ta r.ta] [ta r.td] (.draw r (activeSet g r.h) (getV g r.vs) (getS g r.sa)
        ((getS g (r.sa + 1)).setWidth 32) (getS g r.sb)) false) ∧
    (okT g p.td → p.ta.toNat + 1 < g.bind.tiles.toNat → okT g p.tb → okVn g 2 p.vs → okS2 g p.sa → okS g p.sb →
      accepts (.tmmaSparse p) p.h true [ta p.ta, ta p.ta + 1, ta p.tb] [ta p.td] (.sparse p (activeSet g p.h) (getV g p.vs)
        (getVn g (p.vs.toNat + 1)) (getS g p.sa) ((getS g (p.sa + 1)).setWidth 32) (getS g p.sb)) false) ∧
    (let desc := if isFp8 o.tya then getVn g (o.vs.toNat + 1) else getV g o.vs
      let bs := (quartersOf (activeSet g o.h)).map fun k => if o.qd then (lane desc (8 * k)).toNat % 8 else ta o.tb
      tmmaRegs g o → (∀ b ∈ bs, b < g.bind.tiles.toNat) →
      accepts (.tmma o) o.h true (ta o.ta :: bs) [ta o.td] (.mma o (activeSet g o.h) (getV g o.vs) desc
        ((getS g o.sa).setWidth 32)) false)

/-- Prefetches (R403) change no register and no memory, and raise nothing, whatever their lanes' addresses are. `bset` (R210) loads a
translation register with the run of pages that holds the address, traps precisely on an object it may not use, and parks
the group on a run that is absent or moving.
Where the spec leaves a point open the statement follows the model's choices of its own: LIM stops at its largest value (log 11); LANES of these traps (log 30). -/
def Obligations.PrefetchAndTranslationRegisters : Prop :=
  ∀ (s : State) (h : Hdr) (nov sw : Bool) (vo : VReg) (br : BReg) (imm : W32) (a : SReg),
    let g := s.grp
    let va := getS g a
    let n := va.toNat / 2 ^ 44
    let off := va.toNat % 2 ^ 44
    let o := s.obj g.bind.asid.toNat n
    let traps := fun (c : W8) => exec (.bset ⟨sw, br, a⟩) s = .next (takeTrap s s.cur
      { cause := 0x09, code := c, lanes := g.em, fpc := g.pc, rpc := g.pc, arg0 := va })
    (nov ∨ okV g vo →
      Does (.vprefLlc ⟨h, br, vo, nov, imm⟩) s g h.sw ∧
      Completes (.vprefL1 ⟨h, br, vo, nov, imm⟩) s fun t =>
        t.slot s.cur = groupAfter s g (nextPc g.pc) h.sw ∧ (∀ k, k ≠ s.cur → t.slot k = s.slot k) ∧
        (∀ c, (t.core c).dirty = (s.core c).dirty) ∧ { t with slots := s.slots, cores := s.cores, free := s.free } = s) ∧
    (okS g a →
      (n = 0 ∨ o.state = .invalid → traps 0x20) ∧
      (n ≠ 0 → o.state ≠ .invalid →
        (o.state = .lost → traps 0x27) ∧
        (o.state ≠ .lost → o.kind ≠ .die → traps 0x25) ∧
        (o.state ≠ .lost → o.kind = .die → o.home ≠ slotDie s.cur → traps 0x24) ∧
        (o.state ≠ .lost → o.kind = .die → o.home = slotDie s.cur →
          (o.bound ≤ off → traps 0x21) ∧
          (off < o.bound →
            (extentAt o off = none → traps 0x23) ∧
            (∀ x, extentAt o off = some x →
              (o.state = .moving ∨ x.p = false → Completes (.bset ⟨sw, br, a⟩) s fun t =>
                (∃ p, (t.slot s.cur).fpark = some p ∧ p.op = none ∧ p.pageObj = n ∧ p.pageOff = off) ∧
                (t.slot s.cur).pc = g.pc ∧ (t.slot s.cur).b = g.b) ∧
              (o.state ≠ .moving → x.p → ∃ b : TransReg,
                b.obj = BitVec.ofNat 20 n ∧ b.base = BitVec.ofNat 44 off ∧
                b.pfn = BitVec.ofNat 28 (x.pfn + (off / 4096 - x.offpg)) ∧
                b.lim = BitVec.ofNat 20 (min (min ((x.ngm1 + 1) * x.gran - (off / 4096 - x.offpg))
                  ((o.bound + 4095) / 4096 - off / 4096)) (2 ^ 20 - 1)) ∧
                b.key = BitVec.ofNat 7 o.key ∧ b.set = true ∧ b.v = true ∧ b.r = o.r ∧ b.w = o.w ∧ b.a = o.a ∧
                Does (.bset ⟨sw, br, a⟩) s { g with b := tset g.b br.toNat b } sw))))))

/-- Phases (R237, R238, R405): a phase completes at once when every earlier access of the group and every earlier operation on a
queue of its die has performed, `phase.die` after its stored lines have been accepted; otherwise the group goes on with the phase pending, and a second phase waits. -/
def Obligations.Phases : Prop :=
  ∀ (s : State) (h : Hdr),
    let g := s.grp
    let ready := phaseReady g (s.pkgid.toNat * 8 + slotDie s.cur) s.ids && !owesMerge s s.cur
    let lines := dirtyLines (s.core (s.cur / 16)) [s.cur % 16]
    let after := fun (p : Option Phase) => groupAfter s { g with phase := p } (nextPc g.pc) h.sw
    (g.phase.isSome → ∀ i ∈ [Instr.phaseBlk h, .phaseDie h], Completes i s fun t => OnlyGroup s t { g with stall := .resource }) ∧
    (g.phase = none →
      (ready = false →
        Completes (.phaseBlk h) s (fun t => t.slot s.cur = after (some ⟨s.ids, false, none⟩) ∧
          ∀ k, k ≠ s.cur → t.slot k = s.slot k) ∧
        Completes (.phaseDie h) s fun t => t.slot s.cur = after (some ⟨s.ids, true, none⟩) ∧
          ∀ k, k ≠ s.cur → t.slot k = s.slot k) ∧
      (ready →
        Completes (.phaseBlk h) s (fun t => t.slot s.cur = after none ∧ ∀ k, k ≠ s.cur → t.slot k = s.slot k) ∧
        (lines = [] → (∀ p ∈ g.pubs, p.2 < s.ids) → Completes (.phaseDie h) s fun t =>
          (t.slot s.cur).phase = none ∧ (t.slot s.cur).pc = nextPc g.pc ∧ (t.core (s.cur / 16)).snap = s.mem ∧ t.mem = s.mem) ∧
        (lines ≠ [] → Completes (.phaseDie h) s fun t =>
          (t.slot s.cur).pc = nextPc g.pc ∧ (t.slot s.cur).pubs = g.pubs ++ lines.map (fun l => (l, s.ids + 1)) ∧
          (t.slot s.cur).phase = some ⟨s.ids, true, some (s.ids + 1)⟩ ∧ t.mem = s.mem)))

/-- `claim` (R220, R406): an object homed on the die answers OK, one homed elsewhere joins the claims of its home with the
range in whole pages, an access fault is launched as a MEMORY trap, no active lane does nothing, and the 65th operation
waits. `tlrd` (R414) launches a read of the counter word.
`twait` (R413): while the counter has not reached the number the group is held at its place, with the number kept; a
failure that the number covers raises COPY with the counter word and its index; otherwise the core refreshes and the group
goes on. The number is that of the first issue. -/
def Obligations.ClaimsAndTimelines : Prop :=
  (
  ∀ (s : State) (h : Hdr) (d a b : SReg) (tl : W3),
    let g := s.grp
    let act := activeSet g h
    let va := getS g a
    let n := va.toNat / 2 ^ 44
    let off := va.toNat % 2 ^ 44
    let len := (getS g b).toNat
    let o := s.obj g.bind.asid.toNat n
    let die := slotDie s.cur
    let home := if o.kind = .die then o.home else die
    let waits := fun (i : Instr) => Completes i s fun t => OnlyGroup s t { g with stall := .resource }
    (okS g d →
      (outstFull g → waits (.tlrd ⟨h, tl, d⟩)) ∧ (outstFull g = false → Launches (.tlrd ⟨h, tl, d⟩) s (.tlrd d tl) none h.sw)) ∧
    (okS g d → okS g a → okS g b →
      (act = 0 → Does (.claim ⟨h, d, a, b⟩) s g h.sw) ∧
      (act ≠ 0 → outstFull g → waits (.claim ⟨h, d, a, b⟩)) ∧
      (act ≠ 0 → outstFull g = false →
        (∀ c, claimFault o n off = some c →
          let trap : Trap := { cause := 0x09, code := c, precise := false, lanes := act, fpc := g.pc, arg0 := va }
          Launches (.claim ⟨h, d, a, b⟩) s .wait (some { fault := some trap }) h.sw) ∧
        (claimFault o n off = none →
          (o.kind = .die → o.home = die → Launches (.claim ⟨h, d, a, b⟩) s .wait (some { sw := [(d, 0)] }) h.sw) ∧
          (o.kind ≠ .die ∨ o.home ≠ die → Completes (.claim ⟨h, d, a, b⟩) s fun t =>
            t.slot s.cur = groupAfter s { g with outst := g.outst ++ [⟨s.ids, g.pc, .claim d va (getS g b), none⟩] }
              (nextPc g.pc) h.sw ∧
            (∀ k, k ≠ s.cur → t.slot k = s.slot k) ∧
            (t.die home).claims = (s.die home).claims ++ [{
              slot := s.cur, op := s.ids, asid := g.bind.asid, obj := n, lo := off / 4096 * 4096,
              hi := min ((off + len + 4095) / 4096 * 4096) ((o.bound + 4095) / 4096 * 4096), dest := die, lanes := act }] ∧
            t.mem = s.mem ∧ t.objs = s.objs))))) ∧
  (
  ∀ (s : State) (h : Hdr) (tl : W3) (a : SReg) (imm : BitVec 7) (i : Instr) (n : Nat),
    let g := s.grp
    let w := tget (s.block s.lead).tl tl.toNat 0
    let val := bitsOf w.toNat 39 0
    let kept := fun (m : Nat) => (match g.twait with
      | some p => p.2.toNat
      | none => m)
    ((i = .twait ⟨h, tl, a⟩ ∧ okS g a ∧ n = kept ((getS g a).toNat % 2 ^ 40)) ∨
      (i = .twaitImm ⟨h, tl, imm⟩ ∧ n = kept ((val + bitsOf w.toNat 46 40 + 2 ^ 40 - imm.toNat) % 2 ^ 40))) →
    let reached := (val + 2 ^ 40 - n) % 2 ^ 40 < 2 ^ 39
    let failed := w.getLsbD 47 = true ∧ (n % 2 ^ 16 + 2 ^ 16 - bitsOf w.toNat 63 48) % 2 ^ 16 < 2 ^ 15
    (¬ reached → Completes i s fun t => OnlyGroup s t
      { g with twait := some (tl, BitVec.ofNat 40 n), marked := false, stopped := g.stopped || g.bind.sstate == .draining }) ∧
    (reached → failed → exec i s = .next (takeTrap (s.setSlot s.cur { g with twait := none }) s.cur
      { cause := 0x0C, lanes := activeSet g h, fpc := g.pc, rpc := nextPc g.pc, arg0 := w, arg1 := tl.setWidth 64 })) ∧
    (reached → ¬ failed → Completes i s fun t =>
      t.slot s.cur = groupAfter s { g with twait := none } (nextPc g.pc) h.sw ∧ (∀ k, k ≠ s.cur → t.slot k = s.slot k) ∧
      (t.core (s.cur / 16)).snap = s.mem ∧ t.mem = s.mem))

/-- `tcopy` (R190, R243, R409): with every lane active and its record readable, the copy takes the number VAL + PEND + 1, PEND
rises by one, the number goes to sD, and the record, captured as the group sees it, joins the die's copies; a partly active set raises MASK; a
sixteenth copy of the block, a full counter or a pending phase makes it wait. -/
def Obligations.CopyIssue : Prop :=
  ∀ (s : State) (h : Hdr) (tl : W3) (d qh : SReg),
    let g := s.grp
    let die := slotDie s.cur
    let w := tget (s.block s.lead).tl tl.toNat 0
    let busy := g.phase.isSome ∨ 16 ≤ blockCopies s s.lead ∨ bitsOf w.toNat 46 40 = 127
    okS g d → okS g qh →
    (activeSet g h ≠ 0xFFFFFFFF → exec (.tcopy ⟨h, tl, d, qh⟩) s = .next (takeTrap s s.cur
      { cause := 0x06, code := 0x01, lanes := activeSet g h, fpc := g.pc, rpc := g.pc })) ∧
    (activeSet g h = 0xFFFFFFFF →
      (busy → Completes (.tcopy ⟨h, tl, d, qh⟩) s fun t => OnlyGroup s t { g with stall := .resource }) ∧
      (¬ busy → ∀ addrs, recWalk s die g.bind.asid.toNat (getS g qh) 192 = .ok addrs →
        (∀ a ∈ addrs, poisoned s (s.cur / 16) (s.cur % 16) a = false) →
        let n := (bitsOf w.toNat 39 0 + bitsOf w.toNat 46 40 + 1) % 2 ^ 40
        Completes (.tcopy ⟨h, tl, d, qh⟩) s fun t =>
          getS (t.slot s.cur) d = BitVec.ofNat 64 n ∧ (t.slot s.cur).pc = nextPc g.pc ∧
          (∀ r, r ≠ d → getS (t.slot s.cur) r = getS g r) ∧ (t.slot s.cur).v = g.v ∧ t.mem = s.mem ∧ t.scr = s.scr ∧
          bitsOf (tget (t.block s.lead).tl tl.toNat 0).toNat 39 0 = bitsOf w.toNat 39 0 ∧
          bitsOf (tget (t.block s.lead).tl tl.toNat 0).toNat 46 40 = bitsOf w.toNat 46 40 + 1 ∧
          ∃ c, (t.die die).copies = (s.die die).copies ++ [c] ∧ c.slot = s.cur ∧ c.lead = s.lead ∧ c.asid = g.bind.asid ∧
            c.tl = tl ∧ c.num = BitVec.ofNat 40 n ∧ c.done = 0 ∧ c.record.length = addrs.length ∧
            ∀ p ∈ addrs.zip c.record, ∃ m ∈ [(s.core (s.cur / 16)).snap, s.mem],
              p.2 = (dirtyByte (s.core (s.cur / 16)) (s.cur % 16) p.1).getD (memRead m p.1)))

/-! ### Expert instructions -/

/-- The expert instructions (R433 to R438) at their issue: with an active lane and fewer than 64 operations outstanding, the
indexes, EIDs and further operands of the active lanes, or the one entry that two scalars name, go to the controller of the
die, and the group goes on; with no active lane they do nothing, but for `xpark`, which answers all the same. -/
def Obligations.ExpertInstructions : Prop :=
  ∀ (s : State) (h : Hdr) (dv v : VReg) (d a b : SReg),
    let g := s.grp
    let act := activeSet g h
    let word := fun (n i l : Nat) => if i < n then lane (getVn g (v.toNat + i)) l else 0
    let lanes := fun (n : Nat) => (lanesOf act).map fun l => (⟨l, (word n 0 l).setWidth 16, word n 1 l, word n 2 l, word n 3 l,
      word n 4 l, word n 5 l⟩ : XLane)
    let one : List XLane := [⟨0, (getS g a).setWidth 16, (getS g b).setWidth 32, 0, 0, 0, 0⟩]
    let leaves := fun (i : Instr) (kind : XKind) (xs : List XLane) =>
      (outstFull g → Completes i s fun t => OnlyGroup s t { g with stall := .resource }) ∧
      (outstFull g = false → Launches i s (.expert kind xs act) none h.sw)
    let goes := fun (i : Instr) (kind : XKind) (xs : List XLane) => (act = 0 → Does i s g h.sw) ∧ (act ≠ 0 → leaves i kind xs)
    (okV g dv → okVn g 2 v →
      goes (.xlook ⟨h, dv, v⟩) (.look false dv) (lanes 2) ∧ goes (.xlookHold ⟨h, dv, v⟩) (.look true dv) (lanes 2)) ∧
    (okVn g 2 v → goes (.xdrop ⟨h, v⟩) .drop (lanes 2)) ∧
    (okS g d → okVn g 6 v → leaves (.xpark ⟨h, d, v⟩) (.park d) (lanes 6)) ∧
    (okS g a → okS g b →
      goes (.xfetch ⟨h, a, b⟩) .fetch one ∧ goes (.xunpin ⟨h, a, b⟩) .unpin one ∧
      (okS g d → goes (.xpin ⟨h, d, a, b⟩) (.pin d) one) ∧ (okS2 g d → goes (.xstat ⟨h, d, a, b⟩) (.stat d) one))

/-! ### Queue instructions -/

/-- The queue instructions that ask a home (R28, R439, R441, R444 to R452, R459). A handle that does not translate raises
QUEUE precisely with its code; a `qsys` form takes a PQID and is ILLEGAL for a group of any tenant but the device tenant; with
no active lane nothing happens; the 65th operation waits. Otherwise the operation joins the outstanding ones with its
operands as they stand, and leaves at once for its home unless a fence holds it back.
`qput` with an index at or beyond the ticket's N raises RANGE at the source (R441, R445), and `qmerge` with a register key
above 255 likewise (R448). -/
def Obligations.QueueIssueAndTraps : Prop :=
  (
  ∀ (s : State) (h : Hdr) (try_ reg all : Bool) (esz : W3) (n : BitVec 7) (idx : W6) (d qh a b : SReg) (v : VReg),
    let g := s.grp
    let act := activeSet g h
    let die := slotDie s.cur
    let handle : W32 := (getS g qh).setWidth 32
    let ticket := getS g a
    let element := elemBytes g v (16 * 2 ^ esz.toNat)
    let owner := s.mgmt.reservedAsids.contains g.bind.asid.toNat
    -- an instruction of the device tenant or not, whether its registers are allocated, its right, and its operation
    let asks := fun (i : Instr) (sys ok : Bool) (right : Nat) (q : QOp) =>
      (sys → owner = false → exec i s = .next (takeTrap s s.cur
        { cause := 0x01, code := 0x01, lanes := g.em, fpc := g.pc, rpc := g.pc })) ∧
      (ok → okS g qh → (sys → owner) →
        (act = 0 → Does i s g h.sw) ∧
        (act ≠ 0 → outstFull g → Completes i s fun t => OnlyGroup s t { g with stall := .resource }) ∧
        (act ≠ 0 → outstFull g = false →
          (∀ c, sys = false → translate s g.bind.asid.toNat handle right = .error c → exec i s = .next (takeTrap s s.cur
            { cause := 0x0A, code := c, lanes := act, fpc := g.pc, rpc := g.pc, arg0 := handle.setWidth 64 })) ∧
          (∀ p, (if sys then Except.ok handle else translate s g.bind.asid.toNat handle right) = .ok p → g.slept = [] →
            let q' : QOp := { q with pqid := p, handle := handle, lanes := act,
                                     tenant := if owner then s.mgmt.devten else g.bind.tenant }
            (g.fence.isSome → Launches i s (.queue q') none h.sw) ∧
            (g.fence = none → g.phase = none → anyHeld g = false → unreachable s die p = false →
              Completes i s fun t => (t.slot s.cur).pc = nextPc g.pc ∧
                (∃ num, ⟨s.ids, g.pc, .queue { q' with st := .sent (flowTo s die p), num := num }, none⟩ ∈ (t.slot s.cur).outst) ∧
                (∀ r, getS (t.slot s.cur) r = getS g r) ∧ (t.slot s.cur).v = g.v ∧ t.mem = s.mem ∧
                (inPackage s (flowTo s die p) → ∃ m ∈ (t.flow (flowTo s die p)).arrived,
                  m.typ = (opMsg q' .none).typ ∧ m.queue = pqQueue p ∧ m.port = pqPort p ∧ m.tenant = q'.tenant ∧
                  m.seq = q'.seq ∧ m.data = (opMsg q' .none).data ∧ m.ctx = .group g.ctx s.ids)))))
    let index := if reg then (getS g b).toNat else idx.toNat
    ∀ sys : Bool,
      let form := fun (plain priv : Instr) => if sys then priv else plain
      asks (form (.qres ⟨h, try_, d, qh, reg, a, n⟩) (.qsysRes ⟨h, try_, d, qh, reg, a, n⟩)) sys (okS2 g d && (!reg || okS g a)) rEnq
        { kind := .res, d := d, try_ := try_, n := if reg then (getS g a).toNat else n.toNat } ∧
      (index < ticketN ticket →
        asks (form (.qput ⟨h, d, qh, a, v, esz, reg, b, idx⟩) (.qsysPut ⟨h, d, qh, a, v, esz, reg, b, idx⟩)) sys
          (okS g d && okS g a && (!reg || okS g b) && okElem g v esz) rEnq
          { kind := .put, d := d, esz := esz, seq := ticketSeq ticket + BitVec.ofNat 48 index, data := element }) ∧
      asks (form (.qpush ⟨h, try_, d, qh, v, esz⟩) (.qsysPush ⟨h, try_, d, qh, v, esz⟩)) sys (okS g d && okElem g v esz) rEnq
        { kind := .push, d := d, esz := esz, try_ := try_, data := element } ∧
      asks (form (.qget ⟨h, try_, d, qh, v, esz⟩) (.qsysGet ⟨h, try_, d, qh, v, esz⟩)) sys (okS g d && okElem g v esz) rDeq
        { kind := .get, d := d, v := v, esz := esz, try_ := try_ } ∧
      asks (form (.qpeek ⟨h, d, qh, v, esz⟩) (.qsysPeek ⟨h, d, qh, v, esz⟩)) sys (okS g d && okElem g v esz) rPeek
        { kind := .peek, d := d, v := v, esz := esz } ∧
      asks (form (.qcount ⟨h, d, qh⟩) (.qsysCount ⟨h, d, qh⟩)) sys (okS g d) rPeek { kind := .count, d := d } ∧
      asks (form (.qsleep ⟨h, all, d, qh⟩) (.qsysSleep ⟨h, all, d, qh⟩)) sys (okS g d) rSleep { kind := .sleep, d := d, all := all } ∧
      asks (form (.qwake ⟨h, all, d, qh⟩) (.qsysWake ⟨h, all, d, qh⟩)) sys (okS g d) rSleep { kind := .wake, d := d, all := all } ∧
      asks (form (.qrel ⟨h, d, qh, a⟩) (.qsysRel ⟨h, d, qh, a, false⟩)) sys (okS g d && okS g a) rEnq
        { kind := .rel, d := d, ticket := ticket, seq := ticketSeq ticket } ∧
      asks (form (.qrelMrg ⟨h, d, qh⟩) (.qsysRel ⟨h, d, qh, a, true⟩)) sys (okS g d) rMerge { kind := .relMrg, d := d }) ∧
  (
  ∀ (s : State) (h : Hdr) (esz : W3) (idx : W6) (d qh a b : SReg) (v : VReg) (p : W32),
    let g := s.grp
    let act := activeSet g h
    let handle : W32 := (getS g qh).setWidth 32
    let traps := fun (i : Instr) => exec i s = .next (takeTrap s s.cur
      { cause := 0x0A, code := 0x15, lanes := act, fpc := g.pc, rpc := g.pc, arg0 := handle.setWidth 64, arg1 := p.setWidth 64 })
    act ≠ 0 → outstFull g = false → okS g qh → okS g a → okElem g v esz →
    (translate s g.bind.asid.toNat handle rEnq = .ok p → okS g d →
      (ticketN (getS g a) ≤ idx.toNat → traps (.qput ⟨h, d, qh, a, v, esz, false, b, idx⟩)) ∧
      (okS g b → ticketN (getS g a) ≤ (getS g b).toNat → traps (.qput ⟨h, d, qh, a, v, esz, true, b, idx⟩))) ∧
    (translate s g.bind.asid.toNat handle rMerge = .ok p → 256 ≤ (getS g a).toNat → ∀ key,
      traps (.qmerge ⟨h, qh, v, esz, true, a, key⟩)))

/-- Merge contributions and fences (R85, R448, R453, R459): a contribution enters the marver of the source die as its most recently
used entry; a fence with no flow used completes at once, one with flows used waits for each of them, and one with a flow to a
package declared unreachable faults; both wait behind an outstanding fence, a pending phase and operations held back.
Dispatches (R53, R455, R457): with every lane active and its descriptor, target table and handles read, `qscatter` takes a
number as a copy does and joins the die's dispatches; `qcurrd` launches a read of a cursor word; `qcurwr` writes one, with
the reserved bits of word 0 zero, once no dispatch of the group is outstanding; the dispatch of a malformed descriptor has
failed.
Where the spec leaves a point open the statement follows the model's choices of its own: a second fence waits (log 37). -/
def Obligations.MergesFencesAndDispatches : Prop :=
  (
  ∀ (s : State) (h : Hdr) (reg sys : Bool) (esz : W3) (key : W8) (qh a : SReg) (v : VReg) (p : W32),
    let g := s.grp
    let act := activeSet g h
    let die := slotDie s.cur
    let handle : W32 := (getS g qh).setWidth 32
    let owner := s.mgmt.reservedAsids.contains g.bind.asid.toNat
    let k : W8 := if reg then (getS g a).setWidth 8 else key
    let merge := if sys then Instr.qsysMerge ⟨h, qh, v, esz, reg, a, key⟩ else .qmerge ⟨h, qh, v, esz, reg, a, key⟩
    let fence := if sys then Instr.qsysFence h else .qfence h
    let busy := g.fence.isSome ∨ g.phase.isSome ∨ anyHeld g
    let waits := fun (i : Instr) => Completes i s fun t => OnlyGroup s t { g with stall := .resource }
    let lost := g.flows.any fun f => f.dpkg != s.pkgid && (s.limiter (limKey f.sdie.toNat f.dpkg)).unreachable
    (sys → owner = false → ∀ i ∈ [merge, fence], exec i s = .next (takeTrap s s.cur
      { cause := 0x01, code := 0x01, lanes := g.em, fpc := g.pc, rpc := g.pc })) ∧
    ((sys → owner) →
      (act = 0 → Does fence s g h.sw) ∧
      (act ≠ 0 → busy → waits fence) ∧
      (act ≠ 0 → ¬ busy →
        (lost → Completes fence s fun t => Launched s t { g with flows := [] } .wait (some { fault := some {
          cause := 0x0A, code := 0x19, precise := false, lanes := act, fpc := g.pc } }) h.sw) ∧
        (g.flows = [] → Does fence s { g with flows := [], fence := none } h.sw) ∧
        (g.flows ≠ [] → lost = false → Completes fence s fun t =>
          (t.slot s.cur).flows = [] ∧ (t.slot s.cur).pc = nextPc g.pc ∧ (∀ r, getS (t.slot s.cur) r = getS g r) ∧ t.mem = s.mem ∧
          ∃ w, (t.slot s.cur).fence = some w ∧ w.fpc = g.pc ∧ w.lanes = act ∧ w.waits.map (·.1) = g.flows)) ∧
      (okS g qh → (reg → okS g a) → okElem g v esz →
        (act = 0 → Does merge s g h.sw) ∧
        (act ≠ 0 → outstFull g → waits merge) ∧
        (act ≠ 0 → outstFull g = false → (reg → (getS g a).toNat < 256) →
          (if sys then Except.ok handle else translate s g.bind.asid.toNat handle rMerge) = .ok p →
          (busy → waits merge) ∧ (¬ busy → unreachable s die p = false → Completes merge s fun t =>
            t.slot s.cur = groupAfter s g (nextPc g.pc) h.sw ∧ t.mem = s.mem ∧
            ∃ e r, (t.port (portKey die (pqPort p).toNat)).marver = e :: r ∧ e.pqid = p ∧ e.key = k))))) ∧
  (
  ∀ (s : State) (h : Hdr) (tl : W3) (cont : Bool) (d qh a : SReg) (k : BitVec 5),
    let g := s.grp
    let act := activeSet g h
    let die := slotDie s.cur
    let w := tget (s.block s.lead).tl tl.toNat 0
    let busy := scattering s s.cur ∨ g.fence.isSome ∨ g.phase.isSome ∨ anyHeld g ∨ bitsOf w.toNat 46 40 = 127
    let waits := fun (i : Instr) => Completes i s fun t => OnlyGroup s t { g with stall := .resource }
    (okS g d →
      (act = 0 → Does (.qcurrd ⟨h, d, k⟩) s g h.sw) ∧ (act ≠ 0 → outstFull g → waits (.qcurrd ⟨h, d, k⟩)) ∧
      (act ≠ 0 → outstFull g = false → Launches (.qcurrd ⟨h, d, k⟩) s (.qcurrd d k.toNat) none h.sw)) ∧
    (okS g a →
      (act = 0 → Does (.qcurwr ⟨h, a, k⟩) s g h.sw) ∧ (act ≠ 0 → scattering s s.cur → waits (.qcurwr ⟨h, a, k⟩)) ∧
      (act ≠ 0 → scattering s s.cur = false →
        let value := if k = 0 then getS g a &&& 0x000007FFFFFFFFFF else getS g a
        Does (.qcurwr ⟨h, a, k⟩) s { g with cursor := tset g.cursor k.toNat value } h.sw)) ∧
    (okS g d → okS g qh →
      (act ≠ 0xFFFFFFFF → exec (.qscatter ⟨h, tl, d, qh, cont⟩) s = .next (takeTrap s s.cur
        { cause := 0x06, code := 0x01, lanes := act, fpc := g.pc, rpc := g.pc })) ∧
      (act = 0xFFFFFFFF → busy → waits (.qscatter ⟨h, tl, d, qh, cont⟩)) ∧
      (act = 0xFFFFFFFF → ¬ busy → (∀ y ∈ (s.die die).dispatches, y.id < s.ids) → ∀ desc s₁ tab s₂ ts, scatterRead s h (getS g qh) 64 = .ok (desc, s₁) →
        scatterRead s₁ h (BitVec.ofNat 64 (recNat desc 0x20 8)) (4 * (bitsOf (recCtl desc) 44 40 + 1)) = .ok (tab, s₂) →
        translateAll s₂ g.bind.asid.toNat ((List.range (tab.length / 4)).map fun i => BitVec.ofNat 32 (recNat tab (4 * i) 4)) = .ok ts →
        let n := (bitsOf w.toNat 39 0 + bitsOf w.toNat 46 40 + 1) % 2 ^ 40
        Completes (.qscatter ⟨h, tl, d, qh, cont⟩) s fun t =>
          getS (t.slot s.cur) d = BitVec.ofNat 64 n ∧ (t.slot s.cur).pc = nextPc g.pc ∧
          (∀ r, r ≠ d → getS (t.slot s.cur) r = getS g r) ∧ t.mem = s.mem ∧
          bitsOf (tget (t.block s.lead).tl tl.toNat 0).toNat 46 40 = bitsOf w.toNat 46 40 + 1 ∧
          ∃ x ∈ (t.die die).dispatches, x.slot = s.cur ∧ x.lead = s.lead ∧ x.tl = tl ∧ x.num = BitVec.ofNat 40 n ∧
            x.targets = ts ∧ (descMalformed desc → x.finished = some true))))

/-! ### Reset, power and heat -/

/-- Reset and the lehr (R20 to R22, R24, R88, R102, R108): a reset starts stage A with the module's memories, groups and keys
gone and its lasting stores kept, and the flash image runs if it passes its checks; each stage of the lehr hands over once it
has lasted its time, sockets in ascending order of those present; a wake serves four cores, and the last of a die sets its
ONLINE bit.
Where the spec leaves a point open the statement follows the model's choices of its own: the fitted module after reset (log 3); time passes by turns of its own (log 43). -/
def Obligations.ResetAndLehr : Prop :=
  ∀ (s : State),
    let first := fun (k : Nat) (l : Lehr) =>
      (∀ j, k ≤ j → j < 34 → socketPresent s j → (∀ i, k ≤ i → i < j → socketPresent s i = false) → l = .stageB j) ∧
      ((∀ j, k ≤ j → j < 34 → socketPresent s j = false) → l = .stageC)
    let stages := fun (i : Instr) (ns k : Nat) => Completes i s fun t =>
      first k t.lehr ∧ t.lehrAt = s.lehrAt + ns ∧ { t with lehr := s.lehr, lehrAt := s.lehrAt } = s
    let waked := fun (t : State) (d k : Nat) =>
      (∀ i, i < 4 → (t.core (coreKey d (4 * k + i))).awake = true) ∧
      ∀ c, (c < coreKey d (4 * k) ∨ coreKey d (4 * k + 4) ≤ c) → t.core c = s.core c
    let empties := fun (t : State) => t.lehr = .stageA ∧ t.lehrAt = s.time ∧ t.slots = [] ∧ t.cores = [] ∧ t.dies = [] ∧
      t.queues = [] ∧ t.objs = [] ∧ t.mem = [] ∧ t.scr = [] ∧ t.mgmt.keys = [] ∧ t.mgmt.online = 0 ∧
      t.mgmt.lc = s.mgmt.lc ∧ t.mgmt.identity = s.mgmt.identity ∧ t.mgmt.owner = s.mgmt.owner ∧ t.mgmt.flash = s.mgmt.flash ∧
      (imageGood s.mgmt → t.mgmt.running = s.mgmt.flash ∧ t.mgmt.svn = s.mgmt.flash.version ∧ t.mgmt.romhold = false) ∧
      (imageGood s.mgmt = false → t.mgmt.romhold = true ∧ t.mgmt.svn = s.mgmt.svn)
    (Completes .reset s fun t => empties t ∧ t.mgmt.thermrec = s.mgmt.thermrec) ∧
    (s.arg.idx < 34 → Completes .thermalTrip s fun t => empties t ∧
      t.mgmt.thermrec = BitVec.ofNat 8 s.arg.idx ++ (s.die 0).clock.setWidth 56) ∧
    exec .thermrecWrite s = .next { s with mgmt := { s.mgmt with thermrec := 0 } } ∧
    (s.lehr = .stageA → s.lehrAt + 300000 ≤ s.time → stages .lehrStageAEnd 300000 0) ∧
    (∀ k, s.lehr = .stageB k →
      (k < 8 → s.lehrAt + 120000 ≤ s.time → stages .socketBringUp 120000 (k + 1)) ∧
      (8 ≤ k → k < 16 → s.lehrAt + 80000 ≤ s.time → stages .socketBringUp 80000 (k + 1)) ∧
      (16 ≤ k → k < 32 → s.lehrAt + 150000 ≤ s.time → stages .socketBringUp 150000 (k + 1)) ∧
      (32 ≤ k → s.lehrAt + 120000 ≤ s.time → stages .socketBringUp 120000 (k + 1))) ∧
    (s.lehr = .stageC → s.lehrAt + 21475000 ≤ s.time → Completes .stageCWipeEnd s fun t =>
      t.lehr = .stageD 0 ∧ t.lehrAt = s.lehrAt + 21475000 ∧ SameMemory { s with mem := [], scr := [] } t ∧ t.poison = [] ∧
      s.ids ≤ tget t.mgmt.keys 64 0 ∧ tget t.mgmt.keys 64 0 < t.ids ∧ t.mgmt.thermrec = s.mgmt.thermrec) ∧
    (∀ w, w < 320 → s.lehr = .stageD w → s.lehrAt + 2000 * w ≤ s.time → Completes .clusterWake s fun t =>
      t.lehr = (if w = 319 then Lehr.done else .stageD (w + 1)) ∧
      (s.mgmt.present.getLsbD (w % 8) → homeSound s (w % 8) →
        waked t (w % 8) (w / 8) ∧ t.mgmt.online = (if 312 ≤ w then s.mgmt.online ||| (1#8 <<< (w % 8)) else s.mgmt.online)) ∧
      (s.mgmt.present.getLsbD (w % 8) = false ∨ homeSound s (w % 8) = false → t.cores = s.cores ∧ t.mgmt = s.mgmt)) ∧
    (∀ at_ n r, s.lehr = .done → s.wakeQ = (at_, n) :: r → s.wakeAt + 2000 ≤ s.time → Completes .clusterWake s fun t =>
      waked t (n % 8) (n / 8) ∧ t.wakeQ = r ∧ t.wakeAt = s.time)

/-- Wake requests and gates (R22), and the host's configuration requests (R21, R130). A request joins the queue behind those
made before it, and by ascending cluster, then die, among those of its cycle; an idle cluster is gated with no core of
another cluster changed; until stage D completes a configuration request meets retry status.
Operating points (R18, R19, R23, R24): a die runs at the slowest of its three points, and a change of CUR counts in STEPS
with its cause. REQ, the thermal limit at 95 °C and 90 °C, and the power controller each move one of the three; the
controller steps down the present die with the most core power, the lowest socket of equals, and up in the reverse order.
Where the spec leaves a point open the statement follows the model's choices of its own: which die steps up (log 46); bytes of killed groups at a gate are free (log 48). -/
def Obligations.ClustersAndOperatingPoints : Prop :=
  (
  ∀ (s : State),
    let d := s.arg.die.toNat
    let k := s.arg.idx
    let n := 8 * k + d
    let cycle := fun (t : Nat) => t * Config.pointMHz (s.die d).cur.toNat / 1000
    (s.lehr = .done → k < 40 → s.mgmt.online.getLsbD d → (s.core (coreKey d (4 * k))).awake = false →
      (∀ e ∈ s.wakeQ, e.2 ≠ n) → ∀ a b, s.wakeQ = a ++ b → (∀ e ∈ a, cycle e.1 = cycle s.time → e.2 < n) →
      (∀ e, b.head? = some e → cycle e.1 = cycle s.time ∧ n < e.2) →
      exec .clusterWakeRequest s = .next { s with wakeQ := a ++ (s.time, n) :: b }) ∧
    (s.lehr = .done → k < 40 → (∀ i, i < 4 → coreIdle s (coreKey d (4 * k + i))) → Completes .clusterGate s fun t =>
      (∀ i, i < 4 → (t.core (coreKey d (4 * k + i))).awake = false ∧ (t.core (coreKey d (4 * k + i))).dirty = []) ∧
      (∀ c, (c < coreKey d (4 * k) ∨ coreKey d (4 * k + 4) ≤ c) → t.core c = s.core c) ∧ t.slots = s.slots ∧
      ((∀ i, i < 4 → (s.core (coreKey d (4 * k + i))).dirty = []) → t.mem = s.mem)) ∧
    (s.lehr ≠ .done → exec .hostConfigRequest s = .next { s with out := { s.out with host := s.out.host ++ [none] } }) ∧
    (s.lehr = .done → Completes .hostConfigRequest s fun t => ∃ v, t.out.host = s.out.host ++ [some v] ∧
      { t with out := { t.out with host := s.out.host }, free := s.free } = s ∧
      (s.arg.off = 0 → v = Config.pf0Id.setWidth 64) ∧
      (s.arg.off = Config.dvsecBase + 0x04 → v.setWidth 16 = Config.pf0Id.setWidth 16) ∧
      (s.arg.off = Config.dvsecBase + 0x08 → v = 1) ∧
      (s.arg.off = Config.dvsecBase + 0x10 → v = s.dvsec.capc.setWidth 64) ∧
      (s.arg.off = Config.dvsecBase + 0x14 → v = s.dvsec.capn.setWidth 64) ∧
      (s.arg.off = Config.dvsecBase + 0x18 → v = s.dvsec.tsel.setWidth 64) ∧
      (s.arg.off = Config.dvsecBase + 0x28 → v = if s.dvsec.refused then 1 else 0))) ∧
  (
  ∀ (s : State),
    let d := s.arg.die.toNat
    let x := s.die d
    let slowest := fun (y : Die) => max (max y.req.toNat y.powerPt.toNat) y.thermPt.toNat
    -- die `e` moves from `x` to `y` and runs at its slowest point; `c` is the cause of a change
    let moved := fun (x y : Die) (c : BitVec 2) =>
      y.cur.toNat = slowest y ∧ (y.cur = x.cur → y.steps = x.steps ∧ y.cause = x.cause) ∧
      (y.cur ≠ x.cur → y.steps = x.steps + 1 ∧ y.cause = c)
    let only := fun (t : State) => ∀ e, e ≠ d → t.die e = s.die e
    let power := fun (e : Nat) => ((s.arg.words.getD e 0).setWidth 16 : W16).toNat
    let mean := min s.arg.v.toNat 65535
    let may := fun (e : Nat) (ok : Prop) => e < 8 ∧ s.mgmt.present.getLsbD e = true ∧ ok
    let reads := fun (t : State) => only t ∧ (t.die d).temp = BitVec.ofNat 8 (min s.arg.v.toNat 255) ∧ (t.die d).req = x.req ∧
      (t.die d).powerPt = x.powerPt
    (Completes .dievfReqWrite s fun t => only t ∧ (t.die d).req = s.arg.v.setWidth 2 ∧ moved x (t.die d) 0 ∧
      (t.die d).powerPt = x.powerPt ∧ (t.die d).thermPt = x.thermPt) ∧
    (∀ i ∈ [Instr.thermalThrottle, .thermalRecover],
      (95 ≤ s.arg.v.toNat → Completes i s fun t => reads t ∧ (t.die d).thermPt = 3 ∧ (t.die d).cur = 3 ∧ moved x (t.die d) 2) ∧
      (s.arg.v.toNat < 90 → Completes i s fun t => reads t ∧ (t.die d).thermPt = 0 ∧ moved x (t.die d) 2) ∧
      (90 ≤ s.arg.v.toNat → s.arg.v.toNat < 95 → Completes i s fun t => reads t ∧ (t.die d).thermPt = x.thermPt ∧
        (t.die d).cur = x.cur ∧ (t.die d).steps = x.steps)) ∧
    (2600 < mean ∨ (s.powerOver ∧ mean = 2600) → s.powerAt + 100000 ≤ s.time → s.arg.words.length = 8 →
      ∀ b, may b ((s.die b).cur ≠ 3) →
      (∀ e, may e ((s.die e).cur ≠ 3) → power e < power b ∨ (power e = power b ∧ b ≤ e)) →
      Completes .powerStepDown s fun t => (t.die b).powerPt = (s.die b).cur + 1 ∧ moved (s.die b) (t.die b) 1 ∧
        t.powerAt = s.time ∧ ∀ e, e ≠ b → (t.die e).cur = (s.die e).cur ∧ (t.die e).powerPt = (s.die e).powerPt) ∧
    (mean < 2470 → s.powerAt + 1000000 ≤ s.time → s.arg.words.length = 8 →
      ∀ b, may b ((s.die b).powerPt ≠ 0) →
      (∀ e, may e ((s.die e).powerPt ≠ 0) → power b < power e ∨ (power b = power e ∧ e ≤ b)) →
      Completes .powerStepUp s fun t => (t.die b).powerPt = (s.die b).powerPt - 1 ∧ moved (s.die b) (t.die b) 1 ∧
        t.powerAt = s.time ∧ ∀ e, e ≠ b → (t.die e).cur = (s.die e).cur ∧ (t.die e).powerPt = (s.die e).powerPt))

/-! ### Results, memory and tiles -/

/-- A result returns (R185, R186, R280): the lanes named are written and the others wait; with the last of them the scalar
writes and the flags reach the group and the operation is outstanding no more; a fault waits until every result has returned
and is then taken with RPC at the instruction that would come next. -/
def Obligations.ResultsReturn : Prop :=
  ∀ (s : State) (o : Outst) (r : Result),
    let k := slotKey s.arg.die.toNat s.arg.core.toNat s.arg.slot.toNat
    let g := s.slot k
    let l := s.arg.lanes
    let ends := fun (t : State) => (t.slot k).outst = g.outst.filter (fun x => x.id != o.id) ∧
      (∀ i, i < 32 → lane (t.slot k).fflags i = lane g.fflags i ||| lane r.ff i ∧
        lane (t.slot k).iflags i = lane g.iflags i ||| lane r.iff i)
    let rest := fun (t : State) => (∀ j, j ≠ k → t.slot j = s.slot j) ∧ SameMemory s t
    Names s g o → o.res = some r → Quiet g →
    (l = 0 → Completes .resultReturn s fun t => t.slot k = g ∧ rest t) ∧
    (∀ w, r.vw = [w] → l ≠ 0 → (w.mask &&& ~~~l ≠ 0 ∨ (r.fault = none ∧ r.sw = [])) → Completes .resultReturn s fun t =>
      (∀ i, i < 32 → lane (getV (t.slot k) w.reg) i = if laneOn w.mask i && laneOn l i then lane w.val i else lane (getV g w.reg) i) ∧
      (∀ q, q ≠ w.reg.toNat → getVn (t.slot k) q = getVn g q) ∧ (t.slot k).s = g.s ∧ (t.slot k).pc = g.pc ∧ rest t ∧
      (w.mask &&& ~~~l = 0 → ends t) ∧
      (w.mask &&& ~~~l ≠ 0 → (t.slot k).fflags = g.fflags ∧ (t.slot k).iflags = g.iflags ∧
        (t.slot k).outst = g.outst.map fun x =>
          if x.id = o.id then { o with res := some { r with vw := [{ w with mask := w.mask &&& ~~~l }] } } else x)) ∧
    (r.vw = [] → l ≠ 0 →
      (∀ d x, r.sw = [(d, x)] → r.fault = none → Completes .resultReturn s fun t =>
        getS (t.slot k) d = x ∧ (∀ e, e ≠ d → getS (t.slot k) e = getS g e) ∧ (t.slot k).v = g.v ∧ (t.slot k).pc = g.pc ∧
        ends t ∧ rest t) ∧
      (∀ f, r.fault = some f → r.sw = [] → f.cause ≠ 0x0C →
        (g.outst.filter (fun x => x.id != o.id) ≠ [] → Completes .resultReturn s fun t =>
          (t.slot k).dfault = some (o.id, f) ∧ (t.slot k).pc = g.pc ∧ (t.slot k).v = g.v ∧ (t.slot k).s = g.s ∧ ends t ∧ rest t) ∧
        (g.outst.filter (fun x => x.id != o.id) = [] → g.stopped = false → g.inHandler = false → s.trapv g.bind ≠ 0 →
          g.barrier = none → g.fpark = none → (s.die (slotDie k)).halted = none →
          entryBad s (slotDie k) g.bind.asid.toNat (s.trapv g.bind) = false → Completes .resultReturn s fun t =>
            (t.slot k).inHandler = true ∧ (t.slot k).pc = lineOf (s.trapv g.bind) ∧ (t.slot k).em = 0xFFFFFFFF ∧
            (t.slot k).frame.trapw = trapWord f ∧ (t.slot k).frame.fpc = f.fpc ∧ (t.slot k).frame.rpc = g.pc ∧
            (t.slot k).frame.em = g.em ∧ (t.slot k).frame.arg0 = f.arg0 ∧ (t.slot k).frame.more = f.more ∧
            (t.slot k).v = g.v ∧ (t.slot k).s = g.s ∧ ends t ∧ rest t)))

/-- Accesses perform (R202, R232, R234, R236, R397, R398): a load brings each lane its bytes, extended by its type, from the
scratchpad, or from the group's own unpublished stores, those of its core, a snapshot, or the memory point; a store writes
its lanes so that the highest of those that meet a byte is the one that stays, in the scratchpad or in the L1, and reaches no
memory point by itself. A load that reads poison in a lane brings no lane its bytes and raises MEMUE in the poisoned lanes (R225); a
load from the scratchpad reads a byte that an outstanding copy has written as it is or as it was (R245).
Where the spec leaves a point open the statement follows the model's choices of its own: the lanes of one access perform in one step (log 9); a load reads its group's own stores first (log 25). -/
def Obligations.LoadsAndStores : Prop :=
  ∀ (s : State) (o : Outst) (m : MemOp),
    let k := slotKey s.arg.die.toNat s.arg.core.toNat s.arg.slot.toNat
    let g := s.slot k
    let c := s.core (k / 16)
    let ends := fun (t : State) => (t.slot k).outst = g.outst.filter (fun x => x.id != o.id) ∧ (∀ j, j ≠ k → t.slot j = s.slot j) ∧
      (t.slot k).s = g.s ∧ (t.slot k).pc = g.pc
    let poison := fun (a : Nat) => s.poison.contains (a / 64) && (dirtyByte c (k % 16) a).isNone
    Names s g o → o.res = none → o.op = .mem m → Quiet g → readsFirst g o.id m → s.arg.lanes = 0xFFFFFFFF →
    (∀ ty d x, m.kind = .load ty d → m.scr = false → g.outst.filter (fun y => y.id != o.id) ≠ [] →
      let bad := m.lanes.filter fun x => (List.range (tyWidth ty / 8)).any fun i => poison (x.addr + i)
      bad.head? = some x → Completes .resultReturn s fun t => ends t ∧ SameMemory s t ∧ (t.slot k).v = g.v ∧
        (t.slot k).dfault = some (o.id, { cause := 0x09, code := 0x38, precise := false, lanes := maskOf fun l => bad.any fun y => y.lane == l,
                                          fpc := o.fpc, arg0 := objAddr m.obj x.off })) ∧
    (∀ ty d, m.kind = .load ty d → (∀ x ∈ m.lanes, x.lane < 32) → m.lanes.Pairwise (fun x y => x.lane ≠ y.lane) →
      (m.scr = false → ∀ x ∈ m.lanes, ∀ i, i < tyWidth ty / 8 → poison (x.addr + i) = false) →
      Completes .resultReturn s fun t => ends t ∧ SameMemory s t ∧ ∃ f : Nat → W8,
        (m.scr = true → ∀ a, f a = memRead s.scr a ∨ scrBefore s (leadOf k g) a = some (f a)) ∧
        (m.scr = false → ∀ a, f a = viewByte c (k % 16) a ∨ (dirtyByte c (k % 16) a = none ∧ f a = memRead s.mem a)) ∧
        (∀ x ∈ m.lanes, lane (getV (t.slot k) d) x.lane =
          extended 32 ty (leNat ((List.range (tyWidth ty / 8)).map fun i => f (x.addr + i)) : Int)) ∧
        (∀ l, l < 32 → (∀ x ∈ m.lanes, x.lane ≠ l) → lane (getV (t.slot k) d) l = lane (getV g d) l) ∧
        ∀ q, q ≠ d.toNat → getVn (t.slot k) q = getVn g q) ∧
    (∀ w, m.kind = .store w → Completes .resultReturn s fun t => ends t ∧ (t.slot k).v = g.v ∧ t.mem = s.mem ∧
      t.far = s.far ∧ t.hostMem = s.hostMem ∧ (∀ j, j ≠ k / 16 → t.core j = s.core j) ∧
      (m.scr = true → t.core (k / 16) = c ∧
        (∀ a, (∀ x ∈ m.lanes, a < x.addr ∨ x.addr + x.data.length ≤ a) → memRead t.scr a = memRead s.scr a) ∧
        ∀ xs x ys i, m.lanes = xs ++ x :: ys → i < x.data.length →
          (∀ y ∈ ys, x.addr + i < y.addr ∨ y.addr + y.data.length ≤ x.addr + i) → memRead t.scr (x.addr + i) = x.data.getD i 0) ∧
      (m.scr = false → t.scr = s.scr ∧ (t.core (k / 16)).snap = c.snap ∧
        (∀ j a, (∀ x ∈ m.lanes, a < x.addr ∨ x.addr + x.data.length ≤ a) → viewByte (t.core (k / 16)) j a = viewByte c j a) ∧
        ∀ xs x ys i, m.lanes = xs ++ x :: ys → i < x.data.length →
          (∀ y ∈ ys, x.addr + i < y.addr ∨ y.addr + y.data.length ≤ x.addr + i) →
          viewByte (t.core (k / 16)) (k % 16) (x.addr + i) = x.data.getD i 0))

/-- Memory points (R225, R232, R235, R240, R241, R400): a slice accepts a line in one step, with every byte that the publishing groups
have stored in it and no byte outside it; a lane of an atomic performs once the lower lanes on its location have: the group's stores to
the line are published, and it reads its location and writes the new value there; the last lane makes the result ready; where lanes
that have not performed are poisoned, they fault with MEMUE, and no further lane performs.
Where the spec leaves a point open the statement follows the model's choices of its own: poison is looked for in all unperformed lanes (log 26); no lane performs after poison is met (log 96). -/
def Obligations.MemoryPoints : Prop :=
  ∀ (s : State),
    let ck := coreKey s.arg.die.toNat s.arg.core.toNat
    let line := s.arg.addr
    let publishes := fun (i : Nat) => i < 16 ∧ ∃ p ∈ (s.slot (ck * 16 + i)).pubs, p.1 = line
    ((∃ i, publishes i) → (∀ i, publishes i → Quiet (s.slot (ck * 16 + i))) → (s.die (slotDie (ck * 16))).dispatches = [] →
      Completes .publishLineAccept s fun t =>
        (∀ a xs x ys, a / 128 = line → (s.core ck).dirty = xs ++ x :: ys → x.1 = a → (∀ y ∈ ys, y.1 ≠ a) →
          (∃ y ∈ (s.core ck).dirty, y.1 = a ∧ publishes y.2.2) → memRead t.mem a = x.2.1) ∧
        (∀ a, (a / 128 ≠ line ∨ ∀ y ∈ (s.core ck).dirty, y.1 ≠ a) → memRead t.mem a = memRead s.mem a) ∧
        (∀ i, i < 16 → (t.slot (ck * 16 + i)).pubs = (s.slot (ck * 16 + i)).pubs.filter fun p => p.1 != line) ∧
        ∀ i, i < 16 → (t.slot (ck * 16 + i)).v = (s.slot (ck * 16 + i)).v ∧ (t.slot (ck * 16 + i)).pc = (s.slot (ck * 16 + i)).pc) ∧
    (let k := slotKey s.arg.die.toNat s.arg.core.toNat s.arg.slot.toNat
      let g := s.slot k
      ∀ (o : Outst) (m : MemOp) (op : AtomOp) (ty : Ty) (ret : Option VReg) (x : LaneOp),
        Names s g o → o.res = none → o.op = .mem m → m.kind = .atom op ty ret → m.scr = false → x ∈ m.lanes →
        m.lanes.Pairwise (fun y z => y.lane ≠ z.lane) → (∀ p ∈ m.got, p.1 ≠ x.lane) →
        x.lane = s.arg.lanes.toNat → x.addr % 4 = 0 → Quiet g → readsFirst g o.id { m with lanes := [x] } →
        (∀ y ∈ m.lanes, y.addr = x.addr → y.lane < x.lane → ∃ p ∈ m.got, p.1 = y.lane) →
        let left := m.lanes.filter fun y => !(m.got.any fun p => p.1 == y.lane)
        let bad := left.filter fun y => s.poison.contains (y.addr / 64)
        let poisonTrap := fun (z : LaneOp) => ({ cause := 0x09, code := 0x38, precise := false, fpc := o.fpc, arg0 := objAddr m.obj z.off,
                                                 lanes := maskOf fun l => bad.any fun y => y.lane == l } : Trap)
        let stored := fun (a : Nat) => (s.core (k / 16)).dirty.filter fun d => d.1 == a && d.2.2 == k % 16
        let here := fun (a : Nat) => ((stored a).getLast?.map (·.2.1)).getD (memRead s.mem a)
        (∀ z, bad.head? = some z → (∀ d ∈ (s.core (k / 16)).dirty, d.2.2 ≠ k % 16) → Completes .atomicPerform s fun t =>
          SameMemory s t ∧ (t.slot k).v = g.v ∧ { o with res := some { fault := some (poisonTrap z) } } ∈ (t.slot k).outst) ∧
        let old : W32 := BitVec.ofNat 32 (leNat ((List.range 4).map fun i => here (x.addr + i)))
        let y : W32 := BitVec.ofNat 32 (leNat x.data)
        let new : W32 := match op with
          | .add => old + y
          | .and => old &&& y
          | .or => old ||| y
          | .xor => old ^^^ y
          | .min => extended 32 ty (min (typed ty old) (typed ty y))
          | .max => extended 32 ty (max (typed ty old) (typed ty y))
          | .exch => y
          | .cas => if old = x.cmp then y else old
          | .fadd => BitVec.ofNat 32 (addF .rn false old.toNat y.toNat).bits
        let got := m.got ++ [(x.lane, old)]
        (tyWidth ty = 32 → bad = [] → Completes .atomicPerform s fun t =>
          memNat t.mem x.addr 4 = new.toNat ∧
          (∀ a, (a < x.addr ∨ x.addr + 4 ≤ a) → memRead t.mem a = if a / 128 = x.addr / 128 then here a else memRead s.mem a) ∧
          (∀ d ∈ (t.core (k / 16)).dirty, d.1 / 128 = x.addr / 128 → d.2.2 ≠ k % 16) ∧ (t.slot k).v = g.v ∧ t.scr = s.scr ∧
          { o with op := .mem { m with got := got }, res := if m.lanes.length ≤ got.length then some (atomResult ret got) else none } ∈
            (t.slot k).outst))

/-- Tile instructions (R174, R187, R188, R260 to R263, R402, R417, R421, R422, R425, R429, R430, R432): a tile load brings each lane's row;
the first instruction of the matrix engine's order retires, leaves the scoreboard and the order, and writes its rows. `tzero` zeroes
the rows of its lanes; an i8 `tmma` adds the exact products to each word modulo 2^32 and raises OV where the exact sum does not fit;
a floating `tmma` adds the scaled exact sum with one rounding, and `tmma.sparse` those of its two k-blocks in order; `tconv`
converts elements, and `tdraw` writes the root record of each row; `tmov.vt` writes one word of each row, and `tmov.tv` brings one.
Where the spec leaves a point open the statement follows the model's choices of its own: the lanes of one access perform in one step (log 9); the root record is canonical (log 12); a load reads its group's own stores first (log 25). -/
def Obligations.TileRetirement : Prop :=
  ∀ (s : State) (b : TileOp) (order : List (Nat × Nat)),
    let k := slotKey s.arg.die.toNat s.arg.core.toNat s.arg.slot.toNat
    let g := s.slot k
    let word := fun (g : Slot) (t i c : Nat) => memNat g.t (4096 * t + 128 * i + 4 * c) 4
    let same := fun (t : State) (own : Nat → Prop) => ∀ a, ¬ own a → memRead (t.slot k).t a = memRead g.t a
    let row := fun (t i a : Nat) => 4096 * t + 128 * i ≤ a ∧ a < 4096 * t + 128 * i + 128
    let retires := fun (P : State → Prop) => Completes .tileInstructionRetire s fun t =>
      (t.slot k).board = g.board.filter (fun x => x.id != b.id) ∧ (t.core (k / 16)).engine = order ∧
      (∀ j, j ≠ k → t.slot j = s.slot j) ∧ (t.slot k).s = g.s ∧ (t.slot k).v = g.v ∧ (t.slot k).pc = g.pc ∧ SameMemory s t ∧ P t
    let rows := fun (td : Nat) (m : W32) (a : Nat) => ∃ q j, q ∈ quartersOf m ∧ j < 8 ∧ row td (8 * q + j) a
    let flags := fun (t : State) (m : W32) (f : Nat → W8) =>
      (∀ q j, q ∈ quartersOf m → j < 8 → lane (t.slot k).fflags (8 * q + j) = lane g.fflags (8 * q + j) ||| f (8 * q + j)) ∧
      ∀ i, i < 32 → i / 8 ∉ quartersOf m → lane (t.slot k).fflags i = lane g.fflags i
    b ∈ g.board → b.id = s.arg.idx → (∀ x ∈ g.board, x.id = b.id → x = b) → Quiet g →
    (∀ m td w, b.kind = .load m → m.kind = .tload td w → readsFirst g b.id m → s.poison = [] → w ≤ 128 →
      (∀ x ∈ m.lanes, x.lane < 32) → m.lanes.Pairwise (fun x y => x.lane ≠ y.lane) →
      Completes .tileInstructionRetire s fun t => (t.slot k).board = g.board.filter (fun x => x.id != b.id) ∧
        (t.core (k / 16)).engine = (s.core (k / 16)).engine ∧ (∀ j, j ≠ k → t.slot j = s.slot j) ∧ (t.slot k).s = g.s ∧
        (t.slot k).v = g.v ∧ (t.slot k).pc = g.pc ∧ SameMemory s t ∧ ∃ f : Nat → W8,
        (∀ a, f a = viewByte (s.core (k / 16)) (k % 16) a ∨
          (dirtyByte (s.core (k / 16)) (k % 16) a = none ∧ f a = memRead s.mem a)) ∧
        (∀ x ∈ m.lanes, ∀ i, i < w → memRead (t.slot k).t (4096 * td.toNat + 128 * x.lane + i) = f (x.addr + i)) ∧
        same t fun a => ∃ x ∈ m.lanes, 4096 * td.toNat + 128 * x.lane ≤ a ∧ a < 4096 * td.toNat + 128 * x.lane + w) ∧
    ((s.core (k / 16)).engine = (k, b.id) :: order →
    (∀ td m, b.kind = .zero td m → retires fun t =>
      (∀ i a, i < 32 → laneOn m i → row td.toNat i a → memRead (t.slot k).t a = 0) ∧
      same t fun a => ∃ i, i < 32 ∧ laneOn m i ∧ row td.toNat i a) ∧
    (∀ o m v, b.kind = .movVt o m v → o.w.toNat < 32 → retires fun t =>
      (∀ i, i < 32 → laneOn m i → word (t.slot k) o.t.toNat i o.w.toNat = (lane v i).toNat) ∧
      same t fun a => ∃ i, i < 32 ∧ laneOn m i ∧ 4096 * o.t.toNat + 128 * i + 4 * o.w.toNat ≤ a ∧
        a < 4096 * o.t.toNat + 128 * i + 4 * o.w.toNat + 4) ∧
    (∀ o m, b.kind = .movTv o m → (∀ x ∈ g.outst, x.id = b.id → x.res = none) → retires fun t =>
      (∀ a, memRead (t.slot k).t a = memRead g.t a) ∧
      ∀ x ∈ (t.slot k).outst, x.id = b.id → ∃ v : Vec, x.res = some { vw := [⟨o.v, m, v⟩] } ∧
        ∀ i, i < 32 → (lane v i).toNat = word g o.t.toNat i o.w.toNat) ∧
    (∀ o m sc desc sb, b.kind = .mma o m sc desc sb → o.tya = .i8 →
      let exact := fun (q i c : Nat) => (if o.z then 0 else (BitVec.ofNat 32 (word g o.td.toNat i c)).toInt) +
        ((List.range 128).map fun x => (memRead g.t (4096 * o.ta.toNat + 128 * i + x)).toInt *
          (memRead g.t (4096 * tmmaB o desc q + 128 * c + x)).toInt).sum
      retires fun t =>
        (∀ q j c, q ∈ quartersOf m → j < 8 → c < 32 →
          word (t.slot k) o.td.toNat (8 * q + j) c = (BitVec.ofInt 32 (exact q (8 * q + j) c)).toNat) ∧
        (∀ q j, q ∈ quartersOf m → j < 8 →
          ((∃ c, c < 32 ∧ (exact q (8 * q + j) c < -2 ^ 31 ∨ 2 ^ 31 ≤ exact q (8 * q + j) c)) →
            lane (t.slot k).iflags (8 * q + j) = lane g.iflags (8 * q + j) ||| iOV) ∧
          ((∀ c, c < 32 → -2 ^ 31 ≤ exact q (8 * q + j) c ∧ exact q (8 * q + j) c < 2 ^ 31) →
            lane (t.slot k).iflags (8 * q + j) = lane g.iflags (8 * q + j))) ∧
        (t.slot k).fflags = g.fflags ∧ same t (rows o.td.toNat m)) ∧
    (∀ o m sc desc sb, b.kind = .mma o m sc desc sb → o.tya ≠ .i8 →
      let fp8 := o.tya = .e4m3 ∨ o.tya = .e5m2
      let vals := fun (f : Ty) (t i : Nat) => if fp8
        then (List.range 128).map fun x => fval ((tyFmt f).getD fp32) (memNat g.t (4096 * t + 128 * i + x) 1)
        else (List.range 64).map fun x => fval ((tyFmt f).getD fp32) (memNat g.t (4096 * t + 128 * i + 2 * x) 2)
      let u : Nat → FRes := fun i => if fp8
        then mulF .rn false (lane sc i).toNat (if o.qd then lane desc (8 * (i / 8) + 1) else sb).toNat else ⟨0x3F800000, 0⟩
      let sum := fun (i c : Nat) => accStep (if o.z then 0 else word g o.td.toNat i c) (fval fp32 (u i).bits)
        (dotV ((vals o.tya o.ta.toNat i).zip (vals o.tyb (tmmaB o desc (i / 8)) c)))
      retires fun t =>
        (∀ q j c, q ∈ quartersOf m → j < 8 → c < 32 →
          word (t.slot k) o.td.toNat (8 * q + j) c = (sum (8 * q + j) c).bits % 2 ^ 32) ∧
        flags t m (fun i => (List.range 32).foldl (fun f c => f ||| (sum i c).fl) (u i).fl) ∧ (t.slot k).iflags = g.iflags ∧
        same t (rows o.td.toNat m)) ∧
    (∀ o m s0 s1 seed sb base, b.kind = .sparse o m s0 s1 seed sb base →
      let u := fun (kb i : Nat) => mulF .rn false (lane (if kb = 0 then s0 else s1) i).toNat sb.toNat
      let step := fun (kb i c acc : Nat) => accStep acc (fval fp32 (u kb i).bits)
        (dotV ((keptVals g o.tb.toNat c ((tyFmt o.tyb).getD fp32) seed base kb).map fun p =>
          (fval ((tyFmt o.tya).getD fp32) (memNat g.t (4096 * (o.ta.toNat + kb) + 128 * i + p.1) 1), p.2)))
      let first := fun (i c : Nat) => step 0 i c (if o.z then 0 else word g o.td.toNat i c)
      let last := fun (i c : Nat) => step 1 i c (first i c).bits
      retires fun t =>
        (∀ q j c, q ∈ quartersOf m → j < 8 → c < 32 →
          word (t.slot k) o.td.toNat (8 * q + j) c = (last (8 * q + j) c).bits % 2 ^ 32) ∧
        flags t m (fun i => (List.range 32).foldl (fun f c => f ||| (first i c).fl ||| (last i c).fl) ((u 0 i).fl ||| (u 1 i).fl)) ∧
        (t.slot k).iflags = g.iflags ∧ same t (rows o.td.toNat m)) ∧
    (∀ o m, b.kind = .conv o m →
      let ca := tcWord g o.ta
      let cd := tcWord g o.td
      let za := tyWidth (fmtTy (tcFmt ca)) / 8
      let zd := tyWidth (fmtTy (tcFmt cd)) / 8
      let n := min (tcWidth ca / za) (tcWidth cd / zd)
      let elem := fun (i j : Nat) => convert (fmtTy (tcFmt cd)) (fmtTy (tcFmt ca)) o.rm o.sat (memNat g.t (4096 * o.ta.toNat + 128 * i + j * za) za)
      let inside := fun (i : Nat) => i < tcRows ca ∧ i < tcRows cd
      retires fun t =>
        (∀ q j, q ∈ quartersOf m → j < 8 → inside (8 * q + j) →
          (tcFmt ca = tcFmt cd → ∀ x, x < n * za →
            memRead (t.slot k).t (4096 * o.td.toNat + 128 * (8 * q + j) + x) = memRead g.t (4096 * o.ta.toNat + 128 * (8 * q + j) + x)) ∧
          (tcFmt ca ≠ tcFmt cd → (∀ x, x < n →
              memNat (t.slot k).t (4096 * o.td.toNat + 128 * (8 * q + j) + x * zd) zd = (elem (8 * q + j) x).bits.toNat % 2 ^ (8 * zd)) ∧
            lane (t.slot k).fflags (8 * q + j) = (List.range n).foldl (fun f x => f ||| (elem (8 * q + j) x).ff) (lane g.fflags (8 * q + j)) ∧
            lane (t.slot k).iflags (8 * q + j) = (List.range n).foldl (fun f x => f ||| (elem (8 * q + j) x).iff) (lane g.iflags (8 * q + j)))) ∧
        (∀ i, i < 32 → (tcFmt ca = tcFmt cd ∨ i / 8 ∉ quartersOf m ∨ ¬ inside i) →
          lane (t.slot k).fflags i = lane g.fflags i ∧ lane (t.slot k).iflags i = lane g.iflags i) ∧
        same t fun a => ∃ q j, q ∈ quartersOf m ∧ j < 8 ∧ inside (8 * q + j) ∧ 4096 * o.td.toNat + 128 * (8 * q + j) ≤ a ∧
          a < 4096 * o.td.toNat + 128 * (8 * q + j) + n * zd) ∧
    (∀ o m temps key ofs base, b.kind = .draw o m temps key ofs base →
      let leaf := fun (i c : Nat) => if i < tcRows (tcWord g o.ta) ∧ c < tcWidth (tcWord g o.ta) / 4
        then some (BitVec.ofNat 32 c + ofs, word g o.ta.toNat i c) else none
      let root := fun (i : Nat) => canonRec (drawTree key (base + BitVec.ofNat 64 (64 * i)) 5 0
        (leaves (lane temps i).toNat ((List.range 32).map (leaf i))))
      retires fun t =>
        (∀ q j c, q ∈ quartersOf m → j < 8 → c < 32 →
          word (t.slot k) o.td.toNat (8 * q + j) c = ((root (8 * q + j)).words.getD c 0).toNat) ∧
        (t.slot k).fflags = g.fflags ∧ (t.slot k).iflags = g.iflags ∧ same t (rows o.td.toNat m)))

/-! ### The engines of a die and the pages it holds -/

/-- The copy engine (R190, R191, R245, R408, R410, R411): a copy whose issue publish is complete has its record checked; each chunk
of at most 256 bytes is written whole, in iteration order, from sources that have not changed; a copy that has written every
byte completes on its counter, and so does one that has failed, with EV; a byte that has been stored since the copy wrote it
keeps its value or takes the copy's.
Where the spec leaves a point open the statement follows the model's choices of its own: the source is checked before the destination (log 32). -/
def Obligations.CopyEngine : Prop :=
  ∀ (s : State) (c : Copy),
    let d := s.arg.die.toNat
    let total := recCount c.record * recB c.record
    let n := min 256 (total - c.done)
    let disp := fun (i : Nat) => (chunkBytes c).getD i (0, 0)
    let w := tget (s.block c.lead).tl c.tl.toNat 0
    let field := fun (t : State) (hi lo : Nat) => bitsOf (tget (t.block c.lead).tl c.tl.toNat 0).toNat hi lo
    let others := fun (t : State) => ∀ x ∈ (s.die d).copies, x.id ≠ c.id → x ∈ (t.die d).copies
    c ∈ (s.die d).copies → c.id = s.arg.idx → (∀ x ∈ (s.die d).copies, x.id = c.id → x = c) →
    (inEngine (s.die d) c.id → c.stop = .none → c.stat = 0 → publishDone (s.slot c.slot) c.gate →
      (c.started = false → Completes .copyChunk s fun t => others t ∧ SameMemory s t ∧
        ∃ c' ∈ (t.die d).copies, c'.id = c.id ∧ c'.started = true ∧ c'.done = c.done ∧ c'.pre = ⟨s.mem, s.scr, s.far, s.hostMem⟩ ∧
          (recBad c.record → c'.stat = 1) ∧ (recBad c.record = false → recCount c.record = 0 → c'.stat = 0) ∧
          (recBad c.record = false → recCount c.record ≠ 0 → ∀ x, sideFault s c' d true = some x → c'.stat = 2 ∧ c'.code = x)) ∧
      (c.started = true → c.done < total → ∀ (src : Nat → Place) (dst : Nat → Nat),
        (∀ i, i < n → placeAt s c d true (disp i).1 = .ok (src i) ∧ placeAt s c d false (disp i).2 = .ok (.mem (dst i))) →
        (∀ i j, i < n → j < n → dst i = dst j → i = j) → s.poison = [] →
        (∀ i, i < n → readPlace s.mem s.scr s.far s.hostMem (src i) =
          readPlace c.pre.mem c.pre.scr c.pre.far c.pre.host (src i)) →
        Completes .copyChunk s fun t => others t ∧ t.scr = s.scr ∧ t.far = s.far ∧ t.hostMem = s.hostMem ∧
          (∀ i, i < n → memRead t.mem (dst i) = readPlace s.mem s.scr s.far s.hostMem (src i)) ∧
          (∀ a, (∀ i, i < n → dst i ≠ a) → memRead t.mem a = memRead s.mem a) ∧
          ∃ c' ∈ (t.die d).copies, c'.id = c.id ∧ c'.done = c.done + n ∧ c'.stat = 0 ∧ c'.stop = .none)) ∧
    (c.started = true → c.stop ≠ .saved → (c.stat ≠ 0 ∨ total ≤ c.done) →
      c.num.toNat = (bitsOf w.toNat 39 0 + 1) % 2 ^ 40 → 1 ≤ bitsOf w.toNat 46 40 → (s.block c.lead).fin = [] →
      let may := fun (scr : Bool) (m n : List Host.Cell) => ∀ a, memRead n a = memRead m a ∨
        ∃ y ∈ c.wrote, y.1 = scr ∧ y.2.1 = a ∧ y.2.2 = memRead n a
      Completes .copyComplete s fun t => others t ∧ t.slots = s.slots ∧ (∀ x ∈ (t.die d).copies, x.id ≠ c.id) ∧
        may false s.mem t.mem ∧ may true s.scr t.scr ∧ t.far = s.far ∧ t.hostMem = s.hostMem ∧
        ((∀ y ∈ c.wrote, memRead (if y.1 then s.scr else s.mem) y.2.1 = y.2.2) → SameMemory s t) ∧
        field t 39 0 = c.num.toNat ∧ field t 46 40 = bitsOf w.toNat 46 40 - 1 ∧
        (c.stat = 0 → field t 47 47 = bitsOf w.toNat 47 47 ∧ field t 63 48 = bitsOf w.toNat 63 48) ∧
        (c.stat ≠ 0 → field t 47 47 = 1 ∧ (bitsOf w.toNat 47 47 = 0 → field t 63 48 = c.num.toNat % 2 ^ 16)))

/-- The host's answers to page requests (R222, R223) and the far tier's links (R100, R129): a response resumes the copy that waits for it or
fails it with status 3; one that no copy awaits counts in PRILATE; a failure refuses the PASID; an invalidation leaves every
other page as it was; a read that times out, or whose port goes down, is a tier error; a CXL port that comes up takes a fresh key.
Where the spec leaves a point open the statement follows the model's choices of its own: when far-tier errors happen (log 88). -/
def Obligations.HostAndFarTier : Prop :=
  ∀ (s : State) (c : Copy),
    let d := s.arg.die.toNat
    let page := (s.arg.asid.toNat * 2 ^ 64 + s.arg.addr) / 4096
    let p := s.arg.port.toNat
    let becomes := fun (t : State) (c' : Copy) => c' ∈ (t.die d).copies ∧ ∀ x ∈ (s.die d).copies, x.id ≠ c.id → x ∈ (t.die d).copies
    let here := c ∈ (s.die d).copies ∧ c.id = s.arg.idx ∧ ∀ x ∈ (s.die d).copies, x.id = c.id → x = c
    (Completes .atsInvalidation s fun t => { t with hostAbsent := s.hostAbsent, free := s.free } = s ∧
      ∀ q, q ≠ page → (q ∈ t.hostAbsent ↔ q ∈ s.hostAbsent)) ∧
    ((∀ x ∈ (s.die d).copies, x.id = s.arg.idx → x.prq = false ∨ x.resp.isSome) → Completes .pageResponse s fun t =>
      (t.die d).prilate.toNat = min (2 ^ 16 - 1) ((s.die d).prilate.toNat + 1) ∧ (t.die d).copies = (s.die d).copies ∧
      t.slots = s.slots ∧ SameMemory s t) ∧
    (here → c.prq = true → c.resp = none → c.stop ≠ .saved →
      (∀ e, e < 8 → ∀ x ∈ (s.die e).copies, x.resp.isSome → x.stop = .saved) →
      (s.arg.reply = .success → Completes .pageResponse s fun t => becomes t { c with prq := false, stop := .none } ∧
        SameMemory s t ∧ t.slots = s.slots) ∧
      (s.arg.reply = .invalid → Completes .pageResponse s fun t => becomes t { c with prq := false, stop := .none, stat := 3 } ∧
        SameMemory s t ∧ t.slots = s.slots) ∧
      (s.arg.reply = .failure → Completes .pageResponse s fun t => (t.asid c.asid.toNat).priRefused = true ∧
        { c with prq := false, stop := .none, stat := 3 } ∈ (t.die d).copies ∧
        (∀ e, e < 8 → ∀ x ∈ (t.die e).copies, x.asid = c.asid → x.prq = true → x.stop = .saved))) ∧
    (here → (copyPort s c).isSome → c.started = true → c.stop = .none → c.stat = 0 →
      c.done < recCount c.record * recB c.record →
      Completes .farTierTimeout s fun t => becomes t { c with stat := 4 } ∧ SameMemory s t ∧ t.slots = s.slots) ∧
    (p < 6 → (∀ e, e < 8 → (s.die e).fetches = []) → s.farUp.length = 6 →
      (Completes .farTierLinkUp s fun t => t.farUp.getD p false = true ∧ (∀ q, q ≠ p → t.farUp.getD q false = s.farUp.getD q false) ∧
        { t with farUp := s.farUp, mgmt := s.mgmt, ids := s.ids } = s ∧
        (p < 2 → { t.mgmt with cxlIde := s.mgmt.cxlIde } = s.mgmt ∧ tget t.mgmt.cxlIde p 0 = s.ids) ∧ (2 ≤ p → t.mgmt = s.mgmt)) ∧
      (Completes .farTierLinkDown s fun t => t.farUp.getD p true = false ∧
        (∀ q, q ≠ p → t.farUp.getD q false = s.farUp.getD q false) ∧ SameMemory s t ∧ t.slots = s.slots ∧
        (here → copyPort s c = some p → c.started = true → c.stop = .none → c.stat = 0 →
          c.done < recCount c.record * recB c.record → { c with stat := 4 } ∈ (t.die d).copies)))

/-- Translations and claims (R30, R213, R217, R218, R220, R221): a shootdown clears V in every translation register of the
address space that names the object, once no access under the old mapping is unperformed; that of a retired queue handle
completes on a die once no operation translated through it waits at its source; a fault record that can be
resolved leaves the list, and its group replays; a claim of an object that is already home is answered OK, one of an object
that holds a spill region, a pool, a ring or a window BUSY, and one that the caller's die has no room for NOSPACE; another makes its
object Moving, and once no earlier access is left its pages hold their bytes on the caller's die, as its old home has published
them, the rest of the object is zero-fill, and the status is OK.
Where the spec leaves a point open the statement follows the model's choices of its own: a claim moves its object in one step (log 64); what a replay issues again (log 68). -/
def Obligations.ShootdownsAndClaims : Prop :=
  ∀ (s : State),
    let d := s.arg.die.toNat
    let a := s.arg.asid
    let q := s.qtte a.toNat s.arg.idx
    let r := (s.die d).faults.headD ⟨0, none, none, none, 0, 0, 0⟩
    let claim := (s.die d).claims.headD ⟨0, 0, 0, 0, 0, 0, 0, 0, .wait⟩
    let o := s.obj claim.asid.toNat claim.obj
    (accessing s a s.arg.addr = false → Completes .translationShootdown s fun t => t.mem = s.mem ∧ t.objs = s.objs ∧
      ∀ k, ((s.slot k).bind.asid = a → ∀ b x, (b, x) ∈ (t.slot k).b → x.obj.toNat = s.arg.addr → x.v = false) ∧
        ((s.slot k).bind.asid ≠ a → t.slot k = s.slot k) ∧ (t.slot k).pc = (s.slot k).pc ∧ (t.slot k).v = (s.slot k).v) ∧
    (q.left.getLsbD d → unissued s d a s.arg.idx = false → Completes .qttShootdown s fun t =>
      t.qtte a.toNat s.arg.idx = { q with left := q.left &&& ~~~(1#8 <<< d) } ∧ t.slots = s.slots ∧ SameMemory s t) ∧
    (∀ k p, (s.die d).faults ≠ [] → unresolvable s r = false → r.slot = some k → (s.slot k).fpark = some p → p.id = r.id → p.op = none →
      (s.slot k).stopped = false → (∀ x, extentAt (s.obj r.asid.toNat r.obj) r.off = some x → x.p = true) →
      Completes .faultResolve s fun t => (t.slot k).fpark = none ∧ (t.slot k).pc = (s.slot k).pc ∧
        (t.slot k).replay = some 0xFFFFFFFF ∧ (t.die d).faults = (s.die d).faults.tail ∧ t.mem = s.mem) ∧
    (∀ x rd va len, (s.die d).claims ≠ [] → claimStuck s d claim = false → claim.step = .wait → claimFault o claim.obj claim.lo = none →
      x ∈ (s.slot claim.slot).outst → x.id = claim.op → (∀ y ∈ (s.slot claim.slot).outst, y.id = x.id → y = x) →
      x.op = .claim rd va len →
      let answers := fun (st : Nat) => Completes .claimServe s fun t => t.mem = s.mem ∧ t.objs = s.objs ∧
        (t.die d).claims = (s.die d).claims.filter (fun y => y.op != claim.op) ∧
        { x with res := some { sw := [(rd, BitVec.ofNat 64 st)] } } ∈ (t.slot claim.slot).outst
      (o.kind = .die → o.home = claim.dest → answers 0) ∧
      ((o.kind = .die → o.home = d ∧ o.home ≠ claim.dest) → objBusy s claim.asid claim.obj → answers 2) ∧
      ((o.kind = .die → o.home = d ∧ o.home ≠ claim.dest) → objBusy s claim.asid claim.obj = false →
        freePages (s.die claim.dest) < claim.hi / 4096 - claim.lo / 4096 → answers 1) ∧
      ((o.kind = .die → o.home = d ∧ o.home ≠ claim.dest) → objBusy s claim.asid claim.obj = false →
        claim.hi / 4096 - claim.lo / 4096 ≤ freePages (s.die claim.dest) → Completes .claimServe s fun t =>
          t.obj claim.asid.toNat claim.obj = { o with state := .moving } ∧ { claim with step := .moving } ∈ (t.die d).claims ∧
          x ∈ (t.slot claim.slot).outst ∧ SameMemory s t ∧ ∀ k, (s.slot k).bind.asid = claim.asid →
            ∀ b y, (b, y) ∈ (t.slot k).b → y.obj.toNat = claim.obj → y.v = false)) ∧
    (∀ x rd va len, (s.die d).claims ≠ [] → claim.step = .moving → accessing s claim.asid claim.obj = false →
      x ∈ (s.slot claim.slot).outst → x.id = claim.op → (∀ y ∈ (s.slot claim.slot).outst, y.id = x.id → y = x) →
      x.op = .claim rd va len →
      let p := if o.kind = .die then publishDie s d else s
      let free := (s.die claim.dest).free.flatMap fun y => (List.range y.2).map fun i => y.1 + i
      let lo := claim.lo / 4096
      let n := claim.hi / 4096 - lo
      let page := fun (i : Nat) => free.getD i 0
      let answers := fun (st : Nat) (P : State → Prop) => Completes .claimServe s fun t =>
        (t.die d).claims = (s.die d).claims.filter (fun y => y.op != claim.op) ∧
        { x with res := some { sw := [(rd, BitVec.ofNat 64 st)] } } ∈ (t.slot claim.slot).outst ∧ P t
      (dieOnline s claim.dest = false ∨ free.length < n → answers 1 fun t =>
        t.obj claim.asid.toNat claim.obj = { o with state := .valid } ∧ t.mem = p.mem) ∧
      (dieOnline s claim.dest → n ≤ free.length → free.Nodup → (∀ y ∈ free, y < 2 ^ 28) → claim.hi / 4096 ≤ (o.bound + 4095) / 4096 →
        (o.kind = .die ∧ o.home ≠ claim.dest ∧ ∀ y ∈ o.exts, y.p → y.pfn + (y.ngm1 + 1) * y.gran ≤ 2 ^ 28) ∨ o.kind = .far →
        answers 0 fun t =>
          let m := t.obj claim.asid.toNat claim.obj
          m.state = .valid ∧ m.kind = .die ∧ m.home = claim.dest ∧ m.bound = o.bound ∧
          (∀ off, off < o.bound → lo ≤ off / 4096 → off / 4096 < lo + n →
            objByteAddr m off = some (physKey claim.dest (4096 * page (off / 4096 - lo) + off % 4096))) ∧
          (∀ off, off < o.bound → off / 4096 < lo ∨ lo + n ≤ off / 4096 → ∃ y, extentAt m off = some y ∧ y.p = false ∧ y.z = true) ∧
          (∀ i j, i < n → j < 4096 → memRead t.mem (physKey claim.dest (4096 * page i + j)) =
            if o.kind = .far then memRead s.far (o.extbase.toNat + 4096 * (lo + i) + j)
            else match objByteAddr o (4096 * (lo + i)) with
              | some src => memRead p.mem (src + j)
              | none => 0) ∧
          ∀ b, (∀ i, i < n → b / 4096 ≠ physKey claim.dest (4096 * page i) / 4096) → memRead t.mem b = memRead p.mem b))

/-- Errors and fuses (R204, R224 to R226, R229): a scrub's corrections count and change no result; an uncorrectable error in
memory poisons its ECC word alone; one in the state of no block only counts, and one in the state of a block, or in a line that
carries its unpublished stores, kills it; an idle awake cluster whose stores are published is fused or unfused.
A die goes offline (R12, R56, R106, R150, R227): the failure of a member of a home, or DIEOFF, clears its ONLINE bit, kills every block
on it and leaves its engines and its cores with nothing; its queues are Lost, a sleeper of another die there is woken with HOMELOST, and
its expert table and pools are gone; the objects that were homed on a failed home are Lost. OBJECT_EVACUATE takes the object
of an offline die that comes first by ASID and number, and it is no longer homed there, or it is Lost.
Where the spec leaves a point open the statement follows the model's choices of its own: arguments of HOME_FAILURE and DIEOFF (log 65); what an offline die leaves (log 67); the spill slot that poison strikes is free (log 69); SCRUB only counts (log 70). -/
def Obligations.ErrorsFusesAndOfflineDies : Prop :=
  (
  ∀ (s : State),
    let d := s.arg.die.toNat
    let key := (d * 2 ^ 40 + s.arg.addr) / 64
    let k := slotKey d s.arg.core.toNat s.arg.slot.toNat
    (Completes .scrub s fun t => (t.die d).cecc.toNat = min (2 ^ 16 - 1) ((s.die d).cecc.toNat + s.arg.v.toNat) ∧
      (∀ e, e ≠ d → t.die e = s.die e) ∧ { t with dies := s.dies } = s) ∧
    (s.arg.place = .memory → s.arg.addr < 2 ^ 37 → (s.die d).fetches = [] → Completes .uncorrectableError s fun t =>
      (∀ w, w ∈ t.poison ↔ w = key ∨ w ∈ s.poison) ∧ SameMemory s t ∧ t.slots = s.slots ∧
      (t.die d).uecc.toNat = min (2 ^ 16 - 1) ((s.die d).uecc.toNat + 1)) ∧
    (s.arg.place = .scratchpad ∨ s.arg.place = .registers → (s.slot k).bind.sstate = .empty ∨ (s.slot k).bind.sstate = .ready →
      Completes .uncorrectableError s fun t => (t.die d).uecc.toNat = min (2 ^ 16 - 1) ((s.die d).uecc.toNat + 1) ∧
        { t with dies := s.dies } = s) ∧
    (let lead := leadOf k (s.slot k)
      let line := physKey d s.arg.addr / 128
      s.arg.place = .scratchpad ∨ s.arg.place = .registers ∨ (s.arg.place = .dirtyLine ∧ heldLine s lead line) →
      (s.slot k).bind.sstate ≠ .empty → (s.slot k).bind.sstate ≠ .ready → (s.block lead).dead = false →
      (∀ h ∈ s.graphs, ∀ n ∈ h.nodes, n.state ≠ .waiting) →
      (∀ b ∈ (s.die d).bound, ∀ g n, s.launchNode ⟨b.asid, b.graph, b.node⟩ = some (g, n) → n.kind = .launch ∧ n.state = .ready) →
      Completes .uncorrectableError s fun t => (t.die d).uecc.toNat = min (2 ^ 16 - 1) ((s.die d).uecc.toNat + 1) ∧
        ∀ j ∈ blockSlots s lead, (t.slot j).bind.sstate = .empty ∨ ((t.slot j).stopped = true ∧ (t.slot j).outst = [])) ∧
    (s.arg.place = .cleanLine → Completes .uncorrectableError s fun t =>
      (t.die d).cecc.toNat = min (2 ^ 16 - 1) ((s.die d).cecc.toNat + 1) ∧ { t with dies := s.dies } = s) ∧
    (s.arg.idx < 40 → (∀ i, i < 4 → (s.core (coreKey d (4 * s.arg.idx + i))).awake = true ∧
        coreIdle s (coreKey d (4 * s.arg.idx + i)) ∧ (s.core (coreKey d (4 * s.arg.idx + i))).dirty = []) →
      Completes .clusterFuse s fun t => t.mem = s.mem ∧ t.slots = s.slots ∧
        (∀ i, i < 4 → (t.core (coreKey d (4 * s.arg.idx + i))).fused = s.arg.flag ∧
          (t.core (coreKey d (4 * s.arg.idx + i))).snap = s.mem ∧ (t.core (coreKey d (4 * s.arg.idx + i))).awake = true) ∧
        ∀ c, (c < coreKey d (4 * s.arg.idx) ∨ coreKey d (4 * s.arg.idx + 4) ≤ c) → t.core c = s.core c)) ∧
  (
  ∀ (s : State),
    let k := s.arg.idx
    let e := s.arg.die.toNat
    let m := s.mgmt
    let homed := fun (d : Nat) (o : Obj) => o.kind = .die ∧ o.home = d ∧ (o.state = .valid ∨ o.state = .moving)
    let ours := fun (d : Nat) (c : Nat) => ∃ j, slotDie j = d ∧ (s.slot j).bind.sstate ≠ .empty ∧ (s.slot j).ctx = c
    -- a group of another die sleeps alone on a queue of die d in which nothing is granted
    let asleep := fun (d p : Nat) (e : Sleeper) => s.graphs = [] ∧ p < 16 ∧ e ∈ (s.port (portKey d p)).sleepers ∧ asleepOn e.queue e ∧
      (s.qref ⟨d, p, e.queue⟩).state ≠ .free ∧ e.queue < 65536 ∧ (∀ n o, (s.qref ⟨d, p, e.queue⟩).slot n ≠ .granted o) ∧
      (∀ y ∈ (s.port (portKey d p)).sleepers, y.queue = e.queue → y = e) ∧
      (∀ i, ∀ y ∈ (s.port (portKey d i)).sleepers, y.flow.ddie.toNat = d) ∧
      e.flow.spkg = s.pkgid ∧ e.flow.dpkg = s.pkgid ∧ e.flow.sdie.toNat ≠ d ∧
      ∃ c o, e.who = .group c o ∧ o ≠ 0 ∧ ¬ ours d c ∧ ∀ v ∈ (s.die d).saved, c ∉ v.ctxs
    let gone := fun (t : State) (d : Nat) => t.mgmt.online = m.online &&& ~~~(1#8 <<< d) ∧
      (∀ c, c < 160 → (t.core (coreKey d c)).awake = false) ∧ (t.die d).copies = [] ∧ (t.die d).dispatches = [] ∧
      (t.die d).claims = [] ∧ (t.die d).fetches = [] ∧ (t.die d).rqs = [] ∧ (t.die d).bound = [] ∧ (t.die d).saved = [] ∧
      (∀ j, slotDie j = d → (t.slot j).bind.sstate = .empty) ∧
      (∀ p q, p < 16 → q < 65536 → (s.qref ⟨d, p, q⟩).state ≠ .free → (t.qref ⟨d, p, q⟩).state = .lost) ∧
      (∀ p e, asleep d p e → ∃ y ∈ (t.flow (revFlow e.flow)).arrived, y.typ = .wake ∧ y.code = 0x19 ∧ y.entry = e.entry ∧ y.ctx = e.who) ∧
      (∀ x ∈ t.erts, x.1 / 65536 ≠ d) ∧ ∀ x ∈ t.pools, x.1 / 1024 ≠ d
    (∀ d, socketDie k = some d → 8 ≤ k → k ∉ m.failed → m.online.getLsbD d → Completes .homeFailure s fun t =>
      gone t d ∧ t.mgmt.failed = m.failed ++ [k] ∧ (∀ p ∈ t.objs, ¬ homed d p.2) ∧
      ∀ a n, homed d (s.obj a n) → (t.obj a n).state = .lost) ∧
    (m.mbcmd = 7 → m.mbstat = .busy →
      (∀ d, m.dieoff = none → m.mbarg = BitVec.ofNat 64 d → d < 8 → m.online.getLsbD d → Completes .dieoff s fun t =>
        gone t d ∧ t.mgmt.dieoff = some d ∧ t.mgmt.mbstat = .busy) ∧
      (m.dieoff = none → 8 ≤ m.mbarg.toNat ∨ m.online.getLsbD (m.mbarg.toNat % 8) = false →
        exec .dieoff s = .next { s with mgmt := { m with mbstat := .notMet } }) ∧
      (∀ d, m.dieoff = some d → (∀ p ∈ s.objs, ¬ homed d p.2) →
        exec .dieoff s = .next { s with mgmt := { m with mbstat := .done, dieoff := none } })) ∧
    (m.online.getLsbD e = false → (∃ p ∈ s.objs, homed e p.2) → (s.objs.map (·.1)).Nodup → (∀ p ∈ s.objs, p.1 < 2 ^ 32) →
      Completes .objectEvacuate s fun t => t.mgmt = m ∧ ∃ (a : BitVec 12) (n : Nat), n < 2 ^ 20 ∧ homed e (s.obj a.toNat n) ∧
        (∀ p ∈ s.objs, homed e p.2 → a.toNat * 2 ^ 20 + n ≤ p.1) ∧ ¬ homed e (t.obj a.toNat n)))

/-! ### Queues at their homes -/

/-- Reservations, pushes and writes at a plain queue (R37 to R39, R44, R46, R57, R446): a reservation that fits, with no
reserver asleep, is granted whole from T on, with its ticket; one that does not fit is FULL, or sleeps on a free entry; a
push fills one slot at once; a write fills a Granted slot, keeps a Filled one, is discarded with VOID at a Void one, counts
as STALE below H, and is refused beyond T.
Where the spec leaves a point open the statement follows the model's choices of its own: Closing is checked before n = 0 (log 34); the window is told from the rest at 2^47 (log 106); SLPOVF counts every failed try (log 107). -/
def Obligations.QueueFills : Prop :=
  ∀ (s : State) (m : Msg),
    let r := reqRef m
    let q := s.qref r
    let x := s.port r.pkey
    let len := (q.tail - q.head).toNat
    let cap := q.winM1 + 1 + q.spillN
    let alone := ∀ e ∈ x.sleepers, e.queue = r.q → e.woken = none → isReserver e.kind = false
    let does := fun (i : Instr) (code : W8) (seq : BitVec 48) (tk : W64) (P : State → Prop) =>
      Completes i s fun t => Answered s t m code seq tk [] ∧ t.slots = s.slots ∧ SameMemory s t ∧ P t
    let same := fun (t : State) => t.qref r = q
    let slotsKept := fun (t : State) (own : BitVec 48 → Prop) => ∀ y, ¬ own y → (t.qref r).slot y = q.slot y
    q.kind = 0 → q.state = .active ∨ q.state = .closing → claimable s r m true = none →
    (Arrives s m .reserve →
      (q.state = .closing → does .queueReserve 0x05 0 0 same) ∧
      (q.state = .active → m.n = 0 → does .queueReserve 0 q.tail (q.tail.setWidth 64) same) ∧
      (q.state = .active → 1 ≤ m.n → (64 < m.n ∨ cap < m.n → does .queueReserve 0x14 0 0 same) ∧
        (m.n ≤ 64 → m.n ≤ cap →
          (m.n ≤ cap - len → alone → Completes .queueReserve s fun t => ∃ tk : W64,
            Answered s t m 0 q.tail tk [] ∧ t.slots = s.slots ∧ (tk.extractLsb' 57 7).toNat = m.n ∧ tk.extractLsb' 0 48 = q.tail ∧
            (tk.extractLsb' 50 7).toNat = min m.n (q.winM1 + 1 - len) ∧ tk.extractLsb' 48 2 = 0 ∧
            (t.qref r).head = q.head ∧ (t.qref r).tail = q.tail + BitVec.ofNat 48 m.n ∧
            (∀ i, i < m.n → (t.qref r).slot (q.tail + BitVec.ofNat 48 i) = .granted m.ctx) ∧
            slotsKept t fun y => ∃ i, i < m.n ∧ y = q.tail + BitVec.ofNat 48 i) ∧
          (cap - len < m.n ∨ ¬ alone →
            (m.try_ = true → does .queueReserve 0x03 0 0 same) ∧
            (m.try_ = false → (∀ k, freeEntry x = some k → does .queueReserve 0x3F (BitVec.ofNat 48 (r.port * 4096 + k)) 0 fun t =>
              same t ∧ (t.port r.pkey).sleepers = x.sleepers ++ [⟨k, r.q, m.ctx, m.flow, .reserve m.n, false, none⟩]) ∧
              (freeEntry x = none → Completes .queueReserve s fun t => same t ∧ t.slots = s.slots ∧
                (t.port r.pkey).sleepers = x.sleepers ∧ (t.port r.pkey).slpovf.toNat = min (2 ^ 16 - 1) (x.slpovf.toNat + 1))))))) ∧
    (Arrives s m .push → m.data.length = 16 * 2 ^ q.esize.toNat →
      (q.state = .closing → does .queuePush 0x05 0 0 same) ∧
      (q.state = .active → 1 ≤ cap - len → alone → does .queuePush 0 q.tail 0 fun t => (t.qref r).head = q.head ∧
        (t.qref r).tail = q.tail + 1 ∧ (t.qref r).slot q.tail = .filled m.data ∧ slotsKept t fun y => y = q.tail) ∧
      (q.state = .active → (cap ≤ len ∨ ¬ alone) → m.try_ = true → does .queuePush 0x03 0 0 same)) ∧
    (Arrives s m .write → m.data.length = 16 * 2 ^ q.esize.toNat →
      let at_ := (m.seq - q.head).toNat
      (at_ < len →
        (∀ w, q.slot m.seq = .granted w → does .queueWrite 0 m.seq 0 fun t => (t.qref r).slot m.seq = .filled m.data ∧
          (t.qref r).head = q.head ∧ (t.qref r).tail = q.tail ∧ slotsKept t fun y => y = m.seq) ∧
        (q.slot m.seq = .filled m.data → does .queueWrite 0 m.seq 0 same) ∧
        (∀ d, q.slot m.seq = .filled d → d ≠ m.data → does .queueWrite 0x16 0 0 same) ∧
        (q.slot m.seq = .void → does .queueWrite 0x04 m.seq 0 fun t => same t ∧
          (t.port r.pkey).voids.toNat = min (2 ^ 16 - 1) (x.voids.toNat + 1))) ∧
      (len ≤ at_ → 2 ^ 47 ≤ at_ → does .queueWrite 0 m.seq 0 fun t => same t ∧
        (t.port r.pkey).stale.toNat = min (2 ^ 16 - 1) (x.stale.toNat + 1)) ∧
      (len ≤ at_ → at_ < 2 ^ 47 → does .queueWrite 0x15 0 0 same))

/-- Dequeues, peeks, counts, sleeps and wakes (R42, R44, R45, R53, R449 to R452): the head is taken with its element, or as VOID with
zero data, and H advances; an empty or pending head answers its status to a `.try` form and puts a blocking one to sleep; a
peek advances nothing; a count gives T − H and the run from H; a wake ends the oldest consumer's sleep, or every one's; a
withdrawal (R53) takes a push that sleeps from its entry, and otherwise says how it has ended.
Where the spec leaves a point open the statement follows the model's choices of its own: reply codes 0x3E and 0x3F (log 15). -/
def Obligations.QueueTakes : Prop :=
  ∀ (s : State) (m : Msg),
    let r := reqRef m
    let q := s.qref r
    let x := s.port r.pkey
    let len := (q.tail - q.head).toNat
    let zeros : List W8 := List.replicate (16 * 2 ^ q.esize.toNat) 0
    let does := fun (i : Instr) (code : W8) (seq : BitVec 48) (tk : W64) (data : List W8) (P : State → Prop) =>
      Completes i s fun t => Answered s t m code seq tk data ∧ t.slots = s.slots ∧ SameMemory s t ∧ P t
    let same := fun (t : State) => t.qref r = q
    let sleeps := fun (i : Instr) (kind : SleepKind) (all : Bool) => ∀ k, freeEntry x = some k →
      does i 0x3F (BitVec.ofNat 48 (r.port * 4096 + k)) 0 [] fun t => same t ∧
        (t.port r.pkey).sleepers = x.sleepers ++ [⟨k, r.q, m.ctx, m.flow, kind, all, none⟩]
    let empty := if q.state = .closing then (0x05 : W8) else 0x01
    q.state = .active ∨ q.state = .closing → claimable s r m false = none →
    (Arrives s m .dequeue → m.mode < 2 → m.esz = some q.esize →
      (∀ d, len ≠ 0 → q.slot q.head = .filled d → does .queueDequeue 0 q.head 0 d fun t => (t.qref r).head = q.head + 1) ∧
      (len ≠ 0 → q.slot q.head = .void → does .queueDequeue 0x04 q.head 0 zeros fun t => (t.qref r).head = q.head + 1) ∧
      (∀ w, len ≠ 0 → q.slot q.head = .granted w → (m.mode = 1 → does .queueDequeue 0x02 q.head 0 [] same) ∧
        (m.mode = 0 → sleeps .queueDequeue .dequeue q.wakeAll)) ∧
      (len = 0 → (m.mode = 1 ∨ q.state = .closing → does .queueDequeue empty q.head 0 [] same) ∧
        (m.mode = 0 → q.state = .active → sleeps .queueDequeue .dequeue q.wakeAll))) ∧
    (Arrives s m .dequeue → m.mode = 2 → m.esz = some q.esize →
      (∀ d, len ≠ 0 → q.slot q.head = .filled d → does .queuePeek 0 q.head 0 d same) ∧
      (len ≠ 0 → q.slot q.head = .void → does .queuePeek 0x04 q.head 0 zeros same) ∧
      (∀ w, len ≠ 0 → q.slot q.head = .granted w → does .queuePeek 0x02 q.head 0 [] same) ∧
      (len = 0 → does .queuePeek empty q.head 0 [] same)) ∧
    (Arrives s m .dequeue → m.mode = 3 → ∀ n, n ≤ len →
      (∀ i, i < n → (q.slot (q.head + BitVec.ofNat 48 i)).ready) → (n < len → (q.slot (q.head + BitVec.ofNat 48 n)).ready = false) →
      does .queueCount 0 0 (BitVec.ofNat 32 n ++ BitVec.ofNat 32 len) [] same) ∧
    (Arrives s m .sleep → m.withdraw = false → m.mode < 2 →
      (len ≠ 0 → (q.slot q.head).ready → does .queueSleep 0 0 0 [] same) ∧
      (len = 0 → q.state = .closing → does .queueSleep 0x05 0 0 [] same) ∧
      ((len = 0 ∧ q.state = .active) ∨ (len ≠ 0 ∧ (q.slot q.head).ready = false) →
        sleeps .queueSleep .sleep (m.mode == 1 || q.wakeAll))) ∧
    (Arrives s m .sleep → m.withdraw = false → 2 ≤ m.mode → (x.sleepers.map (·.entry)).Nodup →
      let es := consumersOf x r.q
      let woken := if m.mode = 3 then es else es.take 1
      does .queueWake 0 0 (BitVec.ofNat 64 woken.length) [] fun t =>
        consumersOf (t.port r.pkey) r.q = es.drop woken.length ∧ same t) ∧
    (Arrives s m .sleep → m.withdraw = true → (∀ e ∈ x.sleepers, e.entry = m.entry → e.flow ≠ m.flow) →
      does .sleeperWithdraw 0 0 0 [] same) ∧
    (Arrives s m .sleep → m.withdraw = true → ∀ e ∈ x.sleepers, e.entry = m.entry → e.flow = m.flow → e.queue = r.q →
      isReserver e.kind → (x.sleepers.map (·.entry)).Nodup →
      let taken := fun (t : State) => same t ∧ (t.port r.pkey).sleepers = x.sleepers.filter fun y => y.entry != e.entry
      (e.woken = none → does .sleeperWithdraw 0x03 0 0 [] taken) ∧
      (∀ c n, e.woken = some (c, n) → does .sleeperWithdraw c (n.setWidth 48) 0 [] taken))

/-- Releases and rounds (R40, R50 to R52, R447, R448): a release voids the slots of its ticket that are still Granted; a merge
release combines its contributions in order, passes over those that are refused and answers the first refusal, and counts in ROUND,
and an evicted contribution combines without a count; the release that brings ROUND to F closes the round into K filled slots, and
its accumulators are gone, or leaves the closure waiting for K free slots; a release that arrives meanwhile is held. -/
def Obligations.ReleasesAndRounds : Prop :=
  ∀ (s : State) (m : Msg),
    let r := reqRef m
    let q := s.qref r
    let x := s.port r.pkey
    let len := (q.tail - q.head).toNat
    let n := (m.ticket.extractLsb' 57 7).toNat
    let seq := fun (i : Nat) => m.ticket.extractLsb' 0 48 + BitVec.ofNat 48 i
    let combined := fun (a : Tbl (List W8)) (k : W8) (d : List W8) =>
      combine q.kind q.coinKey (q.ctrBase + BitVec.ofNat 64 (q.combines % 2 ^ 48)) (tget a k.toNat (emptyElem q.kind)) d
    let fits := fun (k : W8) (d : List W8) => k.toNat ≤ q.keysM1.toNat ∧ d.length = if q.kind = 2 then 64 else 16
    (q.kind = 0 → q.state = .active ∨ q.state = .closing → Arrives s m .release → m.mrg = false →
      Completes .queueRelease s fun t => Answered s t m 0 0 0 [] ∧ (t.qref r).head = q.head ∧ (t.qref r).tail = q.tail ∧
        ∀ y, ((∃ i, i < n ∧ y = seq i) → (y - q.head).toNat < len → (q.slot y).ready = false → (t.qref r).slot y = .void) ∧
          ((∀ i, i < n → y ≠ seq i) ∨ (q.slot y).ready = true → (t.qref r).slot y = q.slot y)) ∧
    (q.kind ≠ 0 → q.state = .active → q.heldRel = [] → q.refused = [] → q.fanin = 0 ∨ q.round + 1 < q.fanin →
      (Arrives s m .release → m.mrg = true →
        (m.parts = [] → Completes .mergeRelease s fun t => Answered s t m 0 0 0 [] ∧ t.qref r = { q with round := q.round + 1 }) ∧
        (∀ k d, m.parts = [(k, d)] → fits k d → Completes .mergeRelease s fun t => Answered s t m 0 0 0 [] ∧
          (t.qref r).round = q.round + 1 ∧ (t.qref r).combines = q.combines + 1 ∧
          tget (t.qref r).acc k.toNat [] = combined q.acc k d ∧
          (∀ j, j ≠ k.toNat → tget (t.qref r).acc j [] = tget q.acc j [])) ∧
        (∀ k d, m.parts = [(k, d)] → q.keysM1.toNat < k.toNat → d.length = (if q.kind = 2 then 64 else 16) →
          Completes .mergeRelease s fun t => Answered s t m 0x15 0 0 [] ∧ t.qref r = { q with round := q.round + 1 })) ∧
      (Arrives s m .merge → fits m.key m.data → Completes .marverEvictionArrival s fun t => (t.qref r).round = q.round ∧
        (t.qref r).combines = q.combines + 1 ∧ tget (t.qref r).acc m.key.toNat [] = combined q.acc m.key m.data) ∧
      (Arrives s m .merge → q.keysM1.toNat < m.key.toNat → m.data.length = (if q.kind = 2 then 64 else 16) →
        Completes .marverEvictionArrival s fun t => t.qref r = { q with refused := [(m.flow, 0x15)] } ∧
          (t.port r.pkey).voids.toNat = min (2 ^ 16 - 1) (x.voids.toNat + 1))) ∧
    (let r : QRef := ⟨s.arg.die.toNat, s.arg.port.toNat, s.arg.idx⟩
      let q := s.qref r
      let keys := q.keysM1.toNat + 1
      q.kind ≠ 0 → q.state = .active → q.fanin ≠ 0 → q.fanin ≤ q.round → q.heldRel = [] →
      keys ≤ q.winM1 + 1 + q.spillN - (q.tail - q.head).toNat → Completes .roundClose s fun t =>
        (t.qref r).round = 0 ∧ (t.qref r).acc = [] ∧ (t.qref r).head = q.head ∧ (t.qref r).tail = q.tail + BitVec.ofNat 48 keys ∧
        ∀ k, k < keys → (t.qref r).slot (q.tail + BitVec.ofNat 48 k) = .filled (tget q.acc k (emptyElem q.kind))) ∧
    (let keys := q.keysM1.toNat + 1
      let room := q.winM1 + 1 + q.spillN - len
      let refusal := fun (p : W8 × List W8) => if p.2.length ≠ (if q.kind = 2 then 64 else 16) then some (0x13 : W8)
        else if q.keysM1.toNat < p.1.toNat then some 0x15 else none
      let step := fun (z : (Nat → List W8) × Nat) (p : W8 × List W8) =>
        ((fun j : Nat => if j = p.1.toNat then combine q.kind q.coinKey (q.ctrBase + BitVec.ofNat 64 (z.2 % 2 ^ 48)) (z.1 j) p.2 else z.1 j),
          z.2 + 1)
      let z := (m.parts.filter fun p => refusal p = none).foldl step (fun j => tget q.acc j (emptyElem q.kind), q.combines)
      let code := ((m.parts.filterMap refusal).head?).getD 0
      q.kind ≠ 0 → q.state = .active → q.refused = [] → Arrives s m .release → m.mrg = true →
        (q.fanin = 0 ∨ q.round + 1 < q.fanin → q.heldRel = [] → Completes .mergeRelease s fun t => Answered s t m code 0 0 [] ∧
          (t.qref r).round = q.round + 1 ∧ (t.qref r).combines = z.2 ∧ (t.qref r).head = q.head ∧ (t.qref r).tail = q.tail ∧
          ∀ j, tget (t.qref r).acc j (emptyElem q.kind) = z.1 j) ∧
        (q.fanin ≠ 0 → q.round + 1 = q.fanin → q.heldRel = [] →
          (keys ≤ room → Completes .mergeRelease s fun t => Answered s t m code 0 0 [] ∧ (t.qref r).round = 0 ∧ (t.qref r).acc = [] ∧
            (t.qref r).combines = z.2 ∧ (t.qref r).head = q.head ∧ (t.qref r).tail = q.tail + BitVec.ofNat 48 keys ∧
            ∀ k, k < keys → (t.qref r).slot (q.tail + BitVec.ofNat 48 k) = .filled (z.1 k)) ∧
          (room < keys → Completes .mergeRelease s fun t => Answered s t m code 0 0 [] ∧ (t.qref r).round = q.fanin ∧
            (t.qref r).combines = z.2 ∧ (t.qref r).head = q.head ∧ (t.qref r).tail = q.tail ∧
            ∀ j, tget (t.qref r).acc j (emptyElem q.kind) = z.1 j)) ∧
        (q.fanin ≠ 0 → q.fanin ≤ q.round → Completes .mergeRelease s fun t =>
          t.qref r = { q with heldRel := q.heldRel ++ [m] } ∧ (t.flow m.flow).arrived = (s.flow m.flow).arrived.tail))

/-- The lifecycle of a queue (R34, R54, R55): CREATE of a Free queue whose descriptor passes its checks and whose window fits
makes it Active and empty; CLOSE, DESTROY of a drained Closing queue, and FORCE, which counts T − H in VOIDS; any other
starting state ends with wrong state.
Where the spec leaves a point open the statement follows the model's choices of its own: DESTROY and FORCE zero the counters (log 109); FANIN 0 is a descriptor error (log 110); which result a window past the pool and a number past 4,095 have (log 111). -/
def Obligations.QueueLifecycle : Prop :=
  ∀ (s : State),
    let pk := portKey s.arg.die.toNat s.arg.port.toNat
    let x := s.port pk
    let r : QRef := ⟨s.arg.die.toNat, s.arg.port.toNat, x.queue.toNat⟩
    let q := s.qref r
    let ends := fun (i : Instr) (res : QpResult) (P : State → Prop) => Completes i s fun t => (t.port pk).result = res ∧ P t
    let same := fun (t : State) => t.queues = s.queues
    let emptied := fun (t : State) (st : QLife) => (t.qref r).state = st ∧ (t.qref r).head = 0 ∧ (t.qref r).tail = 0 ∧
      (t.qref r).round = 0 ∧ (t.qref r).slots = [] ∧ (t.qref r).esize = q.esize ∧ (t.qref r).kind = q.kind ∧ (t.qref r).tenant = q.tenant
    x.result = .busy → s.mgmt.online.getLsbD s.arg.die.toNat = true →
    (x.op = 1 →
      (4096 ≤ x.queue.toNat → ends .queueCreate .descError same) ∧
      (x.queue.toNat < 4096 → q.state ≠ .free → ends .queueCreate .wrongState same) ∧
      (x.queue.toNat < 4096 → q.state = .free → descBad s r q → ends .queueCreate .descError same) ∧
      (x.queue.toNat < 4096 → q.state = .free → descBad s r q = false →
        let units := (((q.winM1 + 1) * (16 * 2 ^ q.esize.toNat)) + 255) / 256
        (8192 < q.winOff + units → ends .queueCreate .poolExhausted same) ∧
        (q.winOff + units ≤ 8192 → ends .queueCreate .done fun t => emptied t .active))) ∧
    (x.op = 2 →
      (q.state ≠ .active → ends .queueClose .wrongState same) ∧
      (q.state = .active → q.kind = 0 → q.heldRel = [] → ends .queueClose .done fun t => t.qref r = { q with state := .closing })) ∧
    (x.op = 3 →
      (q.state ≠ .closing ∨ q.tail ≠ q.head → ends .queueDestroy .wrongState same) ∧
      (q.state = .closing → q.tail = q.head → ends .queueDestroy .done fun t => emptied t .free ∧
        ∀ e ∈ (t.port pk).sleepers, e.queue = r.q → e.woken ≠ none)) ∧
    (x.op = 4 →
      (q.state ≠ .active → q.state ≠ .closing → ends .queueForce .wrongState same) ∧
      (q.state = .active ∨ q.state = .closing → ends .queueForce .done fun t => emptied t .free ∧
        (t.port pk).voids.toNat = min (2 ^ 16 - 1) (x.voids.toNat + (q.tail - q.head).toNat) ∧
        ((x.sleepers.map (·.entry)).Nodup → ∀ e ∈ (t.port pk).sleepers, e.queue = r.q → e.woken ≠ none)))

/-- Answers at the source (R45 to R47, R57, R73, R441): the REPLY to a group's operation, or the WAKE of a sleep, makes its result
ready, a code at or above 0x10 as a QUEUE fault; code 0x3F leaves it asleep at its home; a dequeue woken goes out again; an
operation that found no sleeper entry is issued again 1,024 cycles later.
Where the spec leaves a point open the statement follows the model's choices of its own: reply codes 0x3E and 0x3F (log 15). -/
def Obligations.QueueAnswers : Prop :=
  ∀ (s : State) (m : Msg) (k : Nat) (o : Outst) (q : QOp) (ctx op : Nat),
    let f := s.arg.flow
    let g := s.slot k
    let gets := fun (i : Instr) (r : Result) => Completes i s fun t => { o with res := some r } ∈ (t.slot k).outst ∧
      (t.slot k).v = g.v ∧ (t.slot k).s = g.s ∧ (t.slot k).pc = g.pc ∧ SameMemory s t ∧ ∀ j, j ≠ k → t.slot j = s.slot j
    let trap : Trap := { cause := 0x0A, code := m.code, precise := false, lanes := q.lanes, fpc := o.fpc,
                         arg0 := q.handle.setWidth 64, arg1 := q.pqid.setWidth 64 }
    let elem := 16 * 2 ^ q.esz.toNat
    let piece := fun h : Nat => (⟨q.v + BitVec.ofNat 8 h, maskOf fun l => decide (32 * h + l < elem / 4),
      genVec fun l => BitVec.ofNat 32 (leNat ((m.data.drop (4 * (32 * h + l))).take 4))⟩ : VWrite)
    let result : Result → Prop := fun r =>
      (0x10 ≤ m.code.toNat → r = { fault := some trap }) ∧
      (m.code.toNat < 0x10 →
        let status : W64 := m.seq ++ 0#8 ++ m.code
        let plain : W64 := 0#48 ++ 0#8 ++ m.code
        (q.kind = .res → r = { sw := [(q.d, if m.code = 0 then m.ticket else 0), (q.d + 1, plain)] }) ∧
        (q.kind = .put ∨ q.kind = .push → r = { sw := [(q.d, status)] }) ∧
        (q.kind = .count ∨ q.kind = .wake → r = { sw := [(q.d, m.ticket)] }) ∧
        (q.kind = .sleep ∨ q.kind = .rel ∨ q.kind = .relMrg → r = { sw := [(q.d, plain)] }) ∧
        (q.kind = .get ∨ q.kind = .peek → (m.code ≠ 0 → m.code ≠ 0x04 → r = { sw := [(q.d, status)] }) ∧
          (m.code = 0 ∨ m.code = 0x04 → r = { sw := [(q.d, status)], vw := if 128 < elem then [piece 0, piece 1] else [piece 0] })))
    let here := f.dpkg = s.pkgid ∧ f.spkg = s.pkgid ∧ (s.flow f).arrived.head? = some m ∧ m.flow = f ∧ m.ctx = .group ctx op ∧
      findOp s ctx op = some (k, o, q) ∧ Quiet g ∧ o ∈ g.outst ∧ o.op = .queue q ∧ (∀ x ∈ g.outst, x.id = o.id → x = o)
    (here → m.typ = .reply → (s.flow (revFlow f)).refusedMerge = [] →
      (m.code ≠ 0x3F → m.code ≠ 0x3E → ∃ r, result r ∧ gets .replyReceive r) ∧
      (m.code = 0x3F → Completes .replyReceive s fun t => ∃ o' ∈ (t.slot k).outst, o'.id = o.id ∧ o'.res = o.res ∧
        o'.op = .queue { q with st := .asleep (revFlow f) (BitVec.ofNat 4 (m.seq.toNat / 4096)) (m.seq.toNat % 4096) }) ∧
      (m.code = 0x3E → Completes .replyReceive s fun t => ∃ o' ∈ (t.slot k).outst, o'.id = o.id ∧ o'.res = o.res ∧
        o'.op = .queue { q with st := .parked ((s.die (slotDie k)).clock.toNat + 1024) })) ∧
    (here → m.typ = .wake → op ≠ 0 → g.sleepStop = false → (s.die (slotDie k)).halted = none →
      (q.kind ≠ .get ∨ m.code ≠ 0 → ∃ r, result r ∧ Completes .wakeReceive s fun t => { o with res := some r } ∈ (t.slot k).outst ∧
        ∀ e ∈ (t.port (portKey f.sdie.toNat m.port.toNat)).sleepers, e.entry ≠ m.entry) ∧
      (q.kind = .get → m.code = 0 → o.res = none → g.fence = none → pqPkg q.pqid = s.pkgid → Completes .wakeReceive s fun t =>
        (∃ o' ∈ (t.slot k).outst, o'.id = o.id ∧ ∃ q', o'.op = .queue q' ∧ q'.st = .sent (flowTo s (slotDie k) q.pqid)) ∧
        ∃ y ∈ (t.flow (flowTo s (slotDie k) q.pqid)).arrived, y.typ = .dequeue ∧ y.queue = pqQueue q.pqid)) ∧
    (let k := slotKey s.arg.die.toNat s.arg.core.toNat s.arg.slot.toNat
      let g := s.slot k
      ∀ until_, g.outst = [o] → o.op = .queue { q with st := .parked until_ } → o.res = none → until_ ≤ (s.die (slotDie k)).clock.toNat →
        g.sleepStop = false → g.fence = none → g.phase = none → (s.die (slotDie k)).dispatches = [] →
        (s.die (slotDie k)).halted = none → pqPkg q.pqid = s.pkgid →
        Completes .sleeperParkRetry s fun t => ∃ o' ∈ (t.slot k).outst, o'.id = o.id ∧
          ∃ q', o'.op = .queue q' ∧ q'.st = .sent (flowTo s (slotDie k) q.pqid))

/-! ### The Nymold fabric -/

/-- Links (R61, R80 to R84): a link that trains comes up, sends its counters, adopts those it is sent, and the first sets PKGID,
while one that reports another port is held disabled; a loss of alignment retrains; a failure, 16 authentication failures within
1 ms, or a transmit counter at 2^48 takes it down and leaves nothing unacknowledged on it while another path is up, unless its
flow is being reset; the failure of the path from a link's switch to one package does so for that package; DISABLE holds it
disabled; FABCFG sets the timeouts, and without ENABLE no link is up.
Link keys and access tables (R77, R79, R81): an installed key starts at counter 0; transmission switches to a slot that holds
a key; after 1,024 consecutive frames under a new slot the other is retired; a table write replaces one entry but for its
reserved bits.
Where the spec leaves a point open the statement follows the model's choices of its own: DISABLE and DBGCTL (log 79). -/
def Obligations.LinksAndKeys : Prop :=
  (
  ∀ (s : State),
    let l := s.arg.link.toNat
    let x := s.link l
    let v := s.arg.v
    let others := fun (t : State) => ∀ j, j ≠ l → { t.link j with tx := (s.link j).tx } = s.link j
    let downs := min (2 ^ 16 - 1) (x.downs.toNat + 1)
    let moved := fun (t : State) (to_ : BitVec 9 → Prop) => ∀ f : Flow, f.spkg = s.pkgid → f.dpkg ≠ s.pkgid → to_ f.dpkg →
      ∀ u ∈ (t.flow f).unacked, u.link = l → upLinks t f.dpkg = [] ∨ (t.flow f).resetAt.isSome
    let fails := fun (t : State) => (t.link l).state = .down ∧ (t.link l).downs.toNat = downs ∧ others t ∧ moved t fun _ => True
    (s.arg.flag = false → s.fabric.enable = true → x.disable = false → x.exhausted = false → x.state = .training ∨ x.state = .down →
      (s.fabric.pkgid = none ∨ s.fabric.pkgid = some s.arg.pkg → Completes .linkTraining s fun t => (t.link l).state = .up ∧
        (t.link l).rx0 = { x.rx0 with ctr := v.toNat } ∧ (t.link l).rx1 = { x.rx1 with ctr := s.arg.w.toNat } ∧
        t.out.training = s.out.training ++ [(l, x.tx0.ctr, x.tx1.ctr)] ∧
        t.fabric.pkgid = some s.arg.pkg ∧ others t ∧ t.flows = s.flows) ∧
      (∀ p, s.fabric.pkgid = some p → p ≠ s.arg.pkg → Completes .linkTraining s fun t => (t.link l).state = .disabled ∧
        t.fabric.pkgid = some p ∧ others t ∧ t.flows = s.flows)) ∧
    (s.arg.flag = true → Completes .linkTraining s fun t => t.links = s.links ∧ t.flows = s.flows ∧
      ∀ q, q ∈ t.fabric.badPaths ↔ q ∈ s.fabric.badPaths ∧ q ≠ (l, s.arg.pkg.toNat)) ∧
    (x.state = .up →
      (Completes .frameAlignmentLoss s fun t => (t.link l).state = .training ∧ (t.link l).downs = x.downs ∧ others t ∧
        t.flows = s.flows) ∧
      (s.arg.flag = false → Completes .linkFailure s fails) ∧
      (16 ≤ (x.fails.filter fun n => decide (s.time < n + 1000000)).length → Completes .authFailLinkDown s fun t =>
        fails t ∧ (t.link l).fails = []) ∧
      (2 ^ 48 ≤ (if x.txKey then x.tx1 else x.tx0).ctr → Completes .frameCounterExhaust s fun t =>
        fails t ∧ (t.link l).exhausted = true)) ∧
    (s.arg.flag = true → (l, s.arg.pkg.toNat) ∉ s.fabric.badPaths → Completes .linkFailure s fun t =>
      (l, s.arg.pkg.toNat) ∈ t.fabric.badPaths ∧ (t.link l).state = x.state ∧ others t ∧ moved t fun p => p = s.arg.pkg) ∧
    (s.arg.flag = true → Completes .flnkDisableWrite s fun t => (t.link l).disable = true ∧ (t.link l).state = .disabled ∧
      others t ∧ moved t fun _ => True) ∧
    (s.arg.flag = false → Completes .flnkDisableWrite s fun t => (t.link l).disable = false ∧ others t ∧
      (x.state ≠ .disabled → (t.link l).state = x.state) ∧
      (x.state = .disabled → (t.link l).state = if s.fabric.enable then .training else .down)) ∧
    (Completes .fabcfgWrite s fun t => t.fabric.unreach = v.extractLsb' 32 16 ∧ t.fabric.rto = v.extractLsb' 16 8 ∧
      t.fabric.rttw.toNat = max 2 (v.extractLsb' 24 8).toNat ∧ t.fabric.enable = v.getLsbD 9 ∧ t.fabric.pkgid = s.fabric.pkgid ∧
      (v.getLsbD 9 = true → s.fabric.enable = false → ∀ j, j < 64 →
        (t.link j).state = if (s.link j).state = .down then .training else (s.link j).state) ∧
      (v.getLsbD 9 = false → s.fabric.enable = true → ∀ j, j < 64 →
        (t.link j).state = if (s.link j).state = .disabled then .disabled else .down))) ∧
  (
  ∀ (s : State),
    let l := s.arg.link.toNat
    let x := s.link l
    let others := fun (t : State) => (∀ j, j ≠ l → t.link j = s.link j) ∧ { t with links := s.links } = s
    let fresh : KeySlot := { key := some s.arg.v, ctr := 0 }
    let rxNew := x.rxNew = some x.rxRun.1 ∧ 1024 ≤ x.rxRun.2
    let txNew := x.txNew = some x.txKey ∧ 1024 ≤ x.txRun
    (Completes .keyInstall s fun t => others t ∧
      (t.link l).tx0 = (if s.arg.flag && !s.arg.flag2 then fresh else x.tx0) ∧
      (t.link l).tx1 = (if s.arg.flag && s.arg.flag2 then fresh else x.tx1) ∧
      (t.link l).rx0 = (if !s.arg.flag && !s.arg.flag2 then fresh else x.rx0) ∧
      (t.link l).rx1 = (if !s.arg.flag && s.arg.flag2 then fresh else x.rx1) ∧
      (t.link l).exhausted = (x.exhausted && !s.arg.flag) ∧ (t.link l).txKey = x.txKey ∧ (t.link l).state = x.state) ∧
    ((if x.txKey then x.tx0 else x.tx1).key.isSome → Completes .keySwitch s fun t => others t ∧
      t.link l = { x with txKey := !x.txKey, txRun := 0 }) ∧
    (Completes .keyRetire s fun t => others t ∧ (t.link l).state = x.state ∧
      (t.link l).rx0.key = (if rxNew ∧ x.rxRun.1 = true then none else x.rx0.key) ∧
      (t.link l).rx1.key = (if rxNew ∧ x.rxRun.1 = false then none else x.rx1.key) ∧
      (t.link l).tx0.key = (if txNew ∧ x.txKey = true then none else x.tx0.key) ∧
      (t.link l).tx1.key = (if txNew ∧ x.txKey = false then none else x.tx1.key)) ∧
    (Completes .accessTableWrite s fun t => others t ∧ (t.link l).state = x.state ∧
      ∀ k, tget (t.link l).access k 0 =
        if k = s.arg.pkg.toNat * 1024 + s.arg.idx % 1024 then s.arg.v &&& ~~~0xFC3F else tget x.access k 0))

/-- Admission, the switch and the receiver (R64, R65, R67 to R69, R74, R75, R78, R80, R82): a message leaves whole on the up path of
the smallest backlog, the lowest of equals, once its bucket is not in debt, at 80 bytes a cell; the switch drops and counts a
malformed cell, answers one that its tables refuse with DENIED, and passes the others, a data cell marked behind more than
64 KiB; frames that fail authentication are discarded and counted, and an authentic one delivers its next message once.
Where the spec leaves a point open the statement follows the model's choices of its own: frames and their authentication are symbolic (log 20); a bucket starts full (log 44); the REPLY of a switch has no FSEQ (log 100); fields that a cell has not (log 114). -/
def Obligations.CellsAndFrames : Prop :=
  ∀ (s : State),
    let l := s.arg.link.toNat
    let x := s.link l
    let lk := limKey s.arg.die.toNat s.arg.pkg
    let lim := s.limiter lk
    let tokens : Int := min 16384 (lim.tokens + ((s.time - lim.tokensAt) * lim.units * 25 : Nat))
    let elsewhere := fun (t : State) => ∀ j, j ≠ l → t.link j = s.link j
    let inWindow := fun (e : Nat) => lim.tickAt < e ∧ e ≤ lim.tickAt + 10000
    (∀ m r, lim.waiting = m :: r → resetting s m = false → 0 ≤ tokens → upLinks s s.arg.pkg ≠ [] → m.typ ≠ .flush →
      Completes .messageAdmit s fun t => ∃ p ∈ upLinks s s.arg.pkg,
        (∀ q ∈ upLinks s s.arg.pkg, (s.link p).tx.length < (s.link q).tx.length ∨
          ((s.link p).tx.length = (s.link q).tx.length ∧ p ≤ q)) ∧
        (t.link p).tx = (s.link p).tx ++ (List.range (cellsOf m)).map (cellOf m) ∧ (∀ j, j ≠ p → t.link j = s.link j) ∧
        (t.limiter lk).waiting = r ∧ (t.limiter lk).tokens = tokens - 4 * 80 * (cellsOf m : Int) ∧
        (t.flow m.flow).unacked = (s.flow m.flow).unacked ++ if numbered m.typ then [⟨m, p, s.time, s.time⟩] else []) ∧
    (lim.tickAt + 10000 ≤ s.time → Completes .rateTick s fun t =>
      (t.limiter lk).tickAt = lim.tickAt + 10000 ∧ (t.limiter lk).tokens = tokens ∧
      ((∀ e ∈ lim.echoes, ¬ inWindow e) → (t.limiter lk).units = min (lim.units + 8) 512) ∧
      ((∃ e ∈ lim.echoes, inWindow e) → (t.limiter lk).units = lim.units)) ∧
    (∀ c r, x.atSwitch = c :: r →
      (malformed c → Completes .switchForward s fun t => (t.link l).atSwitch = r ∧ (t.link l).swOut = x.swOut ∧
        (t.link l).swDrops = x.swDrops + 1 ∧ t.out = s.out ∧ elsewhere t) ∧
      (∀ m, malformed c = false → msgOf [c] = some m →
        (accessPasses s l m = false → Completes .switchForward s fun t => (t.link l).atSwitch = r ∧ (t.link l).swOut = x.swOut ∧
          elsewhere t ∧ ∃ d : Cell, t.out.cells = s.out.cells ++ [(l, d)] ∧ d.flow = revFlow m.flow ∧ d.type = 8 ∧ d.tenant = 0x18 ∧
            (m.typ ≠ .flush → d.dq.extractLsb' 0 16 = m.fseq) ∧ (m.typ = .flush → d.dq.extractLsb' 0 16 = BitVec.ofNat 16 m.num)) ∧
        (accessPasses s l m → Completes .switchForward s fun t => (t.link l).atSwitch = r ∧ t.out = s.out ∧ elsewhere t ∧
          (t.link l).swOut = x.swOut ++ [if dataCell m.typ ∧ 65536 < 80 * x.swOut.length then c.setMark else c]))) ∧
    (∀ (fr : LFrame) r, x.rx = fr :: r → x.state = .up →
      let k := if fr.slot then x.rx1 else x.rx0
      let authentic := k.key = some fr.key ∧ fr.nonce = nonceOf (linkId s.pkgid l true) k.ctr ∧ fr.aad = aadOf fr.cells ∧
        ∀ c ∈ fr.cells, c.hdr.getLsbD 7 = fr.slot
      let counted := fun (t : State) => (t.link l).rx = r ∧
        (if fr.slot then (t.link l).rx1 else (t.link l).rx0) = { k with ctr := k.ctr + fr.run } ∧ elsewhere t
      let idle := fun (c : Cell) => c.type = 15 ∧ malformed c = false
      (¬ authentic → Completes .frameReceive s fun t => counted t ∧
        (t.link l).autherr.toNat = min (2 ^ 16 - 1) (x.autherr.toNat + fr.run) ∧ t.flows = s.flows) ∧
      (authentic →
        ((∀ c ∈ fr.cells, idle c) → Completes .frameReceive s fun t => counted t ∧ (t.link l).autherr = x.autherr ∧
          t.flows = s.flows) ∧
        (∀ c cs, fr.cells = c :: cs → (∀ d ∈ cs, idle d) →
          (malformed c → Completes .frameReceive s fun t => (t.link l).malf.toNat = min (2 ^ 16 - 1) (x.malf.toNat + 1) ∧
            t.flows = s.flows) ∧
          (∀ m, malformed c = false → msgOf [c] = some m → c.flow.dpkg = s.pkgid → numbered m.typ →
            ¬ (m.typ = .reply ∧ m.code = 0x18) →
            let y := s.flow c.flow
            (c.fseq = y.expect → c.clast = 0 → reorderLoad s c.flow.ddie < 16384 → y.gathered = [] → y.reorder = [] →
              y.toAck < 63 → Completes .frameReceive s fun t => (t.flow c.flow).arrived = y.arrived ++ [m] ∧
                (t.flow c.flow).expect = c.fseq + 1 ∧ (t.flow c.flow).ackSince.isSome) ∧
            (seqLe y.expect c.fseq = false → Completes .frameReceive s fun t => (t.flow c.flow).arrived = y.arrived ∧
              (t.flow c.flow).expect = y.expect ∧ (t.flow c.flow).ackSince.isSome)))))

/-- Acknowledgement, flushes and retransmission (R66 to R69, R71, R72): an ACK is cumulative and frees what it covers; a
message without one is sent again on another up path after RTO; a marker is answered with FLUSHACK once every earlier message
of the flow has been delivered, and the FLUSHACK ends the wait of the fence that sent it.
Unreachable packages and the reset of flows (R85): a package is declared unreachable after UNREACH ms, with its bit of FABUNR
set, nothing left to send on the flow to it, and HOMELOST a QUEUE fault of each operation of the die that waits for its answer, sleeps there or
fences its writes there, on a halted die the code that its sleep keeps; writing one clears the bit and asks for the reset of the pair's flows; the request empties the receiving side and is
answered, and answered again when it is repeated; the answer starts the sender at FSEQ 0, and a request without an answer is sent
again after RTO.
Where the spec leaves a point open the statement follows the model's choices of its own: resends are not charged (log 47); a repeated reset is told by time (log 116); contributions at a declaration (log 129). -/
def Obligations.AcksAndUnreachablePackages : Prop :=
  (
  ∀ (s : State) (m : Msg),
    let f := s.arg.flow
    let x := s.flow f
    let back := revFlow f
    let k := limKey f.ddie.toNat f.spkg
    let sent := fun (t : State) => (t.limiter k).waiting
    let remote := f.dpkg = s.pkgid ∧ f.spkg ≠ s.pkgid
    let local_ := f.dpkg = s.pkgid ∧ f.spkg = s.pkgid ∧ x.arrived.head? = some m
    let rto := max 1 s.fabric.rto.toNat * 10000
    (remote → x.ackSince.isSome → Completes .ackSend s fun t => (t.flow f).ackSince = none ∧ (t.flow f).toAck = 0 ∧
      ∃ a : Msg, sent t = (s.limiter k).waiting ++ [a] ∧ a.typ = .ack ∧ a.flow = back ∧ a.fseq = x.expect - 1 ∧
        (a.echo ↔ x.echo ≠ 0)) ∧
    (remote → x.arrived.find? (fun y => y.typ == .ack) = some m → m.echo = false → (s.flow back).held = [] → Completes .ackReceive s fun t =>
      (t.flow back).unacked = (s.flow back).unacked.filter (fun u => !seqLe u.msg.fseq m.fseq) ∧ (t.flow back).next = (s.flow back).next ∧
      (t.flow f).arrived = x.arrived.erase m) ∧
    (∀ u, x.unacked = [u] → x.resetAt = none → u.sentAt + rto ≤ s.time → (∃ p ∈ upLinks s f.dpkg, p ≠ u.link) →
      Completes .retransmitTimeout s fun t => ∃ p ∈ upLinks s f.dpkg, p ≠ u.link ∧
        (t.flow f).unacked = [{ u with link := p, sentAt := s.time }] ∧
        (t.link p).tx = (s.link p).tx ++ (List.range (cellsOf u.msg)).map (cellOf u.msg)) ∧
    ((∀ u ∈ x.unacked, s.time < u.sentAt + rto) → exec .retransmitTimeout s = .next s) ∧
    (local_ → m.typ = .flush → Completes .flushArrival s fun t =>
      (∃ a ∈ (t.flow back).arrived, a.typ = .flushAck ∧ a.num = m.num) ∧ t.slots = s.slots ∧ SameMemory s t) ∧
    (remote → x.arrived.find? (fun y => y.typ == .flush) = some m → x.gathered = [] → m.n = 1 →
      (seqLe (m.fseq + 1) x.expect → Completes .flushArrival s fun t => ∃ a : Msg, sent t = (s.limiter k).waiting ++ [a] ∧
        a.typ = .flushAck ∧ a.num = m.num) ∧
      (seqLe (m.fseq + 1) x.expect = false → Completes .flushArrival s fun t => sent t = (s.limiter k).waiting ∧
        ∃ g ∈ (t.flow f).gathered, g.num = m.num ∧ g.done = false)) ∧
    (local_ → m.typ = .flushAck → ∀ j c, slotDie j = back.sdie.toNat → (s.slots.map (·.1)).Nodup → (j ∈ s.slots.map (·.1)) →
      (∀ i, i ≠ j → (s.slot i).fence = none) → (s.slot j).fence = some c → c.waits = [(back, m.num)] → Quiet (s.slot j) →
      (∀ o ∈ (s.slot j).outst, ∀ q, o.op = .queue q → q.st ≠ .held) → Completes .flushackReceive s fun t =>
        (t.slot j).fence = none ∧ (t.slot j).pc = (s.slot j).pc ∧ ∀ u ∈ (t.flow back).flushes, u.num ≠ m.num) ∧
    (f.dpkg ≠ s.pkgid → ∀ u p, x.flushes = [u] → x.resetAt = none → u.paths = [p] → u.sentAt + rto ≤ s.time →
      (∃ o ∈ upLinks s f.dpkg, o ≠ p) → Completes .flushRetransmit s fun t => (∃ o ∈ upLinks s f.dpkg, o ≠ p ∧
        (t.link o).tx = (s.link o).tx ++ [cellOf { flow := f, typ := .flush, fseq := u.fseq, num := u.num, tenant := u.tenant,
                                                   n := 1, entry := p } 0]) ∧
        (t.flow f).flushes = [{ u with sentAt := s.time }])) ∧
  (
  ∀ (s : State) (m : Msg),
    let d := s.arg.die.toNat
    let p := s.arg.pkg
    let f := s.arg.flow
    let x := s.flow f
    let back := revFlow f
    let bit := fun (t : State) (n : Nat) => (tget t.fabric.fabunr (n / 64) 0).getLsbD (n % 64)
    let quiet := (s.flow back).unacked = [] ∧ (s.flow back).answers = [] ∧ (s.flow back).held = [] ∧ (s.flow back).flushes = [] ∧
      ∀ y ∈ (s.limiter (limKey back.sdie.toNat back.dpkg)).waiting, y.flow ≠ back
    let emptied := fun (t : State) => (t.flow f).expect = 0 ∧ (t.flow f).reorder = [] ∧ (t.flow f).gathered = [] ∧
      (t.flow back).next = 0 ∧ (t.flow back).unacked = []
    let answers := fun (t : State) => ∃ a ∈ (t.limiter (limKey f.ddie.toNat f.spkg)).waiting, a.typ = .flowReset ∧ a.n = 1 ∧ a.flow = back
    (p ≠ s.pkgid → (s.limiter (limKey d p)).unreachable = false → unreachDue s d p → s.graphs = [] →
      (∀ e ∈ s.flows, e.1.spkg = s.pkgid → e.1.sdie.toNat = d → e.1.dpkg ≠ p) → Completes .unreachableDeclare s fun t =>
        (t.limiter (limKey d p)).unreachable = true ∧ ∀ n, n < 512 → bit t n = (bit s n || n == p.toNat)) ∧
    (∀ (f : Flow) (j : Nat), p ≠ s.pkgid → (s.limiter (limKey d p)).unreachable = false → unreachDue s d p → s.graphs = [] →
      (ownFlows s).filter (fun z => z.sdie.toNat == d && z.dpkg == p) = [f] → (s.flow f).held = [] → (s.die d).dispatches = [] →
      let g := s.slot j
      let awake := fun e : Slot => ∀ y ∈ e.outst, ∀ q n c, y.op = .queue q → q.st ≠ .asleep f n c
      let apart := fun e : Slot => ∀ c, e.fence = some c → ∀ w ∈ c.waits, w.1 ≠ f
      let lost := fun (fpc : W64) (lanes handle pqid : W32) =>
        ({ fault := some { cause := 0x0A, code := 0x19, precise := false, lanes := lanes, fpc := fpc,
                           arg0 := handle.setWidth 64, arg1 := pqid.setWidth 64 } } : Result)
      let ends := fun P : State → Prop => Completes .unreachableDeclare s fun t => (t.flow f).unacked = [] ∧ (t.flow f).answers = [] ∧
        (t.flow f).flushes = [] ∧ (t.limiter (limKey d p)).waiting = [] ∧ SameMemory s t ∧ P t
      Quiet g → (∀ e ∈ s.slots, e.1 ≠ j → awake e.2 ∧ apart e.2) →
      (∀ (o : Outst) (q : QOp), o ∈ g.outst → o.op = .queue q → (∀ y ∈ g.outst, y.id = o.id → y = o) →
        let fails := fun t : State => { o with res := some (lost o.fpc q.lanes q.handle q.pqid) } ∈ (t.slot j).outst
        apart g →
        (∀ a ctx op, (s.flow f).answers = [a] → a.who = .group ctx op → findOp s ctx op = some (j, o, q) → awake g → ends fails) ∧
        (∀ n c, (s.flow f).answers = [] → slotDie j = d → j ∈ s.slots.map (·.1) → g.outst = [o] → o.res = none →
          q.st = .asleep f n c → g.sleepStop = false →
          ((s.die d).halted = none → ends fails) ∧
          ((s.die d).halted.isSome → ends fun t => { o with op := .queue { q with woken := some (0x19, 0, 0) } } ∈ (t.slot j).outst))) ∧
      (∀ c n, (s.flow f).answers = [] → slotDie j = d → j ∈ s.slots.map (·.1) → awake g → g.fence = some c → (f, n) ∈ c.waits →
        ends fun t => (t.slot j).fence = none ∧ ∃ id, ⟨id, c.fpc, .wait, some (lost c.fpc c.lanes 0 0)⟩ ∈ (t.slot j).outst)) ∧
    (s.arg.idx < 8 → Completes .fabunrWrite s fun t =>
      (∀ n, n < 512 → bit t n = (bit s n && !(n / 64 == s.arg.idx && s.arg.v.getLsbD (n % 64)))) ∧
      (∀ n e, n < 512 → e < 8 → n / 64 = s.arg.idx → s.arg.v.getLsbD (n % 64) → (s.limiter (limKey e (BitVec.ofNat 9 n))).unreachable →
        (t.limiter (limKey e (BitVec.ofNat 9 n))).unreachable = false ∧ (t.limiter (limKey e (BitVec.ofNat 9 n))).units = 512)) ∧
    (f.dpkg = s.pkgid → f.spkg ≠ s.pkgid →
      (x.arrived.find? (fun y => y.typ == .flowReset && y.n == 0) = some m →
        (x.wasReset = false → quiet → Completes .flowresetRequest s fun t => emptied t ∧ answers t) ∧
        (x.wasReset = true → Completes .flowresetRequest s fun t => (t.flow f).expect = x.expect ∧ (t.flow f).reorder = x.reorder ∧
          t.flow back = s.flow back ∧ answers t)) ∧
      (x.arrived.find? (fun y => y.typ == .flowReset && y.n == 1) = some m → (s.flow back).resetAt.isSome → quiet →
        Completes .flowresetAnswer s fun t => emptied t ∧ (t.flow back).resetAt = none)) ∧
    (∀ n, x.resetAt = some n → f.dpkg ≠ s.pkgid → n + max 1 s.fabric.rto.toNat * 10000 ≤ s.time → Completes .flowresetRetry s fun t =>
      (t.flow f).resetAt = some s.time ∧ ∃ a ∈ (t.limiter (limKey f.sdie.toNat f.dpkg)).waiting, a.typ = .flowReset ∧ a.n = 0 ∧ a.flow = f))

/-! ### Tenant interfaces -/

/-- The states of an interface (R89, R93, R94, R99, R102, R105): LOCK in Deployed alone, with a fresh key and the image digest
begun anew; START; STOP, which begins the wipe and leaves no expert of the tenant; the end of the wipe, which unlocks the
interface and leaves no key; the report; and bindings, which software writes while the interface is unlocked, and which
afterwards take nothing while the interface enters ERROR. On entering ERROR, and at STOP before the wipe unless that has been done,
every block of the tenant is killed, every queue of it is forced, and its copies in host memory have failed. The requests are answered while the responder is up (R21, R108).
Where the spec leaves a point open the statement follows the model's choices of its own: MSI-X vectors start masked (log 54); the parts of the tenant wipe (log 71); when a report is given (log 72). -/
def Obligations.InterfaceStates : Prop :=
  ∀ (s : State),
    let t := s.arg.tenant.toNat
    let i := s.iface t
    let v := s.arg.v
    let others := fun (u : State) => ∀ j, j ≠ t → u.iface j = s.iface j
    let refuses := fun (x : Instr) => exec x s = .next { s with spdm := { s.spdm with reply := some .invalid } }
    -- steps 1 to 3 of R93 have been performed
    let erred := fun (u : State) => (u.iface t).erred = true ∧
      (∀ k, (u.slot k).bind.sstate ≠ .empty → (u.slot k).bind.tenant.toNat = t → u.reserved (u.slot k).bind.asid = false →
        (u.slot k).stopped = true ∧ (u.slot k).outst = [] ∧ (u.block (leadOf k (u.slot k))).dead = true) ∧
      (∀ r : QRef, r.die < 8 → r.port < 16 → r.q < 4096 → (u.qref r).tenant.toNat = t → u.reserved (u.qref r).asid = false →
        (u.qref r).state = .free ∨ (u.qref r).state = .lost) ∧
      ∀ d, ∀ c ∈ (u.die d).copies, u.clientOwns t c.asid → usesHost u c → c.stat ≠ 0
    let killedStop := ∀ k, (s.slot k).bind.sstate ≠ .empty → (s.block (leadOf k (s.slot k))).dead = true →
      (s.slot k).stopped = true ∧ (s.slot k).outst = []
    (i.tdisp = .unlocked → i.wiping = false → s.mgmt.lc = .deployed → s.mgmt.romhold = false → s.lehr = .done →
      Completes .lockInterface s fun u => u.iface t = { i with tdisp := .locked, erred := false, digest := 0 } ∧ others u ∧
        tfind u.mgmt.keys t = some s.ids ∧ u.ids = s.ids + 1 ∧ u.spdm.reply = some (.tdisp t) ∧ SameMemory s u) ∧
    (spdmUp s → i.tdisp ≠ .unlocked ∨ s.mgmt.lc ≠ .deployed → refuses .lockInterface) ∧
    (spdmUp s → i.tdisp = .locked → i.wiping = false → Completes .startInterface s fun u => u.iface t = { i with tdisp := .run } ∧ others u ∧
      u.spdm.reply = some (.tdisp t) ∧ SameMemory s u) ∧
    (spdmUp s → i.tdisp ≠ .locked → refuses .startInterface) ∧
    (spdmUp s → i.wiping = false → Completes .stopInterface s fun u => (u.iface t).wiping = true ∧
      (∀ e ∈ u.erts, e.2.valid → e.2.tenant.toNat ≠ t) ∧ (∀ p ∈ u.pools, p.1 / 16 % 64 ≠ t) ∧
      (i.erred = true → (u.iface t) = { i with wiping := true } ∧ others u ∧ SameMemory s u) ∧
      (i.erred = false → killedStop → erred u ∧ (u.iface t).tdisp = i.tdisp)) ∧
    (i.wiping = true → tenantQuiet s t → Completes .tenantWipe s fun u => (u.iface t).tdisp = .unlocked ∧
      (u.iface t).wiping = false ∧ (u.iface t).erred = false ∧ (u.iface t).ide = none ∧ (u.iface t).far = [] ∧
      tfind u.mgmt.keys t = none ∧ u.spdm.reply = some (.tdisp t)) ∧
    (spdmUp s → i.tdisp = .locked ∨ i.tdisp = .run → exec .getInterfaceReport s =
      .next { s with spdm := { s.spdm with reply := some (.interfaceReport t i.apcfg i.wincfg i.msix i.digest) } }) ∧
    (spdmUp s → i.tdisp = .unlocked ∨ i.tdisp = .error → refuses .getInterfaceReport) ∧
    (i.tdisp = .unlocked →
      (∀ k, k < 16 → s.arg.off = 0x100 + 8 * k → Completes .bindingWrite s fun u => others u ∧
        u.iface t = { i with apcfg := tset i.apcfg k (v &&& 0xBF000000FFFFFFFF) }) ∧
      (∀ k, k < 16 → s.arg.off = 0x200 + 8 * k → Completes .bindingWrite s fun u => others u ∧
        u.iface t = { i with wincfg := tset i.wincfg k (v &&& 0xBFFFFFF000000000) }) ∧
      (∀ k, k < 128 → s.arg.off = 0x8000 + 8 * k → i.pba = 0 → Completes .bindingWrite s fun u => others u ∧
        tget (u.iface t).msix k 0 = if k % 2 = 1 then v &&& 0x1FFFFFFFF else v &&& ~~~3#64)) ∧
    (i.tdisp = .locked ∨ i.tdisp = .run → isBinding s.arg.off → Completes .bindingWrite s fun u => (u.iface t).tdisp = .error ∧
      (u.iface t).apcfg = i.apcfg ∧ (u.iface t).wincfg = i.wincfg ∧ (u.iface t).msix = i.msix ∧
      (∀ j, j ≠ t → (u.iface j).tdisp = (s.iface j).tdisp ∧ (u.iface j).apcfg = (s.iface j).apcfg ∧ (u.iface j).wincfg = (s.iface j).wincfg) ∧
      (i.erred = true → others u ∧ SameMemory s u) ∧ (i.erred = false → killedStop → erred u))

/-- The commands of a running interface (R27, R30, R95, R110, R148, R206, R213, R330): an address space with its firmware queues on
every online die, its end, objects in die memory and in host memory, queues and their entries, and the handles of the
firmware queues. Each ends with its result. An address space of the device tenant (R103) cannot be created and is none that the
other commands name.
Where the spec leaves a point open the statement follows the model's choices of its own: the firmware allocates first fit (log 16); commands end when the interface leaves RUN (log 23); object and queue commands (log 73). -/
def Obligations.InterfaceCommands : Prop :=
  ∀ (s : State),
    let t := s.arg.tenant.toNat
    let i := s.iface t
    let n := i.carg0.toNat
    let a := 64 * t + n % 64
    let obj := addrObj i.carg1
    let ends := fun (x : Instr) (r : IfResult) (P : State → Prop) => Completes x s fun u => (u.iface t).result = r ∧ P u
    let busy := fun (op : W8) => i.result = .busy ∧ i.op = op ∧ i.tdisp = .run ∧ i.erred = false
    let same := fun (u : State) => u.asids = s.asids ∧ u.objs = s.objs ∧ u.qtt = s.qtt ∧ u.queues = s.queues
    let reserved := a ∈ s.mgmt.reservedAsids
    (busy 1 →
      (64 ≤ n → ends .asidnew .badArg same) ∧
      (n < 64 → (s.asid a).inUse = false → reserved → ends .asidnew .noSpace same) ∧
      (n < 64 → (s.asid a).inUse = true → ends .asidnew .wrongState same) ∧
      (n < 64 → (s.asid a).inUse = false → ¬reserved →
        (asidQueues (s.setAsid a { inUse := true }) a ((List.range 8).filter (dieOnline s))).isSome → ends .asidnew .done fun u =>
          (u.asid a).inUse = true ∧ ∀ d, d < 8 → dieOnline s d → (tfind (u.asid a).launchQ d).isSome ∧ (tfind (u.asid a).ctrlQ d).isSome)) ∧
    (busy 2 → n < 64 →
      ((s.asid a).inUse = false ∨ reserved ∨ (∃ g ∈ s.graphs, g.asid.toNat = a) ∨ bindsAsid i (a % 64) → ends .asidfree .wrongState same) ∧
      ((s.asid a).inUse = true → ¬reserved → (∀ g ∈ s.graphs, g.asid.toNat ≠ a) → bindsAsid i (a % 64) = false → ends .asidfree .done fun u =>
        (u.asid a).inUse = false ∧ (∀ o, o < 2 ^ 20 → (u.obj a o).state = .invalid) ∧ ∀ k, k < 65536 → (u.qtte a k).valid = false)) ∧
    (busy 3 →
      let bound := i.carg1.toNat
      let right := fun (b : Nat) => n.testBit b
      (2 ^ 18 ≤ n ∨ n / 64 % 4 = 3 ∨ right 14 ∨ bound = 0 ∨ 2 ^ 44 ≤ bound → ends .objnew .badArg same) ∧
      (n < 2 ^ 18 → right 14 = false → 0 < bound → bound < 2 ^ 44 → (s.asid a).inUse = true → ¬reserved → ∀ j, freeObj s a = some j →
        (n / 64 % 4 = 0 → i.carg2 = 0 → right 15 → dieOnline s (n / 256 % 8) → ends .objnew .done fun u =>
          (u.iface t).arg0 = BitVec.ofNat 64 (j * 2 ^ 44) ∧ ∃ es : List Extent, u.obj a j =
            { state := .valid, kind := .die, x := false, a := right 13, w := right 12, r := right 11, key := t,
              home := n / 256 % 8, bound := bound, extbase := extList a j, exts := es } ∧
            (∀ x ∈ es, x.p = false ∧ x.z = true ∧ x.ngm1 < 2 ^ 28) ∧ ∀ off, off < bound → (extentIn es off).isSome) ∧
        (n / 64 % 4 = 1 → ends .objnew .done fun u => (u.iface t).arg0 = BitVec.ofNat 64 (j * 2 ^ 44) ∧
          u.obj a j = { state := .valid, kind := .host, a := right 13, w := right 12, r := right 11, key := t, bound := bound,
                        extbase := i.carg2 }))) ∧
    (busy 4 → n < 64 → obj ≠ 0 → (s.asid a).inUse = true → ¬reserved →
      ((s.obj a obj).state = .invalid → ends .objfree .badArg same) ∧
      ((s.obj a obj).state ≠ .invalid → (s.obj a obj).state ≠ .moving → objBusy s (BitVec.ofNat 12 a) obj = false →
        accessing s (BitVec.ofNat 12 a) obj = false → ends .objfree .done fun u => u.obj a obj = {})) ∧
    (busy 5 → n < 64 → (s.asid a).inUse = true → ¬reserved → obj ≠ 0 → (s.obj a obj).state = .valid → (s.obj a obj).kind = .die →
      addrOff i.carg1 + 48 ≤ (s.obj a obj).bound → ∀ q rights d ports,
      parseEntry (readObj s (s.obj a obj) (addrOff i.carg1) 48) = some (q, rights, d, ports) → dieOnline s d →
      ∀ r u', makeQueue s d { q with tenant := BitVec.ofNat 6 t, asid := BitVec.ofNat 12 a } ports = .made r u' →
        (∃ k, k < 65536 ∧ (u'.qtte a k).valid = false ∧ (u'.qtte a k).pqid = 0) → ends .qnew .done fun u =>
          r.die = d ∧ r.port ∈ ports ∧ (u.qref r).state = .active ∧ ∃ k, k < 65536 ∧ (u.qtte a k).valid = true ∧
            (u.qtte a k).pqid = pqidOf s r ∧ (u.qtte a k).rights = rights ∧
            (u.iface t).arg0 = ((u.qtte a k).gen ++ BitVec.ofNat 16 k : W32).setWidth 64) ∧
    (busy 6 → n < 64 → i.carg1.toNat < 2 ^ 32 → (s.asid a).inUse = true → ¬reserved →
      let k := i.carg1.toNat % 65536
      let gen : W16 := i.carg1.extractLsb' 16 16
      let e := s.qtte a k
      (e.valid = true → e.gen = gen → Completes .qfree s fun u => u.iface t = i ∧
        u.qtte a k = { e with valid := false, gen := e.gen + 1, left := s.mgmt.online } ∧ u.queues = s.queues) ∧
      (e.valid = false → e.pqid ≠ 0 → e.gen = gen + 1 → (∀ x ∈ s.qtt, x.2.pqid = e.pqid → x.2.left = 0) → pqPkg e.pqid = s.pkgid →
        ends .qfree .done fun u => (u.qtte a k).pqid = 0 ∧
          ((s.qref (qrefOf e.pqid)).state = .active → (u.qref (qrefOf e.pqid)).state = .free))) ∧
    (busy 7 → n < 2 ^ 11 → n / 64 % 4 = 0 → (s.asid a).inUse = true → ¬reserved →
      ∀ p q l c, tfind (s.asid a).launchQ (n / 256) = some p → tfind (s.asid a).ctrlQ (n / 256) = some q →
        handleOf s a p = some l → handleOf s a q = some c → ends .handles .done fun u =>
          (u.iface t).arg0 = l.setWidth 64 ∧ (u.iface t).arg1 = c.setWidth 64 ∧ same u)

/-- Apertures and windows (R89 to R91): a doorbell of a bound aperture pushes the image through its handle, with the status FFH
in flight and then the push's own; a window access that its binding and its object admit reads or writes the object, an
unbound one is counted and answered with Unsupported Request, and one of an interface that does not run reads all ones.
Where the spec leaves a point open the statement follows the model's choices of its own: aperture pushes leave die 0 (log 24); a poisoned word of a read brings no data (log 122). -/
def Obligations.AperturesAndWindows : Prop :=
  ∀ (s : State),
    let t := s.arg.tenant.toNat
    let k := s.arg.idx
    let i := s.iface t
    let a := tget i.apertures k {}
    let c := tget i.apcfg k 0
    let asid := 64 * t + (c.extractLsb' 56 6).toNat
    let runs := i.tdisp = .run ∧ i.erred = false ∧ s.arg.flag = true
    (runs → k < 16 → c.getLsbD 63 = true → a.inFlight = false → asid ∉ s.mgmt.reservedAsids →
      (∀ p, translate s asid (c.setWidth 32) rEnq = .ok p → pqPkg p = s.pkgid → Completes .apertureDoorbell s fun u =>
        u.iface t = { i with apertures := tset i.apertures k { a with inFlight := true, status := 0xFF, result := none } } ∧
        ∃ m ∈ (u.flow (flowTo s 0 p)).arrived, m.typ = .push ∧ m.port = pqPort p ∧ m.queue = pqQueue p ∧ m.ctx = .aperture t k ∧
          m.data = (List.range (s.qref (qrefOf p)).esizeB).map fun j => tget a.image j 0) ∧
      (∀ code, translate s asid (c.setWidth 32) rEnq = .error code → Completes .apertureDoorbell s fun u =>
        tget (u.iface t).apertures k {} = { a with inFlight := true, status := 0xFF, result := some code } ∧ u.flows = s.flows)) ∧
    (∀ code, a.result = some code → Completes .apertureStatus s fun u =>
      u.iface t = { i with apertures := tset i.apertures k { a with inFlight := false, status := code, result := none } } ∧
      ∀ j, j ≠ t → u.iface j = s.iface j) ∧
    (let off := s.arg.off % 2 ^ 32
      let w := tget i.wincfg (s.arg.off / 2 ^ 32) 0
      let asid := 64 * t + (w.extractLsb' 56 6).toNat
      let obj := (w.extractLsb' 36 20).toNat
      let o := s.obj asid obj
      let bytes := (s.arg.words.flatMap fun x => leBytes 8 x.toNat).take k
      (runs → w.getLsbD 63 = true → asid ∉ s.mgmt.reservedAsids → obj ≠ 0 → o.state = .valid → o.kind = .die → off + k ≤ o.bound → off + k ≤ 2 ^ 32 →
        (o.r = true → s.arg.v ≠ 1 → exec .windowAccess s =
          .next { s with out := { s.out with host := s.out.host ++ windowData s o off k } }) ∧
        (o.r = true → s.poison = [] → windowData s o off k = completions (readObj s o off k)) ∧
        (o.w = true → s.arg.v = 1 → 0 < k → bytes.length = k → (∀ j, j < k → (objByteAddr o (off + j)).isSome) →
          (∀ j l, j < k → l < k → objByteAddr o (off + j) = objByteAddr o (off + l) → j = l) → Completes .windowAccess s fun u =>
          readObj u o off k = bytes ∧
          (∀ b, (∀ j, j < k → objByteAddr o (off + j) ≠ some b) → memRead u.mem b = memRead s.mem b))) ∧
      (runs → w.getLsbD 63 = false → Completes .windowAccess s fun u =>
        u.iface t = { i with urcnt := if i.urcnt = 0xFFFFFFFF then i.urcnt else i.urcnt + 1 } ∧ u.mem = s.mem ∧
        u.out.host = s.out.host ++ if s.arg.v = 1 then [] else [none]) ∧
      (i.tdisp ≠ .run → exec .windowAccess s = .next (if s.arg.v = 1 then s else
        { s with out := { s.out with host := s.out.host ++ List.replicate ((k + 7) / 8) (some 0xFFFFFFFFFFFFFFFF) } })))

/-! ### Attestation and the lifecycle -/

/-- The SPDM responder (R96 to R100): each request is answered once the connection has come as far as it needs, with one
certificate slot, eight sessions at most, signatures while the LMS key lasts, and a fresh key for the stream of an interface
that is not unlocked.
Where the spec leaves a point open the statement follows the model's choices of its own: signatures, digests and token layouts are symbolic (log 6); SPDM's rules for GET_VERSION and FINISH (log 75); the bits of the algorithms (log 133). -/
def Obligations.Attestation : Prop :=
  ∀ (s : State),
    let p := s.spdm
    let m := s.mgmt
    let k := s.arg.idx
    let up := s.lehr = .done ∧ m.romhold = false
    let chain := m.identity.isSome ∧ m.lc ≠ .returned
    let answers := fun (i : Instr) (r : SpdmReply) => exec i s = .next { s with spdm := { p with reply := some r } }
    let signs := fun (i : Instr) (r : SpdmReply) => exec i s =
      .next { s with spdm := { p with reply := some r }, mgmt := { m with lmsUsed := m.lmsUsed + 1 } }
    up →
      exec .getVersion s = .next { s with spdm := { negotiated := 1, sessions := [], reply := some .version } } ∧
      (1 ≤ p.negotiated → exec .getCapabilities s =
        .next { s with spdm := { p with negotiated := max 2 p.negotiated, reply := some .capabilities } }) ∧
      (2 ≤ p.negotiated →
        (s.arg.v.getLsbD 1 = true → s.arg.w.getLsbD 7 = true → k.testBit 1 = true → exec .negotiateAlgorithms s =
          .next { s with spdm := { p with negotiated := 3, reply := some .algorithms } }) ∧
        (s.arg.v.getLsbD 1 = false ∨ s.arg.w.getLsbD 7 = false ∨ k.testBit 1 = false → answers .negotiateAlgorithms .invalid)) ∧
      (p.negotiated < 3 → answers .challenge .unexpected ∧ answers .keyExchange .unexpected ∧ answers .getMeasurements .unexpected) ∧
      (3 ≤ p.negotiated →
        (chain → answers .getDigests (.digests 1) ∧ (k = 0 → answers .getCertificate (.certificate 0)) ∧
          (k ≠ 0 → answers .getCertificate .invalid ∧ answers .challenge .invalid) ∧
          (k = 0 → m.lmsUsed < 2 ^ 30 → signs .challenge (.challengeAuth 0 s.arg.v (allMeasurements s)))) ∧
        (m.lc = .returned → answers .getDigests (.digests 0) ∧ answers .getCertificate .invalid) ∧
        (∀ d, k ≠ 0xFF → measurement s k = some d →
          (s.arg.flag = false → answers .getMeasurements (.measurements k d false)) ∧
          (s.arg.flag = true → m.identity.isSome → m.lmsUsed < 2 ^ 30 → signs .getMeasurements (.measurements k d true)) ∧
          (s.arg.flag = true → m.identity.isSome → 2 ^ 30 ≤ m.lmsUsed → answers .getMeasurements .busy)) ∧
        (p.sessions.length < 8 → chain → k = 0 → m.lmsUsed < 2 ^ 30 → Completes .keyExchange s fun t =>
          t.spdm.sessions = p.sessions ++ [{ id := s.ids }] ∧ t.spdm.reply = some (.keyExchange s.ids) ∧ t.ids = s.ids + 1 ∧
          t.mgmt.lmsUsed = m.lmsUsed + 1) ∧
        (8 ≤ p.sessions.length → answers .keyExchange .sessionLimit)) ∧
      (∀ x ∈ p.sessions, x.id = k → (∀ y ∈ p.sessions, y.id = k → y = x) →
        let others := fun (t : State) => t.spdm.sessions.filter (fun y => y.id != k) = p.sessions.filter fun y => y.id != k
        (x.open_ = false →
          (s.arg.flag = true → Completes .finish s fun t => others t ∧ { x with open_ := true } ∈ t.spdm.sessions ∧
            t.spdm.reply = some (.finish k)) ∧
          (answers .keyUpdate .unexpected ∧ answers .keyProg .unexpected)) ∧
        (x.open_ = true →
          (Completes .keyUpdate s fun t => others t ∧ { x with gen := x.gen + 1 } ∈ t.spdm.sessions ∧ t.spdm.reply = some (.keyUpdate k)) ∧
          (Completes .endSession s fun t => t.spdm.sessions = p.sessions.filter (fun y => y.id != k) ∧
            t.spdm.reply = some (.endSession k)) ∧
          ((s.iface s.arg.tenant.toNat).tdisp = .unlocked → answers .keyProg .invalid) ∧
          ((s.iface s.arg.tenant.toNat).tdisp ≠ .unlocked → Completes .keyProg s fun t => t.spdm.sessions = p.sessions ∧ t.spdm.reply = some (.keyProg s.arg.tenant.toNat) ∧
            (∀ j, j ≠ s.arg.tenant.toNat → t.iface j = s.iface j) ∧
            ∃ b, (t.iface s.arg.tenant.toNat).ide = some (s.ids, b) ∧
              ∀ q c, (s.iface s.arg.tenant.toNat).ide = some (q, c) → b = !c)))

/-- The commands of MBCMD that move the module between lifecycle states, stage an image, or reset (R105 to R108): with their
conditions met they change the fuses and reset the module, and otherwise change nothing but MBSTAT; each read of MBNONCE
returns a fresh nonce, for which alone a token holds.
Where the spec leaves a point open the statement follows the model's choices of its own: signatures, digests and token layouts are symbolic (log 6); the order of a token's checks (log 66); when management is served (log 74); PROVISION restores the image (log 76); a token for another command (log 112); a buffer is 2 KiB signed and its signatures (log 113). -/
def Obligations.LifecycleCommands : Prop :=
  ∀ (s : State),
    let m := s.mgmt
    let b := hostBuffer s m.mbarg
    let k := hostBuffer s m.mbtoken
    let busy := fun (c : W4) => m.mbstat = .busy ∧ m.mbcmd = c
    let ends := fun (i : Instr) (r : MbStat) => exec i s = .next { s with mgmt := { m with mbstat := r } }
    let live := (s.ifaces.filter fun e => e.2.tdisp != .unlocked).length
    let key := if m.lc = .blank then some 0 else m.owner.map fun d => d.toNat + 1
    let signed := fun (w : List W8) (n : Nat) => Config.pairVerifies n (w.take 2048) (w.drop 2048) = true
    let token := fun (c : Nat) => (∃ n, key = some n ∧ signed k n) ∧ m.mbnonce = some (Config.tokenNonce k) ∧
      Config.tokenCommand k = c ∧ Config.tokenIdentity k = m.identity
    let resets := fun (i : Instr) (P : Mgmt → Prop) => Completes i s fun t => P t.mgmt ∧ t.lehr = .stageA ∧ t.mem = [] ∧ t.scr = [] ∧
      t.slots = [] ∧ t.ifaces = [] ∧ t.objs = [] ∧ t.queues = [] ∧ t.mgmt.keys = [] ∧ t.hostMem = s.hostMem
    let moves := fun (i : Instr) (c : Nat) (lc : LcState) => token c → resets i fun n => n.lc = lc ∧ n.identity = m.identity ∧ n.owner = m.owner
    (busy 1 →
      (m.lc ≠ .blank → m.romhold = false → ends .provision .notMet) ∧
      (m.lc = .blank → (¬ signed b 0 → ends .provision .badSignature) ∧
        (signed b 0 → m.romhold = false → resets .provision fun n => n.lc = .provisioned ∧ n.identity = some s.ids ∧
          n.owner = some (Config.sha384 (b.take 2048)) ∧ n.lmsUsed = 0)) ∧
      (m.romhold = true → signed b 0 → m.svn ≤ Config.imageVersion b → resets .provision fun n => n.identity = some s.ids ∧
        n.owner = some (Config.sha384 (b.take 2048)) ∧ n.flash = ⟨Config.sha384 b, Config.imageVersion b, true⟩ ∧ n.romhold = false ∧
        n.lc = if m.lc = .blank then .provisioned else m.lc)) ∧
    (busy 2 → m.romhold = false →
      (m.lc = .provisioned → moves .deploy 2 .deployed ∧
        (∀ n, key = some n → ¬ signed k n → ends .deploy .badSignature) ∧
        (∀ n, key = some n → signed k n → m.mbnonce ≠ some (Config.tokenNonce k) → ends .deploy .badNonce)) ∧
      (m.lc ≠ .provisioned → ends .deploy .notMet)) ∧
    (busy 3 → m.romhold = false →
      (m.lc = .deployed → live = 0 → moves .undeploy 3 .provisioned) ∧ (m.lc ≠ .deployed ∨ live ≠ 0 → ends .undeploy .notMet)) ∧
    (busy 4 → m.romhold = false →
      (m.lc ≠ .returned → live = 0 → token 4 → resets .returnModule fun n => n.lc = .returned ∧ n.identity = none ∧ n.owner = none) ∧
      (m.lc = .returned ∨ live ≠ 0 → ends .returnModule .notMet)) ∧
    (busy 5 → m.romhold = false →
      (¬ signed b 0 → ends .fwstage .badSignature) ∧
      (signed b 0 → Config.imageVersion b < m.svn → ends .fwstage .versionLow) ∧
      (signed b 0 → m.svn ≤ Config.imageVersion b → exec .fwstage s =
        .next { s with mgmt := { m with mbstat := .done, flash := ⟨Config.sha384 b, Config.imageVersion b, true⟩ } })) ∧
    (busy 6 → resets .mbReset fun n => n.lc = m.lc ∧ n.identity = m.identity ∧ n.owner = m.owner ∧ n.flash = m.flash) ∧
    (s.lehr = .done ∨ m.romhold = true → Completes .mbnonceRead s fun t => ∃ v, t.mgmt.mbnonce = some v ∧ t.out.host = s.out.host ++ [some v] ∧
      { t with mgmt := s.mgmt, out := s.out, free := s.free } = s ∧ { t.mgmt with mbnonce := m.mbnonce } = m)

/-! ### Registers, sampling and images -/

/-- Register writes (R5, R34, R54, R58, R83, R88, R94, R95, R104, R106, R130, R131, R152, R229, R288, R294): a register with an event
of its own takes that event; read-only fields keep; a one in any bit of a counter clears the whole counter; a command starts; a
descriptor is written only while its queue is Free; a tenant's register takes nothing unless its interface runs, and neither it nor a
register of PF0 below the command registers while the boot ROM holds the module; a quota that
breaks R131 is refused; and a debugger halts a die on which nobody else has a block.
Where the spec leaves a point open the statement follows the model's choices of its own: IFARG while a command runs (log 78); DISABLE and DBGCTL (log 79); the counters of FLNK and URCNT clear whole (log 85); the provisioning channel (log 118). -/
def Obligations.RegisterWrites : Prop :=
  ∀ (s : State),
    let d := s.arg.die.toNat
    let t := s.arg.tenant.toNat
    let i := s.iface t
    let v := s.arg.v
    let off := s.arg.off
    let writes := fun (sp : RegSpace) (P : State → Prop) => s.arg.space = sp → Completes .registerWrite s P
    let face := fun (j : Iface) (u : State) => u.iface t = j ∧ { u with ifaces := s.ifaces } = s ∧ ∀ k, k ≠ t → u.iface k = s.iface k
    let runs := i.tdisp = .run ∧ i.erred = false ∧ s.arg.flag = true
    let cleared := fun {n : Nat} (c v : BitVec n) => if v = 0 then c else 0
    let is := fun (sp : RegSpace) (x : Instr) => s.arg.space = sp → exec .registerWrite s = exec x s
    let up := s.mgmt.romhold = false
    (up → s.lehr = .done → (off = 0x18 → is .pf0 .thermrecWrite) ∧ (off = 0x200 → is .pf0 .fabcfgWrite)) ∧
    (up → (isBinding off → is .bar0 .bindingWrite) ∧ (off = 0x2000 → is .bar0 .smpcfgWrite) ∧ (off = 0x2100 → is .bar0 .fdrbaseWrite) ∧
      (off = 0x2200 → is .bar0 .dbgctlHaltWrite) ∧ (off = 0x2300 → is .bar0 .imgloadWrite)) ∧
    (s.mgmt.romhold = true → (off < 0x800 → writes .pf0 fun u => u = s) ∧ ∀ sp ∈ [RegSpace.bar0, .bar2, .bar4], writes sp fun u => u = s) ∧
    (0x1C ≤ off → off ≤ 0x24 → is .dvsec .tierQuotaWrite) ∧
    (s.lehr = .done →
      (up → off = 8 → writes .pf0 fun u => u.mgmt.lc = s.mgmt.lc ∧ u.mgmt.svn = s.mgmt.svn ∧
        u.mgmt.devten = if s.fabric.enable then s.mgmt.devten else v.extractLsb' 16 6) ∧
      (off = 0x800 → s.mgmt.mbstat ≠ .busy → writes .pf0 fun u => u.mgmt.mbcmd = v.setWidth 4 ∧
        u.mgmt.mbstat = if 1 ≤ v.toNat % 16 ∧ v.toNat % 16 ≤ 7 then .busy else .reserved) ∧
      (off = 0x800 → s.mgmt.mbstat = .busy → writes .pf0 fun u => u = s) ∧
      (∀ l, up → l < 64 → off = 0x400 + 16 * l → v.getLsbD 1 = (s.link l).disable → writes .pf0 fun u => u.link l = { s.link l with
        autherr := cleared (s.link l).autherr (v.extractLsb' 48 16), downs := cleared (s.link l).downs (v.extractLsb' 32 16),
        malf := cleared (s.link l).malf (v.extractLsb' 16 16) })) ∧
    (up → off = 0x300 → writes .bar0 (face { i with urcnt := cleared i.urcnt (v.setWidth 32) })) ∧
    (up → runs → off = 0x400 → i.result ≠ .busy → v.extractLsb' 56 8 ≠ 0 → writes .bar0 (face { i with
      op := v.extractLsb' 56 8, carg0 := i.arg0, carg1 := i.arg1, carg2 := i.arg2,
      result := if (v.extractLsb' 56 8).toNat ≤ 7 then .busy else .reserved })) ∧
    (up → runs → off = 0x408 → writes .bar0 (face { i with arg0 := v })) ∧
    (i.tdisp ≠ .run → off ≠ 0x300 → isBinding off = false → writes .bar0 fun u => u = s) ∧
    (s.mgmt.online.getLsbD d = true →
      (∀ p q w, p < 16 → q < 4096 → off = 0x400000 + 0x40000 * p + 0x40 * q + 8 * w → w < 8 → writes .punty fun u =>
        ((s.qref ⟨d, p, q⟩).state ≠ .free → u.qref ⟨d, p, q⟩ = s.qref ⟨d, p, q⟩) ∧
        ((s.qref ⟨d, p, q⟩).state = .free → w = 6 → u.qref ⟨d, p, q⟩ = { s.qref ⟨d, p, q⟩ with coinKey := v })) ∧
      (∀ p, p < 16 → off = 0x2000 + 0x40 * p → (s.port (portKey d p)).result ≠ .busy → v.extractLsb' 56 4 ≠ 0 →
        (v.extractLsb' 56 4).toNat ≤ 4 → writes .punty fun u => (u.port (portKey d p)) =
          { s.port (portKey d p) with op := v.extractLsb' 56 4, queue := v.setWidth 16, result := .busy }) ∧
      (∀ p, p < 16 → off = 0x2008 + 0x40 * p → writes .punty fun u =>
        let x := s.port (portKey d p)
        u.port (portKey d p) = { x with slpovf := cleared x.slpovf (v.extractLsb' 48 16), stale := cleared x.stale (v.extractLsb' 32 16),
                                        voids := cleared x.voids (v.extractLsb' 16 16), late := cleared x.late (v.setWidth 16) }) ∧
      (off = 0x5000 → writes .punty fun u =>
        let x := s.die d
        u.die d = { x with prilate := cleared x.prilate (v.extractLsb' 48 16), cecc := cleared x.cecc (v.extractLsb' 32 16),
                           uecc := cleared x.uecc (v.extractLsb' 16 16), relaunch := cleared x.relaunch (v.setWidth 16) }) ∧
      (off = 0x3000 → writes .punty fun u => u.die d = { s.die d with drbase := v &&& ~~~0xFF#64 })) ∧
    (s.lehr = .done → off = 0x18 → writes .dvsec fun u => u = { s with dvsec := { s.dvsec with tsel := v.setWidth 6 } }) ∧
    (let k := s.dvsec.tsel.toNat
      let j := s.iface k
      let sets := fun (x : Iface) =>
        (j.tdisp = .unlocked → quotasOk (s.setIface k x) → exec .tierQuotaWrite s = .next (s.setIface k x)) ∧
        (j.tdisp ≠ .unlocked ∨ quotasOk (s.setIface k x) = false →
          exec .tierQuotaWrite s = .next { s with dvsec := { s.dvsec with refused := true } })
      s.lehr = .done →
        (off = 0x1C → sets { j with qc := v.setWidth 32 }) ∧ (off = 0x20 → sets { j with qn := v.setWidth 32 }) ∧
        (off = 0x24 → sets { j with ebase := v.extractLsb' 16 16, ecnt := v.setWidth 16 })) ∧
    (runs → i.fdrBase = 0 ∨ v &&& ~~~0xFFF#64 = 0 → Completes .fdrbaseWrite s fun u =>
      (u.iface t).fdrBase = v &&& ~~~0xFFF#64 ∧ (u.iface t).fdrLog2n.toNat = max 4 (v.toNat % 16) ∧
      (i.fdrBase = 0 → v &&& ~~~0xFFF#64 ≠ 0 → (u.iface t).fdrWr = 0 ∧ (u.iface t).fdrRd = 0) ∧ ∀ k, k ≠ t → u.iface k = s.iface k) ∧
    (∀ e, e < 8 → runs → v.setWidth 16 = (1#16 <<< e) → (∀ c, c < 8 → (s.die c).halted = none) →
      let ours := fun (b : Bind) => b.tenant = s.arg.tenant ∧ s.reserved b.asid = false
      ((∀ x ∈ s.slots, slotDie x.1 = e → x.2.bind.sstate ≠ .empty → ours x.2.bind) → Completes .dbgctlHaltWrite s fun u =>
        (u.die e).halted = some s.arg.tenant ∧ (u.iface t).halted.getLsbD e = true ∧ (u.iface t).refused = i.refused ∧
        ∀ c, c ≠ e → u.die c = s.die c) ∧
      ((∃ x ∈ s.slots, slotDie x.1 = e ∧ x.2.bind.sstate ≠ .empty ∧ ¬ ours x.2.bind) → Completes .dbgctlHaltWrite s fun u =>
        (u.die e).halted = none ∧ (u.iface t).refused.getLsbD e = true))

/-- Sampling and image loads (R195 to R199, R333, R334): PERIOD and the buffer's size take effect while the unit is off; when ENABLE is
set, each core that holds a block of the tenant with its node is armed and counts down from PERIOD, and when it is cleared none is; a core
whose countdown has expired samples the next eligible slot after the last one, once for the expiry and under its clock, into the
ring of its die; and a load
runs its steps, ending with the code of the first that fails, or with the graph's address and a longer digest.
Where the spec leaves a point open the statement follows the model's choices of its own: codes of malformed images (log 80); where a load places code (log 81); the moment of a sample (log 82). -/
def Obligations.SamplesAndImages : Prop :=
  ∀ (s : State),
    let t := s.arg.tenant.toNat
    let i := s.iface t
    let v := s.arg.v
    let runs := i.tdisp = .run ∧ i.erred = false
    let nat := v.toNat
    (runs → s.arg.flag = true → Completes .smpcfgWrite s fun u =>
      (u.iface t).smpEnable = v.getLsbD 0 ∧
      (i.smpEnable = true → (u.iface t).smpPeriod = i.smpPeriod ∧ (u.iface t).smpLog2n = i.smpLog2n) ∧
      (i.smpEnable = false → (u.iface t).smpPeriod.toNat = max 16 (nat / 2 ^ 16 % 2 ^ 16) ∧
        (u.iface t).smpLog2n.toNat = max 4 (nat / 2 ^ 12 % 16)) ∧
      (∀ k, k ≠ t → (u.iface k).smpEnable = (s.iface k).smpEnable ∧ (u.iface k).smpPeriod = (s.iface k).smpPeriod ∧
        (u.iface k).smpLog2n = (s.iface k).smpLog2n) ∧ (∀ k, (u.slot k).bind = (s.slot k).bind ∧ (u.slot k).pc = (s.slot k).pc) ∧
      (i.smpEnable = v.getLsbD 0 → u.cores = s.cores ∧ SameMemory s u) ∧
      (i.smpEnable = false → v.getLsbD 0 = true → ∀ ck,
        (∀ x, (t, x) ∈ (u.core ck).samp → tfind (s.core ck).samp t = none → x = { countdown := (u.iface t).smpPeriod.toNat }) ∧
        ((∃ x, (t, x) ∈ (u.core ck).samp) ↔ ∃ j, j < 16 ∧
          let b := (s.slot (ck * 16 + j)).bind
          b.sstate ≠ .empty ∧ b.sstate ≠ .ready ∧ b.tenant.toNat = t ∧ b.node = i.smpNode ∧ s.reserved b.asid = false)) ∧
      (i.smpEnable = true → v.getLsbD 0 = false → ∀ ck, ∀ e ∈ (u.core ck).samp, e.1 ≠ t)) ∧
    (let ck := coreKey s.arg.die.toNat s.arg.core.toNat
      let c := s.core ck
      ∀ w x k asid at_, (s.die s.arg.die.toNat).halted = none → cycleDone s ck → c.samp = [(w, x)] → x.due = [at_] →
        nextSample s w ck x.lastSlot = some k →
        let b := tget (s.iface w).smpDies (ck / 160) {}
        let a := ringAddr (s.iface w) (ck / 160)
        let o := s.obj asid.toNat (addrObj a)
        let n := 2 ^ (s.iface w).smpLog2n.toNat
        b.asid = some asid → b.stopped = false → structOk s (ck / 160) asid.toNat a (64 + 16 * n) .w → (b.wr - b.rd).toNat ≠ n →
        (∀ j, j < 64 + 16 * n → (objByteAddr o (addrOff a + j)).isSome) →
        (∀ j l, j < 64 + 16 * n → l < 64 + 16 * n → objByteAddr o (addrOff a + j) = objByteAddr o (addrOff a + l) → j = l) →
        Completes .sampleExpiry s fun u =>
          readObj u o (addrOff a + 64 + 16 * (b.wr.toNat % n)) 16 = sampleRecord s k at_ ∧
          readObj u o (addrOff a) 4 = leBytes 4 (b.wr + 1).toNat ∧
          (tget (u.iface w).smpDies (ck / 160) {}).wr = b.wr + 1 ∧
          (u.core ck).samp = [(w, { x with due := [], lastSlot := some (BitVec.ofNat 4 (k % 16)) })] ∧ u.slots = s.slots) ∧
    (runs → s.arg.flag = true → i.imgstat ≠ 1 → Completes .imgloadWrite s fun u =>
      u.iface t = { i with imgload := v &&& 0xF0000000FFFFF000, imgstat := 1 } ∧ ∀ k, k ≠ t → u.iface k = s.iface k) ∧
    (i.imgstat = 1 →
      let ends := fun (c : W8) => exec .imageLoad s = .next (s.setIface t { i with imgstat := c })
      (i.tdisp ≠ .run → ends 6) ∧
      (runs → imagePlace s t = none → ends 6) ∧
      (runs → ∀ asid obj off, imagePlace s t = some (asid, obj, off) →
        let o := s.obj asid.toNat obj
        let len := leNat (readObj s o (off + 8) 8)
        let img := readObj s o off len
        (len < 64 ∨ o.bound < off + 64 ∨ o.bound < off + len → ends 3) ∧
        (64 ≤ len → off + 64 ≤ o.bound → off + len ≤ o.bound →
          (signatureOk img = false → ends 2) ∧
          (signatureOk img → formatOk img = false → ends 3) ∧
          (signatureOk img → formatOk img → makeAll s t asid.toNat img = none → ends 4) ∧
          (signatureOk img → formatOk img → ∀ m s', makeAll s t asid.toNat img = some (m, s') → nextern img = 0 →
            ∀ w, applyPatches img m [] ⟨sectionBytes img 4, sectionBytes img 5, sectionBytes img 6⟩ (patchesOf img) = some w →
              (placeAll s' asid img m w = none → ends 4) ∧
              ((placeAll s' asid img m w).isSome → Completes .imageLoad s fun u => (u.iface t).imgstat = 0 ∧ (u.iface t).imggraph = BitVec.ofNat 64 m.graph ∧
                (BitVec.ofNat 64 m.graph, Config.sha384 img) ∈ (u.asid asid.toNat).graphs)))))

/-! ### Launches, blocks and gangs -/

/-- The firmware's launches (R109 to R111, R114, R116, R117, R123, R124, R160 to R163, R287): a start element of a graph that already
runs, or that is malformed, changes no graph and answers with status 9 or 8; a graph of one launch captures it and queues it on
each die of its mask; a claim of the queue that the rotation selects takes the next block number, and a block is bound on a core
that has room; a watchdog ends a launch with status 3; an event of the ring charges the block it ends, or writes the record of
the group that faulted and kills it; and a launch that no core can take makes a block of lower priority drain.
Where the spec leaves a point open the statement follows the model's choices of its own: claims ahead of binds (log 57); charges at a completion (log 58); a core with an unread end event (log 59). -/
def Obligations.Launches : Prop :=
  ∀ (s : State),
    let d := s.arg.die.toNat
    let x := s.die d
    let a := s.arg.asid
    let r := s.arg.node
    let calm := ∀ g ∈ s.graphs, ∀ n ∈ g.nodes, n.stop = false
    let passed := fun (t : State) => (t.die d).drseen = BitVec.ofNat 16 ((x.drseen.toNat + 1) % (max x.drsize.toNat 1))
    let ring := physKey d (x.drbase.toNat + 16 * x.drseen.toNat)
    (∀ p e, tfind (s.asid a.toNat).launchQ d = some p → dieOnline s d → s.lehr = .done → s.mgmt.lc ≠ .returned →
      let q := s.qref (qrefOf p)
      (q.tail - q.head).toNat ≠ 0 → q.slot q.head = .filled e →
      let w0 := leNat (e.take 8)
      let w1 := leNat ((e.drop 8).take 8)
      let hdr : W64 := BitVec.ofNat 64 (w0 / 128 * 128)
      let gc : W64 := BitVec.ofNat 64 (w1 / 8 * 8)
      let o := s.obj a.toNat (addrObj gc)
      let taken := fun (t : State) => (t.qref (qrefOf p)).head = q.head + 1
      let answers := fun (st : Nat) => Completes .startElementConsume s fun t => taken t ∧ t.graphs = s.graphs ∧
        (gc ≠ 0 → structOk s d a.toNat gc 8 .w → (∀ j, j < 8 → (objByteAddr o (addrOff gc + j)).isSome) →
          readObj t o (addrOff gc) 8 = leBytes 8 (st * 2 ^ 56 + 2 ^ 55))
      ((∃ g ∈ s.graphs, g.asid = a ∧ g.hdr = hdr) → answers 9) ∧
      ((∀ g ∈ s.graphs, g.asid = a → g.hdr ≠ hdr) → w0 % 128 ≠ 0 → structWords s d a.toNat hdr 4 = none → answers 8) ∧
      ((∀ g ∈ s.graphs, g.asid = a → g.hdr ≠ hdr) → w0 % 128 = 0 → w1 = 0 → ∀ g n, validate s d a hdr 0 = some g → g.nodes = [n] →
        n.kind = .launch → n.isGang = false → (n.ovr.getLsbD 6 = true → n.budget ≠ 0) → n.parlen = 0 → n.cntind = false → n.countW.toNat % 2 ^ 32 ≠ 0 →
        n.diemask &&& s.mgmt.online ≠ 0 → Completes .startElementConsume s fun t => taken t ∧
          (∃ g' n', t.launchNode ⟨a, hdr, 0⟩ = some (g', n') ∧ n'.state = .ready ∧ n'.count = n.countW.toNat % 2 ^ 32 ∧
            n'.kernel = n.kernel ∧ n'.prio = n.prio ∧ n'.next = 0) ∧
          ∀ c, c < 8 → n.diemask.getLsbD c → ∃ y ∈ (t.die c).rqs, y.asid = a ∧ y.graph = hdr ∧ y.node = 0 ∧ y.prio = n.prio)) ∧
    (∀ q, x.halted = none → dieOnline s d → drrSelects s d = some q → queueNode q = r → ∀ g n, s.launchNode r = some (g, n) →
      mayClaim s q → n.again = [] → claimAllowed s g d q.node → Completes .blockClaim s fun t =>
        (∃ g', t.launchNode r = some (g', { n with next := n.next + 1 })) ∧ { q with granted := some n.next } ∈ (t.die d).rqs ∧
        SameMemory s t ∧ t.slots = s.slots) ∧
    (let ck := coreKey d s.arg.core.toNat
      ∀ q g n room p rest, s.arg.core.toNat < 160 → x.halted = none → dieOnline s d → x.rqs = [q] → 0 < q.deficit → q.granted = none →
        q.refused = false → (∀ e, (s.die e).bound = [] ∧ (s.die e).saved = []) → s.launchNode (queueNode q) = some (g, n) →
        n.again = [] → n.persist = false → claimAllowed s g d q.node → maxcoreOk s g q.node ck → fitsCore n →
        (∀ k ∈ coreSlots ck, (s.slot k).bind.sstate = .empty) → roomOn s ck (needOf n) g.asid n.addr = some room →
        takePages 1 ((saveSize (bindOf g n n.next) + 4095) / 4096) x.free = some (p, rest) →
        Completes .drrBind s fun t => (∃ g', t.launchNode (queueNode q) = some (g', { n with next := n.next + 1, live := n.live + 1 })) ∧
          (∃ b, (t.die d).bound = [b] ∧ b.block = n.next ∧ b.core = s.arg.core.toNat ∧ b.asid = g.asid ∧ b.graph = g.hdr) ∧
          ∀ i, i ≤ n.grpm1.toNat → ∃ k ∈ coreSlots ck, (t.slot k).bind.sstate = .running ∧ (t.slot k).bind.gidx.toNat = i ∧
            (t.slot k).bind.block = BitVec.ofNat 32 n.next ∧ (t.slot k).pc = n.kernel ∧ (t.slot k).em = 0xFFFFFFFF) ∧
    (∀ q g b, x.rqs.find? (fun y => queueNode y == r) = some q → findGraph s r.asid r.graph = some g →
      (∀ o ∈ offers s d q, ∀ c ∈ dieCores d, takesOffer s q c o = false) → draining s d q < waitingBlocks s d g q →
      x.bound.filter (victimOk s d q.prio) = [b] → b.core < 160 → b.lead < 16 → x.halted = none →
      (s.block (slotKey d b.core b.lead)).killed = 0 → Completes .preemptDecision s fun t =>
        ∀ k ∈ blockSlots s (slotKey d b.core b.lead), (t.slot k).bind.sstate = .draining) ∧
    (∀ g n, s.launchNode r = some (g, n) → g.nodes = [n] → n.kind = .launch → n.state = .ready → n.wdog ≠ 0 → n.stop = false →
      n.readyAt + n.wdog.toNat * 1000000 ≤ s.time → n.live = 0 → n.gang = none → n.parent = none → s.graphs = [g] → g.gcompl = 0 → g.guest = none → s.reserved g.asid = false →
      (∀ e, (s.die e).bound = [] ∧ (s.die e).saved = []) → Completes .watchdogExpiry s fun t => t.graphs = [] ∧
        (∀ e, e < 8 → ∀ y ∈ (t.die e).rqs, queueNode y ≠ r) ∧
        let i := s.iface (tenantOf g.asid)
        (i.fdrBase ≠ 0 → (i.fdrWr - i.fdrRd).toNat ≠ 2 ^ i.fdrLog2n.toNat → (t.iface (tenantOf g.asid)).fdrWr = i.fdrWr + 1) ∧
        let o := s.obj g.asid.toNat (addrObj n.compl)
        (n.compl ≠ 0 → structOk s g.die g.asid.toNat n.compl 8 .w → n.compl.toNat % 8 = 0 →
          (∀ j, j < 8 → (objByteAddr o (addrOff n.compl + j)).isSome) →
          readObj t o (addrOff n.compl) 8 = leBytes 8 (3 * 2 ^ 56 + 2 ^ 55 + min n.blocks (2 ^ 32 - 1)))) ∧
    (∀ b c, x.drseen ≠ x.drtail →
      (bitsOf (memNat s.mem ring 8) 63 60 = 1 ∨ bitsOf (memNat s.mem ring 8) 63 60 = 3) →
      x.bound.find? (fun y => y.core == bitsOf (memNat s.mem ring 8) 55 48 && y.lead == bitsOf (memNat s.mem ring 8) 59 56 &&
        y.ended.isSome) = some b → b.ended = some c → b.charged = false →
      ∀ g n, s.graphs = [g] → g.nodes = [n] → s.launchNode ⟨b.asid, b.graph, b.node⟩ = some (g, n) → n.parent = none → n.kind = .launch →
        n.state = .ready → n.stop = false → n.live ≠ 0 → Completes .retiredEvent s fun t => passed t ∧
          (t.die d).bound = x.bound.filter (fun y => y.order != b.order) ∧
          ∃ g' n', t.launchNode ⟨b.asid, b.graph, b.node⟩ = some (g', n') ∧ n'.used = n.used + c ∧ n'.state = .ready) ∧
    (∀ f rest b n k j, x.drseen ≠ x.drtail → bitsOf (memNat s.mem ring 8) 63 60 = 4 → calm →
      x.notes = f :: rest → f.void = false → f.own = some b → f.node = some n → contextSlot s d f.ctx = some k →
      (∀ g m, s.launchNode (boundNode b) = some (g, m) → m.fpol = 0) → liveGroup (s.slot k) →
      let lead := leadOf k (s.slot k)
      let i := s.iface (tenantOf b.asid)
      (s.block lead).dead = false → j ∈ blockSlots s lead → j ≠ k → liveGroup (s.slot j) → (s.slot j).dfault = none →
      Completes .faultEvent s fun t => passed t ∧ (t.slot k).bind.sstate = .done ∧ (t.slot k).outst = [] ∧
        (t.block lead).killed.getLsbD (s.slot k).bind.gidx.toNat = true ∧ (t.slot j).bind = (s.slot j).bind ∧
        (s.reserved b.asid = false → i.fdrBase ≠ 0 → (i.fdrWr - i.fdrRd).toNat ≠ 2 ^ i.fdrLog2n.toNat →
          (t.iface (tenantOf b.asid)).fdrWr = i.fdrWr + 1))

/-- Blocks on their slots (R154 to R160, R164, R165, R167, R168): a record of a whole block that the hardware accepts starts its
group at its kernel with its parameters, or at the place its save area holds, and a bad one is refused with BADBIND; kills
empty the slots of a block or end one group; a faulted group resumes at RPC; a pre-empted block drains, saves what it holds
and leaves its slots Empty, and a finished one retires.
Where the spec leaves a point open the statement follows the model's choices of its own: the saved pc with several sleeping operations (log 35); ranges past a file (log 49); the lead slot holds group 0 (log 50); stop kinds 5 and 6 (log 51); a killed block stays dead while the ring is full (log 56); RESUMEGRP waits on a halted die (log 93). -/
def Obligations.Blocks : Prop :=
  ∀ (s : State),
    let k := argSlot s
    let d := slotDie k
    let g := s.slot k
    let b := parseBind s.arg.words
    let ks := blockSlots s k
    let x := s.die d
    let ring := physKey d (x.drbase.toNat + 16 * x.drtail.toNat)
    let posted := fun (t : State) => (t.die d).drtail.toNat = (x.drtail.toNat + 1) % 65536 % x.drsize.toNat
    let emptied := fun (t : State) => ∀ j ∈ ks, (t.slot j).bind.sstate = .empty
    let calm := (∀ h ∈ s.graphs, ∀ n ∈ h.nodes, n.stop = false) ∧ x.bound = [] ∧ ∀ j, (s.iface j).smpEnable = false
    (g.bind.sstate ≠ .empty ∨ inTable s k = false → exec .bindRecordWrite s = .next s) ∧
    (g.bind.sstate = .empty → inTable s k → x.halted = none → b.sstate = .ready →
      let u := s.setSlot k { bind := b }
      let bad := blockBad u (k / 16) [k] b
      (readySlots u (k / 16) b.lead = [k] → b.gcntm1.toNat ≠ 0 → exec .bindRecordWrite s = .next u) ∧
      (readySlots u (k / 16) b.lead = [k] → b.gcntm1 = 0 →
        (bad → ringRoom x → Completes .bindRecordWrite s fun t => (t.slot k).bind.sstate = .empty ∧ posted t ∧
          bitsOf (memNat t.mem ring 8) 63 60 = 5) ∧
        ((∀ j, (s.iface j).smpEnable = false) → bad = false → saveOutside b = false → b.resume = false → Completes .bindRecordWrite s fun t =>
          (t.slot k).bind = { b with sstate := .running, cyc := 0 } ∧ (t.slot k).pc = b.kernel ∧ (t.slot k).em = 0xFFFFFFFF ∧
          (∀ i, i < min b.parlen.toNat b.sregs.toNat → tget (t.slot k).s i 0 = memW64 s.mem (saveBase d b + 0x200 + 8 * i)) ∧
          (∀ i, min b.parlen.toNat b.sregs.toNat ≤ i → tget (t.slot k).s i 0 = 0) ∧ (t.slot k).v = [] ∧
          t.block (k / 16 * 16 + b.lead.toNat) = {} ∧ ∀ j, j ≠ k → t.slot j = s.slot j) ∧
        (
          let a := groupBase d b 0
          (∀ j, (s.iface j).smpEnable = false) → bad = false → saveOutside b = false → b.resume = true → savedAt s d b = none → b.gidx = 0 → bitsOf (memNat s.mem (a + 8) 8) 63 56 = 0 →
          (memNat s.mem (a + 0x2D0) 8).testBit 63 = false → Completes .bindRecordWrite s fun t =>
            (t.slot k).bind = { b with sstate := .running, cyc := 0 } ∧ (t.slot k).pc = memW64 s.mem a ∧
            (t.slot k).em = BitVec.ofNat 32 (memNat s.mem (a + 8) 8) ∧ (t.slot k).count = bitsOf (memNat s.mem (a + 8) 8) 55 42 ∧
            (t.slot k).inHandler = (memNat s.mem (a + 8) 8).testBit 41))) ∧
    (x.halted = none → ks ≠ [] → (s.block k).dead = false → (s.block k).killed = 0 →
      (∀ j ∈ ks, (s.slot j).bind.sstate = .running ∨ (s.slot j).bind.sstate = .faulted ∨ (s.slot j).bind.sstate = .done) →
      Completes .preempt s fun t => ∀ j ∈ ks, (t.slot j).bind.sstate = .draining) ∧
    (x.halted.isSome → exec .preempt s = .next (s.setDie d { x with commands := x.commands ++ [(false, k)] }) ∧
      exec .resumegrp s = .next (s.setDie d { x with commands := x.commands ++ [(true, k)] })) ∧
    (ks ≠ [] → (s.block k).dead = false →
      (ringRoom x → Completes .killblk s fun t => emptied t ∧ (calm → posted t ∧ bitsOf (memNat t.mem ring 8) 63 60 = 3)) ∧
      (ringRoom x = false → calm → Completes .killblk s fun t => (t.block k).dead = true ∧
        ∀ j ∈ ks, (t.slot j).bind = (s.slot j).bind ∧ (t.slot j).stopped = true ∧ (t.slot j).outst = [])) ∧
    (let lead := leadOf k g
      ∀ j ∈ blockSlots s lead, j ≠ k → calm → liveGroup g → liveGroup (s.slot j) → (s.slot j).dfault = none → (s.block lead).dead = false →
        Completes .killgrp s fun t => (t.slot k).bind.sstate = .done ∧ (t.slot k).outst = [] ∧
          (t.block lead).killed.getLsbD g.bind.gidx.toNat = true ∧ (t.slot j).bind = (s.slot j).bind) ∧
    (x.halted = none → g.bind.sstate = .faulted → g.aside = none → g.held = none → g.dfault = none → g.exiting = false →
      g.phase = none → anyHeld g = false → Completes .resumegrp s fun t => (t.slot k).bind = { g.bind with sstate := .running } ∧
      (t.slot k).pc = g.frame.rpc ∧ (t.slot k).em = g.frame.em ∧ (t.slot k).inHandler = false ∧ (t.slot k).s = g.s ∧
      (t.slot k).v = g.v ∧ ∀ j, j ≠ k → t.slot j = s.slot j) ∧
    (x.halted = none → g.bind.sstate ≠ .faulted → exec .resumegrp s = .next s) ∧
    (drainOver s k → Completes .drainComplete s fun t =>
      (∀ j ∈ ks, (t.slot j).bind.sstate = if (s.slot j).bind.sstate = .draining then .saving else (s.slot j).bind.sstate) ∧
      (∀ c ∈ (t.die d).copies, c.lead = k → c.stop = .saved) ∧ SameMemory s t) ∧
    (ks = [k] → saveReady s k → g.bind.gidx = 0 → g.bind.gcntm1 = 0 →
      (∀ j, (s.iface j).smpEnable = false) → Completes .saveComplete s fun t => emptied t ∧ posted t ∧ (∃ v, (t.die d).saved = x.saved ++ [v] ∧ v.bind.resume = true ∧
        v.bind.block = g.bind.block ∧ v.bind.save = g.bind.save ∧ v.ctxs = [g.ctx]) ∧
        let a := groupBase d g.bind 0
        (stopKind (s.block k).killed g = 2 → ring + 16 ≤ saveBase d g.bind ∨ a + groupSize g.bind ≤ ring →
          memW64 t.mem a = g.pc ∧ BitVec.ofNat 32 (memNat t.mem (a + 8) 8) = g.em ∧
          ∀ i, i < min g.bind.sregs.toNat 64 → memW64 t.mem (a + 0x400 + 8 * i) = tget g.s i 0)) ∧
    (retirable s k → ringRoom x → Completes .blockRetire s fun t => emptied t ∧
      (calm → posted t ∧ bitsOf (memNat t.mem ring 8) 63 60 = 1)) ∧
    (Completes .eventRingHeadWrite s fun t => (t.die s.arg.die.toNat).drhead = s.arg.v.setWidth 16 ∧
      (s.slots = [] → calm → t = s.setDie s.arg.die.toNat { s.die s.arg.die.toNat with drhead := s.arg.v.setWidth 16 }))

/-- Gangs (R125): a member finds the node by the digest of its image, and acknowledges a start or refuses it; the coordinator
counts acknowledgements and reports, aborts the gang after a refusal, a timeout or a failure, and once all members have
reported sends the final status, with which a member's node completes; messages for a graph that is gone are counted in LATE.
Where the spec leaves a point open the statement follows the model's choices of its own: aborts and guests of a gang (log 55). -/
def Obligations.Gangs : Prop :=
  ∀ (s : State),
    let r := s.arg.node
    let p := s.arg.pkg.toNat
    let said := fun (pkg : Nat) (w : NodeRef) (kind : GangKind) (st : Nat) =>
      (⟨pkg, w.asid, w.graph, w.node, graphDigest s w.asid w.graph, kind, st⟩ : GangMsg)
    let tells := fun (t : State) (pkg : Nat) (kind : GangKind) (st : Nat) => said pkg r kind st ∈ t.out.gang
    let refuses := fun (w : NodeRef) => exec .gangstart s =
      .next { s with out := { s.out with gang := s.out.gang ++ [said p w .nack 0] } }
    let calm := (∀ g ∈ s.graphs, ∀ n ∈ g.nodes, n.stop = false) ∧ ∀ e, (s.die e).bound = [] ∧ (s.die e).saved = []
    let late := fun (i : Instr) => Completes i s fun t => t.graphs = s.graphs ∧
      let c := (s.port (portKey s.arg.die.toNat 0)).late
      (t.port (portKey s.arg.die.toNat 0)).late = if c = 0xFFFF then c else c + 1
    (graphOf s r.asid s.arg.digest = none → refuses r) ∧
    (∀ h, graphOf s r.asid s.arg.digest = some h →
      let w : NodeRef := { r with graph := h }
      (findGraph s r.asid h = none → validate s (s.obj r.asid.toNat (addrObj h)).home r.asid h 0 = none → refuses w) ∧
      ∀ g n, s.launchNode w = some (g, n) →
        (n.kind = .launch → n.isGang = true → n.state = .waiting → n.gang = none → Completes .gangstart s fun t => said p w .ack 0 ∈ t.out.gang) ∧
        (n.isGang = false → refuses w) ∧
        (n.kind = .launch → n.isGang = true → n.state ≠ .complete → n.gang = none →
          exec .gangabort s = .next (s.putNode w { n with gang := some { home := 512, aborted := some 6 } })) ∧
        (∀ y, n.kind = .launch → n.isGang = true → n.gang = some y → y.home ≠ s.pkgid.toNat → n.state = .ready → n.live = 0 → calm →
          g.guest = some r.node → g.gcompl = 0 →
          (y.final = none → Completes .gangabort s fun t => ∃ g' n' y', t.launchNode w = some (g', n') ∧ n'.stop = true ∧
            n'.gang = some y' ∧ y'.aborted = some 6 ∧ y'.home = y.home) ∧
          (Completes .gangFinalStatus s fun t => findGraph t r.asid h = none ∧
            (∀ e, e < 8 → ∀ q ∈ (t.die e).rqs, queueNode q ≠ w)))) ∧
    (s.launchNode r = none → late .gangAck ∧ late .gangDone) ∧
    (∀ g n, s.launchNode r = some (g, n) →
      (∀ y, n.gang = some y → y.home = s.pkgid.toNat → p ∈ y.others → y.aborted = none →
        (s.arg.flag = true → Completes .gangAck s fun t => ∃ g' y', t.launchNode r = some (g', { n with gang := some y' }) ∧
          p ∈ y'.acked ∧ (∀ q ∈ y.acked, q ∈ y'.acked) ∧ { y' with acked := y.acked } = y) ∧
        (s.arg.flag = false → Completes .gangAck s fun t => ∀ q ∈ y.others, tells t q .abort 6) ∧
        (s.arg.v.toNat % 256 ≠ 0 → Completes .gangDone s fun t => ∀ q ∈ y.others, tells t q .abort (s.arg.v.toNat % 256)) ∧
        (s.arg.v.toNat % 256 = 0 → calm → n.kind = .launch → n.live = 0 → n.state = .ready → n.lost = none → budgetSpent g r.node = false →
          y.told = some 0 → y.final = none → g.guest = none ∨ g.guest = some r.node →
          (∀ q ∈ y.others, q = p ∨ q ∈ y.reported) → Completes .gangDone s fun t => ∀ q ∈ y.others, tells t q .final 0)) ∧
      (∀ y q, n.gang = some y → y.home = s.pkgid.toNat → y.aborted = none → y.final = none → y.deadline ≤ s.time → q ∈ y.others →
        q ∉ y.acked → Completes .gangTimeout s fun t => ∀ q ∈ y.others, tells t q .abort 6))

/-! ### Experts -/

/-- Expert entries (R133 to R137, R141 to R145, R147 to R149, R190): each command of the control queue takes its element and sets
or frees the entry it names; a fetch takes a free frame, or evicts the pool's victim, or waits; an evicted entry gives its
frame back; a fetch that lands fills its frame and its landing slot; and a dispatch that has ended advances its counter.
The controller's answers (R134, R138 to R141, R144, R433 to R438): an entry that fails its check stops the instruction in every lane; a
lookup gives HIT, MISS, SPLIT or HOLDFULL and starts the fetch of an Absent entry; a drop gives up holds; a park pushes its records
while there is room and answers the mask of the others; fetches, pins and unpins act on their entry, and a status is its two words.
Where the spec leaves a point open the statement follows the model's choices of its own: PINFULL counts recorded pins and parts on their way (log 17); ties among victims and frames (log 42); FSIZE 0 (log 61); REGISTER and a Closing queue (log 62); UNREGISTER of a waiting fetch (log 63). -/
def Obligations.Experts : Prop :=
  ∀ (s : State),
    let d := s.arg.die.toNat
    let x := s.die d
    let a := s.arg.asid
    let idx := s.arg.idx
    (∀ p bs, tfind (s.asid a.toNat).ctrlQ d = some p → dieOnline s d → ctrlBusy s d a = false →
      let q := s.qref (qrefOf p)
      let c := parseCtrl bs
      (q.tail - q.head).toNat ≠ 0 → q.slot q.head = .filled bs → c.bad = false → c.compl = 0 →
      let e := s.ert d c.idx
      let does := fun (i : Instr) (cmd : Nat) (P : State → Prop) => c.cmd = cmd → ctrlCheck s d a c = none →
        Completes i s fun t => (t.qref (qrefOf p)).head = q.head + 1 ∧ P t
      let key := poolKey d (tenantOf a) c.pool.toNat
      let o := s.obj a.toNat (addrObj c.addr)
      (∀ y w, tfind s.pools key = some y → c.size ≤ y.fsize → translate s a.toNat c.wqh rEnq = .ok w →
        queueIs s w d (fun z => z.kind == 0 && z.esizeB == 16) → farHolds s a c.addr (c.size * 4096) → o.r = true →
        let e' : Ert := { eid := c.eid, valid := true, tenant := BitVec.ofNat 6 (tenantOf a), asid := a, pool := c.pool, src := c.addr,
                          size := BitVec.ofNat 32 c.size, wq := w, srcBase := o.extbase }
        does .register 1 fun t => t.ert d c.idx = e') ∧
      (e.use = 0 → e.state = .absent ∨ e.state = .resident → does .unregister 2 fun t => (t.ert d c.idx).valid = false ∧
        (t.ert d c.idx).state = .absent ∧ ∀ y, s.pool d e = some y → e.state = .resident →
          (tfind t.pools (poolKey d e.tenant.toNat e.pool.toNat)).map (·.free) = some (y.free ++ [e.frame.toNat])) ∧
      (∀ y w, e.state = .absent → s.pool d e = some y → c.size ≤ y.fsize → translate s a.toNat c.cqh rMerge = .ok w → pqPkg w = s.pkgid →
        (s.qref (qrefOf w)).state = .active → (s.qref (qrefOf w)).kind = 2 → qrefOf w ≠ qrefOf p →
        farHolds s a e.src ((c.part.toNat + 1) * c.size * 4096) → does .split 3 fun t =>
          (t.ert d c.idx).size = BitVec.ofNat 32 c.size ∧
          ((t.ert d c.idx).state = .fetching ∧ (t.ert d c.idx).parted = true ∧ (t.ert d c.idx).part = c.part ∧
            (t.ert d c.idx).npm1 = c.npm1 ∧ (t.ert d c.idx).cq = w ∨ (t.ert d c.idx).state = .absent ∧ (t.ert d c.idx).ferr = true)) ∧
      (e.state = .split → e.use = 0 → does .unsplit 4 fun t => t.ert d c.idx = { e with state := .evicting, compl := some 0 }) ∧
      (e.state = .resident → e.use = 0 → does .evict 5 fun t => t.ert d c.idx = { e with state := .evicting, compl := some 0 }) ∧
      (e.state ≠ .resident ∨ e.use ≠ 0 → does .evict 5 fun t => t.erts = s.erts) ∧
      ((∀ y ∈ s.erts, y.1 / 65536 = d → y.2.valid → y.2.tenant.toNat = tenantOf a → y.2.pool.toNat ≠ c.idx % 16) → addrObj c.addr ≠ 0 →
        o.state = .valid → o.kind = .die → o.home = d → c.addr.toNat % 65536 = 0 → o.r = true → o.w = false →
        addrOff c.addr + c.nf * c.size * 4096 ≤ o.bound → does .pool 6 fun t =>
          tfind t.pools (poolKey d (tenantOf a) (c.idx % 16)) =
            some { asid := a, base := c.addr, fsize := c.size, nf := c.nf, free := List.range c.nf })) ∧
    (∀ f y, s.fetch d idx = some f → s.pool d (s.ert d f.idx) = some y → (∀ z ∈ x.fetches, z.id = f.id → z = f) →
      f.step = .ready ∧ nextFetch s d = some f ∨ f.step = .noFrame →
      let e := s.ert d f.idx
      (∀ n l, y.free = n :: l → Completes .fetchFrameTake s fun t => t.ert d f.idx = { e with frame := BitVec.ofNat 16 n } ∧
        (t.pool d e).map (·.free) = some l ∧ { f with step := .copying } ∈ (t.die d).fetches) ∧
      (y.free = [] →
        (∀ v, victimOf s d e = some v → Completes .fetchFrameTake s fun t => (t.ert d v) = { s.ert d v with state := .evicting } ∧
          { f with step := .evicting } ∈ (t.die d).fetches) ∧
        (victimOf s d e = none → Completes .fetchFrameTake s fun t => t.erts = s.erts ∧ { f with step := .noFrame } ∈ (t.die d).fetches))) ∧
    (let e := s.ert d idx
      ∀ y, e.state = .evicting → s.pool d e = some y → e.compl = none ∨ e.compl = some 0 → e.refetch = false →
        Completes .evictionDone s fun t => (t.pool d e).map (·.free) = some (y.free ++ [e.frame.toNat]) ∧
          (t.ert d idx).state = .absent ∧ (t.ert d idx).valid = e.valid ∧ (t.ert d idx).eid = e.eid ∧ SameMemory s t) ∧
    (∀ f y, s.fetch d idx = some f → f.step = .copying → s.pool d (s.ert d f.idx) = some y →
      let e := s.ert d f.idx
      let src := (s.obj e.asid.toNat (addrObj e.src)).extbase.toNat + addrOff e.src
      let o := s.obj y.asid.toNat (addrObj y.base)
      let off := addrOff y.base + e.frame.toNat * y.fsize * 4096
      let q := s.qref (waitRef e)
      let gone := fun (t : State) => ∀ z ∈ (t.die d).fetches, z.id ≠ f.id
      (e.parted = false → sourceGood s e 0 → homeFault s (waitRef e) = none → (f.seq - q.head).toNat < (q.tail - q.head).toNat →
        (q.slot f.seq).ready = false → Completes .fetchLanding s fun t => gone t ∧
          (t.ert d f.idx).state = (if e.pin then .pinned else .resident) ∧ (t.ert d f.idx).frame = e.frame ∧
          (t.qref (waitRef e)).slot f.seq = .filled (landingRecord e.eid 0 e.frame.toNat) ∧
          ∀ b, e.size = 1 → off % 4096 = 0 → objByteAddr o off = some b → ∀ j, j < 4096 → memRead t.mem (b + j) = memRead s.far (src + j)) ∧
      (e.parted = false → sourceGood s e 0 = false → Completes .fetchLanding s fun t => gone t ∧ (t.ert d f.idx).state = .absent ∧
        (t.ert d f.idx).ferr = true ∧ SameMemory s t)) ∧
    (∀ z failed, s.disp d idx = some z → z.finished = some failed → z.withdrawn = false →
      let w := tget (s.block z.lead).tl z.tl.toNat 0
      let field := fun (t : State) (hi lo : Nat) => bitsOf (tget (t.block z.lead).tl z.tl.toNat 0).toNat hi lo
      z.num.toNat = (bitsOf w.toNat 39 0 + 1) % 2 ^ 40 → 1 ≤ bitsOf w.toNat 46 40 → (s.block z.lead).fin = [] →
      Completes .dispatchComplete s fun t => (∀ y ∈ (t.die d).dispatches, y.id ≠ z.id) ∧ field t 39 0 = z.num.toNat ∧
        field t 46 40 = bitsOf w.toNat 46 40 - 1 ∧ (failed = false → field t 47 47 = bitsOf w.toNat 47 47) ∧
        (failed = true → field t 47 47 = 1) ∧ SameMemory s t ∧ t.slots = s.slots) ∧
    (∀ (o : Outst) (kind : XKind) (xs : List XLane) (act : W32),
      let k := slotKey s.arg.die.toNat s.arg.core.toNat s.arg.slot.toNat
      let d := slotDie k
      let g := s.slot k
      let h := s.block (leadOf k g)
      let i := s.iface g.bind.tenant.toNat
      let entry := fun (x : XLane) => s.ert d x.idx.toNat
      let code := fun (x : XLane) => if x.idx.toNat < i.ebase.toNat ∨ i.ebase.toNat + i.ecnt.toNat ≤ x.idx.toNat then some (0x01 : W8)
        else if (entry x).valid = false then some 0x02 else if (entry x).eid ≠ x.eid then some 0x03
        else if (entry x).asid ≠ g.bind.asid then some 0x04 else none
      let sel := match kind with
        | .park _ => xs.filter fun x => x.word.extractLsb' 16 2 == 1
        | _ => xs
      let failing := match kind with
        | .look _ _ | .drop | .park _ => maskOf fun l => sel.any fun y => y.lane == l && (code y).isSome
        | _ => act
      let ends := fun (P : State → Prop) => Completes .resultReturn s fun t => (t.slot k).outst = g.outst.filter (fun x => x.id != o.id) ∧
        (t.slot k).pc = g.pc ∧ SameMemory s t ∧ (∀ j, j ≠ k → t.slot j = s.slot j) ∧ P t
      let scalars := fun (t : State) (w : SReg → Option W64) => (t.slot k).v = g.v ∧ ∀ q, getS (t.slot k) q = (w q).getD (getS g q)
      let only := fun (t : State) (n : Nat) => ∀ j : W16, j.toNat ≠ n → t.ert d j.toNat = s.ert d j.toNat
      let starts := fun (t : State) (n : Nat) (pin demand : Bool) =>
        let e := s.ert d n
        let w := s.qref (waitRef e)
        (homeFault s (waitRef e) ≠ none ∨ w.kind ≠ 0 ∨ w.state = .closing → (t.ert d n).state = .absent ∧ (t.ert d n).ferr = true) ∧
        (homeFault s (waitRef e) = none → w.kind = 0 → w.state ≠ .closing →
          t.ert d n = { e with state := .fetching, wait := 0, wovf := false, ferr := false, pin := pin } ∧
          ∃ f ∈ (t.die d).fetches, f.idx = n ∧ f.demand = demand)
      Names s g o → o.res = none → o.op = .expert kind xs act → Quiet g → s.arg.lanes = 0xFFFFFFFF →
      (∀ pre x post c, sel = pre ++ x :: post → (∀ y ∈ pre, code y = none) → code x = some c → g.outst.filter (fun x => x.id != o.id) ≠ [] →
        ends fun t => t.erts = s.erts ∧ t.queues = s.queues ∧ t.blocks = s.blocks ∧ scalars t (fun _ => none) ∧
          (t.slot k).dfault = some (o.id, { cause := 0x0B, code := c, precise := false, lanes := failing, fpc := o.fpc,
                                            arg0 := x.eid ++ 0#16 ++ x.idx })) ∧
      ((∀ x ∈ sel, code x = none) →
        (∀ hold dv, kind = .look hold dv → (∀ x ∈ xs, x.lane < 32) → xs.Pairwise (fun x y => x.lane ≠ y.lane) →
          let hit := fun (j : W16) => (s.ert d j.toNat).state = .resident ∨ (s.ert d j.toNat).state = .pinned ∨ (s.ert d j.toNat).state = .split
          let new := (((xs.map (·.idx)).eraseDups.filter fun j => decide (hit j) && !h.holds.contains j).take (16 - h.holds.length))
          let given := fun (j : W16) => hit j ∧ (hold = true → j ∈ h.holds ∨ j ∈ new)
          ends fun t => (t.slot k).s = g.s ∧ (∀ q, q ≠ dv.toNat → getVn (t.slot k) q = getVn g q) ∧
            (t.block (leadOf k g)).holds = (if hold then h.holds ++ new else h.holds) ∧
            (∀ x ∈ xs, let e := entry x
              lane (getV (t.slot k) dv) x.lane = (if given x.idx then (if e.state = .split then 2#16 else 0#16) ++ e.frame
                else if hit x.idx then 3#16 ++ 0#16 else 1#16 ++ 0#16) ∧
              (given x.idx → t.ert d x.idx.toNat =
                { e with lastuse := (s.die d).clock, use := if hold = true ∧ x.idx ∈ new then e.use + 1 else e.use }) ∧
              (¬ given x.idx → e.state ≠ .absent → t.ert d x.idx.toNat = e) ∧
              (e.state = .absent → starts t x.idx.toNat e.pin true)) ∧
            (∀ l, l < 32 → (∀ x ∈ xs, x.lane ≠ l) → lane (getV (t.slot k) dv) l = lane (getV g dv) l) ∧
            ∀ j : W16, (∀ x ∈ xs, x.idx ≠ j) → t.ert d j.toNat = s.ert d j.toNat) ∧
        (kind = .drop → h.holds.Nodup → ends fun t => scalars t (fun _ => none) ∧
          (t.block (leadOf k g)).holds = h.holds.filter (fun j => !(xs.any fun x => x.idx == j)) ∧
          ∀ j : W16, let e := s.ert d j.toNat
            t.ert d j.toNat = if j ∈ h.holds ∧ ∃ x ∈ xs, x.idx = j then { e with use := if e.use = 0 then 0 else e.use - 1 } else e) ∧
        (∀ r, kind = .park r →
          let bad := sel.filter fun x => x.token == 0xFFFFFFFF
          let range := fun (x : XLane) => ({ cause := 0x0A, code := 0x15, precise := false, fpc := o.fpc, arg1 := (entry x).wq.setWidth 64,
                                             lanes := maskOf fun l => bad.any fun y => y.lane == l } : Trap)
          (∀ x, bad.head? = some x → g.outst.filter (fun x => x.id != o.id) ≠ [] → ends fun t => scalars t (fun _ => none) ∧
            t.erts = s.erts ∧ t.queues = s.queues ∧ (t.slot k).dfault = some (o.id, range x)) ∧
          (bad = [] → ∀ j : W16, (∀ x ∈ sel, x.idx = j) →
            let e := s.ert d j.toNat
            let w := s.qref (waitRef e)
            let room := if w.state = .closing ∨ (∃ f ∈ (s.die d).fetches, f.step = .parked ∧ waitRef (s.ert d f.idx) = waitRef e) ∨
              (∃ y ∈ (s.port (waitRef e).pkey).sleepers, y.queue = (waitRef e).q ∧ y.woken = none ∧ isReserver y.kind = true)
              then 0 else w.winM1 + 1 + w.spillN - (w.tail - w.head).toNat
            let n := min room sel.length
            homeFault s (waitRef e) = none → w.kind = 0 → w.esize = 0 → e.wait ≤ 0xFFFFFF → (w.tail - w.head).toNat + 32 < 2 ^ 48 →
            sel.length ≤ 32 → ends fun t =>
              scalars t (fun q => if q = r then some ((maskOf fun l => (sel.drop n).any fun y => y.lane == l).setWidth 64) else none) ∧
              (t.qref (waitRef e)).head = w.head ∧ (t.qref (waitRef e)).tail = w.tail + BitVec.ofNat 48 n ∧
              (∀ m y, m < n → sel[m]? = some y → (t.qref (waitRef e)).slot (w.tail + BitVec.ofNat 48 m) =
                .filled (leBytes 4 y.token.toNat ++ leBytes 4 y.eid.toNat ++ leBytes 4 y.gate.toNat ++ leBytes 4 y.user.toNat)) ∧
              t.ert d j.toNat = { e with wait := min 0xFFFFFF (e.wait + n), wovf := e.wovf || decide (0xFFFFFF < e.wait + n) } ∧
              only t j.toNat)) ∧
        (∀ x, xs = [x] →
          let n := x.idx.toNat
          let e := entry x
          let sets := fun (r : SReg) (v : W64) (q : SReg) => if q = r then some v else none
          (kind = .fetch → ends fun t => scalars t (fun _ => none) ∧ only t n ∧
            (e.state = .absent → starts t n e.pin false) ∧ (e.state ≠ .absent → t.ert d n = e)) ∧
          (∀ r, kind = .pin r →
            (e.state = .pinned ∨ e.state = .split → ends fun t => scalars t (sets r 0) ∧ t.erts = s.erts) ∧
            (e.state ≠ .pinned → e.state ≠ .split →
              (pinFull s d n e → ends fun t => scalars t (sets r 1) ∧ t.erts = s.erts) ∧
              (pinFull s d n e = false → ends fun t => scalars t (sets r 0) ∧ only t n ∧
                (e.state = .resident → t.ert d n = { e with state := .pinned }) ∧
                (e.state = .absent → starts t n true true) ∧
                (e.state = .fetching → t.ert d n = { e with pin := true }) ∧
                (e.state = .evicting → t.ert d n = { e with pin := true, refetch := true })))) ∧
          (kind = .unpin → ends fun t => scalars t (fun _ => none) ∧ only t n ∧
            t.ert d n = if e.state = .pinned then { e with state := .resident } else { e with pin := false }) ∧
          (∀ r, kind = .stat r → ends fun t => t.erts = s.erts ∧
            scalars t (fun q => if q = r + 1 then some (ertWord8 e) else if q = r then some (ertWord0 e) else none)))))

/-- What it takes for a group to pass an instruction of the wide accumulator (R390), a prefetch (R403), a bset (R404), a copy (R409), a
fence (R453) or a merge (R448): with registers it has, and the structures the instruction names readable, the group goes on at
the following slot, keeps the registers that are not the instruction's destination, stores nothing, and leaves every other
group as it was. -/
def Obligations.GroupsGoOn : Prop :=
  ∀ (s : State) (h : Hdr) (rm : Rm) (sat bf nov sw reg : Bool) (d a b vo v : VReg) (br : BReg) (imm : W32) (tl : W3) (sd qh k : SReg)
    (esz : W3) (key : W8),
    let g := s.grp
    let act := activeSet g h
    let goesOn := fun (i : Instr) (P : Slot → Prop) => Completes i s fun t => (t.slot s.cur).pc = nextPc g.pc ∧ P (t.slot s.cur) ∧
      (t.slot s.cur).em = g.em ∧ (t.slot s.cur).m = g.m ∧ t.mem = s.mem ∧ ∀ j, j ≠ s.cur → t.slot j = s.slot j
    let scalars := fun (u : Slot) => ∀ r, getS u r = getS g r
    let vectors := fun (u : Slot) => ∀ r, getV u r = getV g r
    goesOn (.wclr h) (fun u => u.wa = {} ∧ scalars u ∧ vectors u) ∧
    (okV g d →
      goesOn (.wrnd ⟨h, bf, rm, sat, d⟩) (fun u => u.wa = g.wa ∧ scalars u ∧ ∀ r, r ≠ d → getV u r = getV g r) ∧
      goesOn (.wget ⟨h, d⟩) (fun u => u.wa = g.wa ∧ scalars u ∧ ∀ r, r ≠ d → getV u r = getV g r)) ∧
    (okV g a → goesOn (.wadd ⟨h, a⟩) (fun u => scalars u ∧ vectors u) ∧ goesOn (.wset ⟨h, a⟩) (fun u => scalars u ∧ vectors u) ∧
      (okV g b → goesOn (.wdot ⟨h, a, b⟩) (fun u => scalars u ∧ vectors u))) ∧
    (nov ∨ okV g vo → goesOn (.vprefLlc ⟨h, br, vo, nov, imm⟩) (fun u => scalars u ∧ vectors u) ∧
      goesOn (.vprefL1 ⟨h, br, vo, nov, imm⟩) (fun u => scalars u ∧ vectors u)) ∧
    (let n := (getS g sd).toNat / 2 ^ 44
      let off := (getS g sd).toNat % 2 ^ 44
      let o := s.obj g.bind.asid.toNat n
      okS g sd → n ≠ 0 → o.state = .valid → o.kind = .die → o.home = slotDie s.cur → off < o.bound →
        ∀ x, extentAt o off = some x → x.p → goesOn (.bset ⟨sw, br, sd⟩) fun u => scalars u ∧ vectors u ∧ (tget u.b br.toNat {}).v = true) ∧
    (okS g sd → okS g qh → act = 0xFFFFFFFF → g.phase = none → blockCopies s s.lead < 16 →
      bitsOf (tget (s.block s.lead).tl tl.toNat 0).toNat 46 40 ≠ 127 → ∀ xs, recWalk s (slotDie s.cur) g.bind.asid.toNat (getS g qh) 192 = .ok xs →
      (∀ x ∈ xs, poisoned s (s.cur / 16) (s.cur % 16) x = false) →
        goesOn (.tcopy ⟨h, tl, sd, qh⟩) fun u => vectors u ∧ ∀ r, r ≠ sd → getS u r = getS g r) ∧
    (act ≠ 0 → g.flows = [] → g.fence = none → g.phase = none → anyHeld g = false → goesOn (.qfence h) fun u => scalars u ∧ vectors u) ∧
    (okS g qh → (reg → okS g k ∧ (getS g k).toNat < 256) → okElem g v esz → act ≠ 0 → outstFull g = false → g.fence = none → g.phase = none →
      anyHeld g = false → ∀ p, translate s g.bind.asid.toNat ((getS g qh).setWidth 32) rMerge = .ok p → unreachable s (slotDie s.cur) p = false →
        goesOn (.qmerge ⟨h, qh, v, esz, reg, k, key⟩) fun u => scalars u ∧ vectors u)

/-! ### Encodings, issue and the whole machine -/

/-- The words of the spec's worked examples decode to the instructions they stand for (R182, R301 to R311, R313). -/
def Obligations.DecodesWorkedExamples : Prop :=
  decode 0x800000000000000000000000 = .ok (.nop true) ∧
  decode 0x010005060120000000000064 = .ok (.saddImm ⟨false, .i32, 5, 6, 100⟩) ∧
  decode 0x040000140300000000000038 = .ok (.call ⟨false, 20, 7, 0⟩) ∧
  decode 0x90030A0B0C0000A400000000 = .ok (.vfadd ⟨⟨true, 2⟩, .rz, false, false, 10, 11, 12⟩) ∧
  decode 0x08041415000000D20A000000 = .ok (.vcvt ⟨⟨false, 1⟩, .e4m3, .f32, .rn, true, false, 20, 21⟩) ∧
  decode 0x8B0008020900600000000080 = .ok (.vld ⟨⟨true, 1⟩, .n32, 8, 2, 9, false, 0x80⟩) ∧
  decode 0x850204000114060000DD0000 = .ok (.tmma ⟨⟨true, 0⟩, .e4m3, .e4m3, false, false, 4, 0, 1, 20, 6⟩) ∧
  decode 0x86020C0000000A0100000000 = .ok (.xlookHold ⟨⟨true, 0⟩, 12, 10⟩) ∧
  decode 0x86000A040000000080000003 = .ok (.qres ⟨⟨true, 0⟩, true, 10, 4, false, 0, 3⟩) ∧
  decode 0x060000000000000900000000 = .ok (.qfence ⟨false, 0⟩) ∧
  decode 0x06011B0C0000000000000000 = .ok (.tcopy ⟨⟨false, 0⟩, 0, 27, 12⟩)

/-- Every well-formed instruction has a word, and decodes from its encoding to itself, with every operand at every value its encoding
admits (R301 to R311, R335 to R348); a word that is no instruction's encoding is refused, and events have no words.
Where the spec leaves a point open the statement follows the model's choices of its own: RM with an integer scan is reserved (log 7). -/
def Obligations.EncodingRoundTrip : Prop :=
  (∀ (i : Instr) (w : W96), i.wf = true → encode i = some w → decode w = .ok i) ∧
  (∀ w : W96, (∀ i : Instr, i.wf = true → encode i ≠ some w) → ∀ i, decode w ≠ .ok i) ∧
  (∀ i : Instr, i.wf = true → i ∉ deviceEvents → ∃ w, encode i = some w) ∧ ∀ i ∈ deviceEvents, encode i = none

/-- A step runs the decoded instruction (R166, R169, R170, R280, R296 to R298): a core whose turn it is, and which has not had its
cycle, takes its phases further and tries the group that issued least recently; when the bytes at its pc decode to an
instruction, the step is `exec` of it on that group, and then the core notes the issue, goes on to the second of a pair, or,
when the instruction waits, tries its other groups; where a sample is due it notes why the others wait. An event of the
device that comes next is `exec` of it with its operands.
Where the spec leaves a point open the statement follows the model's choices of its own: the order of turns (log 18); pairs and waiting groups within a cycle (log 83). -/
def Obligations.StepRunsDecodedInstruction : Prop :=
  (∀ (s : State) (d c k : Nat) (r : List Turn) (i : Instr),
    let ck := coreKey d c
    let s0 : State := { s with agenda := r }
    let b := (phased s0 ck).foldl settle (beginCycle s0 ck)
    let g := b.slot k
    let asid := g.bind.asid.toNat
    let line := fetchLine b (slotDie k) asid g.pc
    let ends := fun (o : Host.Outcome State Fault Refusal) => step s = match o with
      | .next v => .next (if sampleDue b ck then noteStalls b v ck else v)
      | x => x
    s.agenda = .core d c :: r → hadCycle s0 ck = false → pickGroup b ck [] = some k →
    fetchFault b (slotDie k) asid g.pc = none → lineFails (turnTo b k) line = false →
    g.count < 8192 ∨ g.replay.isSome ∨ isSafept i →
    lineReserved line = false → g.pc.toNat % 8 ≤ 4 → lineVer line = 1 → decode (lineSlot line (g.pc.toNat % 8)) = .ok i →
    (∀ t, exec i (turnTo b k) = .next t →
      ((t.slot k).stall = .none → (t.slot k).last.isSome → pairs t k g g.pc i = false → ends (.next (noteIssue t k false g.pc))) ∧
      ((t.slot k).stall = .none → (t.slot k).last.isSome → pairs t k g g.pc i = true → ends (issueSecond t k g.pc)) ∧
      ((t.slot k).stall = .none → (t.slot k).last = none → ends (.next (keepLast b t k))) ∧
      ((t.slot k).stall ≠ .none → ends (coreTries ck 15 [k] (keepLast b t k)))) ∧
    (∀ f, exec i (turnTo b k) = .fault f → step s = .fault f)) ∧
  (∀ (s : State) (d c : Nat) (r : List Turn), s.agenda = .core d c :: r → hadCycle { s with agenda := r } (coreKey d c) →
    step s = .next { s with agenda := r }) ∧
  ∀ (s : State) (i : Instr) (a : Args) (r : List Turn), s.agenda = .device i a :: r → encode i = none →
    step s = exec i { s with agenda := r, arg := a }

/-- What a group traps on before its next instruction issues, in the order of R280 (R166, R229, R292, R296, R298, R302, R314): a
fetch that its translation refuses (MEMORY), a line whose three fetches fail, which is counted, the bound, a reserved
encoding, and a version other than 1. -/
def Obligations.FetchTraps : Prop :=
  ∀ (s : State) (d c k : Nat) (r : List Turn),
    let ck := coreKey d c
    let s0 : State := { s with agenda := r }
    let b := (phased s0 ck).foldl settle (beginCycle s0 ck)
    let g := b.slot k
    let u := turnTo b k
    let asid := g.bind.asid.toNat
    let line := fetchLine b (slotDie k) asid g.pc
    let o := b.obj asid (addrObj g.pc)
    let word := decode (lineSlot line (g.pc.toNat % 8))
    let trap := fun (x : State) (cause code : W8) (arg : W64) =>
      let v := keepLast b (x.trapCur { cause := cause, code := code, lanes := g.em, fpc := g.pc, rpc := g.pc, arg0 := arg }) k
      step s = .next (if sampleDue b ck then noteStalls b v ck else v)
    s.agenda = .core d c :: r → hadCycle s0 ck = false → pickGroup b ck [] = some k →
    (addrObj g.pc = 0 ∨ o.state = .invalid → trap u 0x09 0x20 g.pc) ∧
    (addrObj g.pc ≠ 0 → o.state ≠ .invalid →
      (o.bound < addrOff (lineOf g.pc) + 64 → trap u 0x09 0x21 g.pc) ∧
      (addrOff (lineOf g.pc) + 64 ≤ o.bound → o.x = false → trap u 0x09 0x22 g.pc) ∧
      (addrOff (lineOf g.pc) + 64 ≤ o.bound → o.x = true → extentIn (codeExts o (slotDie k)) (addrOff (lineOf g.pc)) = none →
        trap u 0x09 0x23 g.pc)) ∧
    (fetchFault b (slotDie k) asid g.pc = none →
      (lineFails u line → trap (countParity (dropFlaw u (k / 16) asid (lineOf g.pc))) 0x04 0x03 0) ∧
      (lineFails u line = false →
        (8192 ≤ g.count → g.replay = none → (∀ o, word ≠ .ok (.safept o)) → trap u 0x05 0 0) ∧
        (g.count < 8192 →
          (lineReserved line ∨ 4 < g.pc.toNat % 8 → trap u 0x01 0x01 0) ∧
          (lineReserved line = false → g.pc.toNat % 8 ≤ 4 →
            (lineVer line ≠ 1 → trap u 0x01 0x03 0) ∧
            (∀ e, lineVer line = 1 → word = .error e → trap u 0x01 0x01 0)))))

/-- A trap (R279, R281 to R283, R285, R287): a group with a handler that is in none enters it, with the frame written, `em` all
ones, and the bound count zero for BOUND alone; in a handler the frame stays and the group goes to the fault domain, which keeps
the inner `$trap`; without a handler it goes there with the frame written. The FAULT event has the trap's cause, and waits
while the ring is full or the die is halted.
Where the spec leaves a point open the statement follows the model's choices of its own: the frame is written without a handler (log 8). -/
def Obligations.TrapEntry : Prop :=
  ∀ (s : State) (t : Trap),
    let k := s.cur
    let g := s.grp
    let u := s.trapCur t
    let d := slotDie k
    let x := s.die d
    let ring := physKey d (x.drbase.toNat + 16 * x.drtail.toNat)
    let noHandler := s.trapv g.bind = 0
    let faulted := fun (cause : W8) (inner : Option W64) =>
      (ringRoom x → x.halted = none → (u.slot k).bind.sstate = (if g.bind.sstate = .draining then .draining else .faulted) ∧ (u.slot k).faulted = true ∧
        (u.slot k).inner = inner ∧ bitsOf (memNat u.mem ring 8) 63 60 = 4 ∧ bitsOf (memNat u.mem ring 8) 47 40 = cause.toNat ∧
        bitsOf (memNat u.mem ring 8) 31 0 = g.bind.block.toNat) ∧
      (ringRoom x = false ∨ x.halted.isSome → (u.slot k).bind = g.bind ∧ (u.slot k).pend.isSome ∧ u.mem = s.mem)
    (t.fpc = g.pc → handlerReady s → EntersHandler s u t ∧ u.mem = s.mem ∧ u.dies = s.dies ∧
      (t.cause = 0x05 → (u.slot k).count = 0) ∧ (t.cause ≠ 0x05 → (u.slot k).count = g.count) ∧ (t.cause ≠ 0x0C → u.blocks = s.blocks)) ∧
    (g.inHandler = true → faulted t.cause (some (t.cause ++ t.code ++ 0#7 ++ BitVec.ofBool t.precise ++ 0#8 ++ t.lanes)) ∧
      (u.slot k).frame = g.frame) ∧
    (g.inHandler = false → noHandler → faulted t.cause none ∧ (u.slot k).frame.fpc = t.fpc ∧
      (u.slot k).frame.arg0 = t.arg0 ∧ (u.slot k).frame.em = g.em) ∧
    (u.slot k).s = g.s ∧ (u.slot k).v = g.v ∧ (u.slot k).m = g.m ∧ (u.slot k).t = g.t ∧ (u.slot k).wa = g.wa ∧
    ∀ j, j ≠ k → u.slot j = s.slot j

/-- A register that the block has not been given (R176): each of the forms below, from every family, that names one, as its
destination or as a source, alone or as the second of a pair, does not issue, and traps with REGRANGE. The forms: `sadd`, `smov`,
`mtos`, `mfroms`, `ret`, `srd`, `bset`, `tcset`; `vadd`, also with two registers, `vsel`, `vcmp`, `vmovs`, `wget`, `wset`; `vld`, `vst`,
`vlds`, `vatom`, `vatoms`, `tld`, `tst`, `vpref.l1`; `tzero`, `tmov.tv`, `tmov.vt`, `tmma`, `tmma.sparse`, `tconv`, `tdraw`; `claim`,
`tcopy`, `tlrd`, `twait`; `qcount`, `qres`, `qput`, `qget`; `xfetch`, `xpin`, `xstat`, `xlook`, `xdrop`. -/
def Obligations.UnallocatedRegisters : Prop :=
  ∀ (s : State) (sw x nr : Bool) (h : Hdr) (ty tb : Ty) (cond : Cond) (op : AtomOp) (rm : Rm) (d a : SReg) (v w : VReg) (br : BReg)
    (ta tc : TReg) (m : MReg) (n : W32) (tl : W3) (k : BitVec 7) (i5 : BitVec 5) (i6 : W6),
    let act := activeSet s.grp h
    let traps := fun (i : Instr) (lanes : W32) => exec i s =
      .next (s.trapCur { cause := 0x02, lanes := lanes, fpc := s.grp.pc, rpc := s.grp.pc })
    (s.grp.bind.sregs.toNat ≤ d.toNat → okS s.grp d = false ∧ traps (.sadd ⟨sw, ty, d, a, a⟩) s.grp.em ∧ traps (.smov ⟨sw, d, a⟩) s.grp.em ∧
      traps (.mtos ⟨sw, d, m⟩) s.grp.em ∧ traps (.ret ⟨sw, d⟩) s.grp.em ∧ traps (.srd ⟨sw, .core, 0, d.setWidth 8⟩) s.grp.em ∧
      traps (.bset ⟨sw, br, d⟩) s.grp.em ∧ traps (.vmovs ⟨h, v, d⟩) act ∧ traps (.claim ⟨h, d, a, a⟩) act ∧ traps (.tcopy ⟨h, 0, d, a⟩) act ∧
      traps (.tlrd ⟨h, 0, d⟩) act ∧ traps (.qcount ⟨h, d, a⟩) act ∧ traps (.xfetch ⟨h, d, a⟩) act ∧
      -- as a source
      traps (.sadd ⟨sw, ty, a, d, a⟩) s.grp.em ∧ traps (.sadd ⟨sw, ty, a, a, d⟩) s.grp.em ∧ traps (.smov ⟨sw, a, d⟩) s.grp.em ∧
      traps (.mfroms ⟨sw, m, d⟩) s.grp.em ∧ traps (.tcset ⟨sw, ta, d⟩) s.grp.em ∧ traps (.vmovs ⟨h, v, d⟩) act ∧
      traps (.claim ⟨h, a, d, a⟩) act ∧ traps (.claim ⟨h, a, a, d⟩) act ∧ traps (.tcopy ⟨h, tl, a, d⟩) act ∧ traps (.twait ⟨h, tl, d⟩) act ∧
      traps (.qcount ⟨h, a, d⟩) act ∧ traps (.qres ⟨h, x, a, d, false, a, k⟩) act ∧ traps (.qres ⟨h, x, a, a, true, d, k⟩) act ∧
      traps (.qput ⟨h, a, a, d, v, tl, false, a, i6⟩) act ∧ traps (.qput ⟨h, a, a, a, v, tl, true, d, i6⟩) act ∧
      traps (.xpin ⟨h, a, d, a⟩) act ∧ traps (.xpin ⟨h, a, a, d⟩) act) ∧
    -- the second of a pair
    (s.grp.bind.sregs.toNat ≤ d.toNat + 1 → traps (.xstat ⟨h, d, a, a⟩) act ∧ traps (.qres ⟨h, x, d, a, false, a, k⟩) act ∧
      traps (.tmmaSparse ⟨h, ty, tb, x, ta, ta, ta, v, d, a⟩) act ∧ traps (.tdraw ⟨h, ta, ta, v, d, a⟩) act) ∧
    (16 * s.grp.bind.vreg16.toNat ≤ v.toNat + 1 → traps (.vadd ⟨h, ty, x, true, v, w, w⟩) act ∧ traps (.vadd ⟨h, ty, x, true, w, v, w⟩) act ∧
      traps (.vadd ⟨h, ty, x, true, w, w, v⟩) act ∧ traps (.xlook ⟨h, w, v⟩) act ∧ traps (.xdrop ⟨h, v⟩) act ∧
      traps (.qget ⟨h, x, a, a, v, 4⟩) act ∧ traps (.tmmaSparse ⟨h, ty, tb, x, ta, ta, ta, v, d, a⟩) act) ∧
    (16 * s.grp.bind.vreg16.toNat ≤ v.toNat → okV s.grp v = false ∧ traps (.vadd ⟨h, ty, false, false, v, w, w⟩) act ∧
      traps (.vmovs ⟨h, v, a⟩) act ∧ traps (.vld ⟨h, ty, v, br, w, true, n⟩) act ∧ traps (.vst ⟨h, ty, v, br, w, true, n⟩) act ∧
      traps (.wget ⟨h, v⟩) act ∧ traps (.xlook ⟨h, v, w⟩) act ∧
      traps (.vlds ⟨h, ty, v, w, true, n⟩) act ∧ traps (.vatom ⟨h, op, ty, true, v, br, w, true, w, n⟩) act ∧
      traps (.vatoms ⟨h, op, ty, true, v, w, true, w, n⟩) act ∧ traps (.tmovTv ⟨h, v, ta, i5⟩) act ∧
      -- as a source
      traps (.vadd ⟨h, ty, x, false, w, v, w⟩) act ∧ traps (.vadd ⟨h, ty, x, false, w, w, v⟩) act ∧
      traps (.vsel ⟨h, false, w, v, w, m⟩) act ∧ traps (.vsel ⟨h, false, w, w, v, m⟩) act ∧ traps (.vcmp ⟨h, ty, cond, m, v, w⟩) act ∧
      traps (.vcmp ⟨h, ty, cond, m, w, v⟩) act ∧ traps (.wset ⟨h, v⟩) act ∧ traps (.vld ⟨h, ty, w, br, v, false, n⟩) act ∧
      traps (.vlds ⟨h, ty, w, v, false, n⟩) act ∧ traps (.vatom ⟨h, op, ty, nr, w, br, v, false, w, n⟩) act ∧
      traps (.vatom ⟨h, op, ty, false, w, br, w, x, v, n⟩) act ∧ traps (.vatoms ⟨h, op, ty, nr, w, v, false, w, n⟩) act ∧
      traps (.tld ⟨h, ta, br, v, false, n⟩) act ∧ traps (.tst ⟨h, ta, br, v, false, n⟩) act ∧ traps (.vprefL1 ⟨h, br, v, false, n⟩) act ∧
      traps (.tmovVt ⟨h, v, ta, i5⟩) act ∧ traps (.tdraw ⟨h, ta, ta, v, a, a⟩) act ∧ traps (.qput ⟨h, a, a, a, v, tl, x, a, i6⟩) act) ∧
    (s.grp.bind.tiles.toNat ≤ ta.toNat → okT s.grp ta = false ∧ traps (.tzero ⟨h, ta⟩) act ∧ traps (.tld ⟨h, ta, br, w, true, n⟩) act ∧
      traps (.tst ⟨h, ta, br, w, true, n⟩) act ∧ traps (.tcset ⟨sw, ta, a⟩) s.grp.em ∧ traps (.tmovTv ⟨h, w, ta, i5⟩) act ∧
      traps (.tmovVt ⟨h, w, ta, i5⟩) act ∧ traps (.tconv ⟨h, rm, x, ta, tc⟩) act ∧ traps (.tconv ⟨h, rm, x, tc, ta⟩) act ∧
      traps (.tdraw ⟨h, ta, tc, w, a, a⟩) act ∧ traps (.tdraw ⟨h, tc, ta, w, a, a⟩) act ∧
      traps (.tmma ⟨h, ty, tb, x, nr, ta, tc, tc, w, a⟩) act ∧ traps (.tmma ⟨h, ty, tb, x, nr, tc, ta, tc, w, a⟩) act ∧
      traps (.tmma ⟨h, ty, tb, x, false, tc, tc, ta, w, a⟩) act ∧ traps (.tmmaSparse ⟨h, ty, tb, x, tc, tc, ta, w, a, a⟩) act) ∧
    (s.grp.bind.tiles.toNat ≤ ta.toNat + 1 → traps (.tmmaSparse ⟨h, ty, tb, x, tc, ta, tc, w, a, a⟩) act)

/-- The machine after reset (R18, R20, R54, R58, R61, R83, R85, R88, R94, R95, R104, R106, R152, R191, R195, R229, R288, R294, R333): the
lehr begins stage A; no die is online, no cluster awake, no slot bound, no queue in use and no object valid; memory reads
zero; the registers hold the values the spec gives, and the sound form of the memories holds.
Where the spec leaves a point open the statement follows the model's choices of its own: the fitted module after reset (log 3); memory nothing has written reads zero (log 4); a bucket starts full (log 44); MSI-X vectors start masked (log 54). -/
def Obligations.ResetState : Prop :=
  let s := State.reset
  s.lehr = .stageA ∧ s.time = 0 ∧ s.mgmt.online = 0 ∧ s.mgmt.devten = 0 ∧ s.mgmt.romhold = false ∧ s.mgmt.mbstat = .done ∧
  s.fabric.unreach = 100 ∧ s.fabric.rttw = 16 ∧ s.fabric.rto = 10 ∧ s.fabric.enable = false ∧
  (∀ d, (s.die d).clock = 0 ∧ (s.die d).steps = 0 ∧ (s.die d).cause = 0 ∧ (s.die d).req = 0 ∧ (s.die d).cur = 0 ∧ (s.die d).drbase = 0 ∧
    (s.die d).drhead = 0 ∧ (s.die d).drtail = 0 ∧ (s.die d).prilate = 0 ∧ (s.die d).cecc = 0 ∧ (s.die d).uecc = 0 ∧
    (s.die d).relaunch = 0 ∧ (s.die d).halted = none) ∧
  (∀ c, (s.core c).awake = false ∧ (s.core c).fused = false) ∧
  (∀ k, (s.slot k).bind.sstate = .empty) ∧
  (∀ p, (s.port p).result = .done ∧ (s.port p).slpovf = 0 ∧ (s.port p).stale = 0 ∧ (s.port p).voids = 0 ∧ (s.port p).late = 0) ∧
  (∀ q, (s.queue q).state = .free ∧ (s.queue q).head = 0 ∧ (s.queue q).tail = 0) ∧
  (∀ l, (s.link l).autherr = 0 ∧ (s.link l).downs = 0 ∧ (s.link l).malf = 0 ∧ (s.link l).disable = false) ∧
  (∀ t, (s.iface t).tdisp = .unlocked ∧ (s.iface t).urcnt = 0 ∧ (s.iface t).result = .done ∧ (s.iface t).smpEnable = false ∧
    (s.iface t).fdrBase = 0 ∧ (s.iface t).fdrDrop = 0 ∧ (s.iface t).halt = 0 ∧ (s.iface t).refused = 0 ∧ (s.iface t).imgstat = 0 ∧
    (s.iface t).qc = 0 ∧ (s.iface t).qn = 0 ∧ (s.iface t).ecnt = 0) ∧
  (∀ a o, (s.obj a o).state = .invalid) ∧ (∀ a i, (s.qtte a i).valid = false) ∧
  (∀ a, memRead s.mem a = 0 ∧ memRead s.scr a = 0) ∧ s.memoriesOk

/-- The memories keep their canonical form through every step; the form is the model's own, so that equal memories are equal data.
Where the spec leaves a point open the statement follows the model's choices of its own: memory nothing has written reads zero (log 4). -/
def Obligations.MemoriesStaySound : Prop :=
  ∀ s t : State, s.memoriesOk → step s = .next t → t.memoriesOk
end

