-- ==== Sys2Proof/Laws/Dispatch.lean ====
section
/-! SUPPORT. Which meaning each constructor has: one law per arm of `exec`. -/
namespace Sys2Proof.Machine

@[simp] theorem exec_nop (sw) (s : State) : exec (.nop sw) s = execNop sw s := rfl
@[simp] theorem exec_sadd (o) (s : State) : exec (.sadd o) s = execSadd o s := rfl
@[simp] theorem exec_saddImm (o) (s : State) : exec (.saddImm o) s = execSaddImm o s := rfl
@[simp] theorem exec_ssub (o) (s : State) : exec (.ssub o) s = execSsub o s := rfl
@[simp] theorem exec_ssubImm (o) (s : State) : exec (.ssubImm o) s = execSsubImm o s := rfl
@[simp] theorem exec_smul (o) (s : State) : exec (.smul o) s = execSmul o s := rfl
@[simp] theorem exec_smulImm (o) (s : State) : exec (.smulImm o) s = execSmulImm o s := rfl
@[simp] theorem exec_smulh (o) (s : State) : exec (.smulh o) s = execSmulh o s := rfl
@[simp] theorem exec_smulhImm (o) (s : State) : exec (.smulhImm o) s = execSmulhImm o s := rfl
@[simp] theorem exec_sdiv (o) (s : State) : exec (.sdiv o) s = execSdiv o s := rfl
@[simp] theorem exec_sdivImm (o) (s : State) : exec (.sdivImm o) s = execSdivImm o s := rfl
@[simp] theorem exec_srem (o) (s : State) : exec (.srem o) s = execSrem o s := rfl
@[simp] theorem exec_sremImm (o) (s : State) : exec (.sremImm o) s = execSremImm o s := rfl
@[simp] theorem exec_smin (o) (s : State) : exec (.smin o) s = execSmin o s := rfl
@[simp] theorem exec_sminImm (o) (s : State) : exec (.sminImm o) s = execSminImm o s := rfl
@[simp] theorem exec_smax (o) (s : State) : exec (.smax o) s = execSmax o s := rfl
@[simp] theorem exec_smaxImm (o) (s : State) : exec (.smaxImm o) s = execSmaxImm o s := rfl
@[simp] theorem exec_sand (o) (s : State) : exec (.sand o) s = execSand o s := rfl
@[simp] theorem exec_sandImm (o) (s : State) : exec (.sandImm o) s = execSandImm o s := rfl
@[simp] theorem exec_sor (o) (s : State) : exec (.sor o) s = execSor o s := rfl
@[simp] theorem exec_sorImm (o) (s : State) : exec (.sorImm o) s = execSorImm o s := rfl
@[simp] theorem exec_sxor (o) (s : State) : exec (.sxor o) s = execSxor o s := rfl
@[simp] theorem exec_sxorImm (o) (s : State) : exec (.sxorImm o) s = execSxorImm o s := rfl
@[simp] theorem exec_sshl (o) (s : State) : exec (.sshl o) s = execSshl o s := rfl
@[simp] theorem exec_sshlImm (o) (s : State) : exec (.sshlImm o) s = execSshlImm o s := rfl
@[simp] theorem exec_sshr (o) (s : State) : exec (.sshr o) s = execSshr o s := rfl
@[simp] theorem exec_sshrImm (o) (s : State) : exec (.sshrImm o) s = execSshrImm o s := rfl
@[simp] theorem exec_ssra (o) (s : State) : exec (.ssra o) s = execSsra o s := rfl
@[simp] theorem exec_ssraImm (o) (s : State) : exec (.ssraImm o) s = execSsraImm o s := rfl
@[simp] theorem exec_srotl (o) (s : State) : exec (.srotl o) s = execSrotl o s := rfl
@[simp] theorem exec_srotlImm (o) (s : State) : exec (.srotlImm o) s = execSrotlImm o s := rfl
@[simp] theorem exec_sclz (o) (s : State) : exec (.sclz o) s = execSclz o s := rfl
@[simp] theorem exec_spopc (o) (s : State) : exec (.spopc o) s = execSpopc o s := rfl
@[simp] theorem exec_ssel (o) (s : State) : exec (.ssel o) s = execSsel o s := rfl
@[simp] theorem exec_sselImm (o) (s : State) : exec (.sselImm o) s = execSselImm o s := rfl
@[simp] theorem exec_scmp (o) (s : State) : exec (.scmp o) s = execScmp o s := rfl
@[simp] theorem exec_scmpImm (o) (s : State) : exec (.scmpImm o) s = execScmpImm o s := rfl
@[simp] theorem exec_smov (o) (s : State) : exec (.smov o) s = execSmov o s := rfl
@[simp] theorem exec_smovImm64 (o) (s : State) : exec (.smovImm64 o) s = execSmovImm64 o s := rfl
@[simp] theorem exec_sofs (o) (s : State) : exec (.sofs o) s = execSofs o s := rfl
@[simp] theorem exec_sofsImm (o) (s : State) : exec (.sofsImm o) s = execSofsImm o s := rfl
@[simp] theorem exec_mand (o) (s : State) : exec (.mand o) s = execMand o s := rfl
@[simp] theorem exec_mor (o) (s : State) : exec (.mor o) s = execMor o s := rfl
@[simp] theorem exec_mxor (o) (s : State) : exec (.mxor o) s = execMxor o s := rfl
@[simp] theorem exec_mandn (o) (s : State) : exec (.mandn o) s = execMandn o s := rfl
@[simp] theorem exec_mnot (o) (s : State) : exec (.mnot o) s = execMnot o s := rfl
@[simp] theorem exec_mmov (o) (s : State) : exec (.mmov o) s = execMmov o s := rfl
@[simp] theorem exec_mmovImm64 (o) (s : State) : exec (.mmovImm64 o) s = execMmovImm64 o s := rfl
@[simp] theorem exec_mrdem (o) (s : State) : exec (.mrdem o) s = execMrdem o s := rfl
@[simp] theorem exec_mwrem (o) (s : State) : exec (.mwrem o) s = execMwrem o s := rfl
@[simp] theorem exec_mpopc (o) (s : State) : exec (.mpopc o) s = execMpopc o s := rfl
@[simp] theorem exec_mffs (o) (s : State) : exec (.mffs o) s = execMffs o s := rfl
@[simp] theorem exec_mfroms (o) (s : State) : exec (.mfroms o) s = execMfroms o s := rfl
@[simp] theorem exec_mtos (o) (s : State) : exec (.mtos o) s = execMtos o s := rfl
@[simp] theorem exec_br (o) (s : State) : exec (.br o) s = execBr o s := rfl
@[simp] theorem exec_brmz (o) (s : State) : exec (.brmz o) s = execBrmz o s := rfl
@[simp] theorem exec_brmnz (o) (s : State) : exec (.brmnz o) s = execBrmnz o s := rfl
@[simp] theorem exec_call (o) (s : State) : exec (.call o) s = execCall o s := rfl
@[simp] theorem exec_ret (o) (s : State) : exec (.ret o) s = execRet o s := rfl
@[simp] theorem exec_jmp (o) (s : State) : exec (.jmp o) s = execJmp o s := rfl
@[simp] theorem exec_srd (o) (s : State) : exec (.srd o) s = execSrd o s := rfl
@[simp] theorem exec_swr (o) (s : State) : exec (.swr o) s = execSwr o s := rfl
@[simp] theorem exec_safept (o) (s : State) : exec (.safept o) s = execSafept o s := rfl
@[simp] theorem exec_exit (sw) (s : State) : exec (.exit sw) s = execExit sw s := rfl
@[simp] theorem exec_sbwait (o) (s : State) : exec (.sbwait o) s = execSbwait o s := rfl
@[simp] theorem exec_sbmark (o) (s : State) : exec (.sbmark o) s = execSbmark o s := rfl
@[simp] theorem exec_trap (o) (s : State) : exec (.trap o) s = execTrap o s := rfl
@[simp] theorem exec_tret (sw) (s : State) : exec (.tret sw) s = execTret sw s := rfl
@[simp] theorem exec_tretReg (o) (s : State) : exec (.tretReg o) s = execTretReg o s := rfl
@[simp] theorem exec_brk (sw) (s : State) : exec (.brk sw) s = execBrk sw s := rfl
@[simp] theorem exec_vadd (o) (s : State) : exec (.vadd o) s = execVadd o s := rfl
@[simp] theorem exec_vaddImm (o) (s : State) : exec (.vaddImm o) s = execVaddImm o s := rfl
@[simp] theorem exec_vsub (o) (s : State) : exec (.vsub o) s = execVsub o s := rfl
@[simp] theorem exec_vsubImm (o) (s : State) : exec (.vsubImm o) s = execVsubImm o s := rfl
@[simp] theorem exec_vmul (o) (s : State) : exec (.vmul o) s = execVmul o s := rfl
@[simp] theorem exec_vmulImm (o) (s : State) : exec (.vmulImm o) s = execVmulImm o s := rfl
@[simp] theorem exec_vmulh (o) (s : State) : exec (.vmulh o) s = execVmulh o s := rfl
@[simp] theorem exec_vmulhImm (o) (s : State) : exec (.vmulhImm o) s = execVmulhImm o s := rfl
@[simp] theorem exec_vmad (o) (s : State) : exec (.vmad o) s = execVmad o s := rfl
@[simp] theorem exec_vmadImm (o) (s : State) : exec (.vmadImm o) s = execVmadImm o s := rfl
@[simp] theorem exec_vdiv (o) (s : State) : exec (.vdiv o) s = execVdiv o s := rfl
@[simp] theorem exec_vdivImm (o) (s : State) : exec (.vdivImm o) s = execVdivImm o s := rfl
@[simp] theorem exec_vrem (o) (s : State) : exec (.vrem o) s = execVrem o s := rfl
@[simp] theorem exec_vremImm (o) (s : State) : exec (.vremImm o) s = execVremImm o s := rfl
@[simp] theorem exec_vmin (o) (s : State) : exec (.vmin o) s = execVmin o s := rfl
@[simp] theorem exec_vminImm (o) (s : State) : exec (.vminImm o) s = execVminImm o s := rfl
@[simp] theorem exec_vmax (o) (s : State) : exec (.vmax o) s = execVmax o s := rfl
@[simp] theorem exec_vmaxImm (o) (s : State) : exec (.vmaxImm o) s = execVmaxImm o s := rfl
@[simp] theorem exec_vabs (o) (s : State) : exec (.vabs o) s = execVabs o s := rfl
@[simp] theorem exec_vneg (o) (s : State) : exec (.vneg o) s = execVneg o s := rfl
@[simp] theorem exec_vand (o) (s : State) : exec (.vand o) s = execVand o s := rfl
@[simp] theorem exec_vandImm (o) (s : State) : exec (.vandImm o) s = execVandImm o s := rfl
@[simp] theorem exec_vor (o) (s : State) : exec (.vor o) s = execVor o s := rfl
@[simp] theorem exec_vorImm (o) (s : State) : exec (.vorImm o) s = execVorImm o s := rfl
@[simp] theorem exec_vxor (o) (s : State) : exec (.vxor o) s = execVxor o s := rfl
@[simp] theorem exec_vxorImm (o) (s : State) : exec (.vxorImm o) s = execVxorImm o s := rfl
@[simp] theorem exec_vnot (o) (s : State) : exec (.vnot o) s = execVnot o s := rfl
@[simp] theorem exec_vshl (o) (s : State) : exec (.vshl o) s = execVshl o s := rfl
@[simp] theorem exec_vshlImm (o) (s : State) : exec (.vshlImm o) s = execVshlImm o s := rfl
@[simp] theorem exec_vshr (o) (s : State) : exec (.vshr o) s = execVshr o s := rfl
@[simp] theorem exec_vshrImm (o) (s : State) : exec (.vshrImm o) s = execVshrImm o s := rfl
@[simp] theorem exec_vsra (o) (s : State) : exec (.vsra o) s = execVsra o s := rfl
@[simp] theorem exec_vsraImm (o) (s : State) : exec (.vsraImm o) s = execVsraImm o s := rfl
@[simp] theorem exec_vclz (o) (s : State) : exec (.vclz o) s = execVclz o s := rfl
@[simp] theorem exec_vpopc (o) (s : State) : exec (.vpopc o) s = execVpopc o s := rfl
@[simp] theorem exec_vsel (o) (s : State) : exec (.vsel o) s = execVsel o s := rfl
@[simp] theorem exec_vcmp (o) (s : State) : exec (.vcmp o) s = execVcmp o s := rfl
@[simp] theorem exec_vcmpImm (o) (s : State) : exec (.vcmpImm o) s = execVcmpImm o s := rfl
@[simp] theorem exec_vmov (o) (s : State) : exec (.vmov o) s = execVmov o s := rfl
@[simp] theorem exec_vmovs (o) (s : State) : exec (.vmovs o) s = execVmovs o s := rfl
@[simp] theorem exec_vfadd (o) (s : State) : exec (.vfadd o) s = execVfadd o s := rfl
@[simp] theorem exec_vfaddImm (o) (s : State) : exec (.vfaddImm o) s = execVfaddImm o s := rfl
@[simp] theorem exec_vfsub (o) (s : State) : exec (.vfsub o) s = execVfsub o s := rfl
@[simp] theorem exec_vfsubImm (o) (s : State) : exec (.vfsubImm o) s = execVfsubImm o s := rfl
@[simp] theorem exec_vfmul (o) (s : State) : exec (.vfmul o) s = execVfmul o s := rfl
@[simp] theorem exec_vfmulImm (o) (s : State) : exec (.vfmulImm o) s = execVfmulImm o s := rfl
@[simp] theorem exec_vffma (o) (s : State) : exec (.vffma o) s = execVffma o s := rfl
@[simp] theorem exec_vffmaImm (o) (s : State) : exec (.vffmaImm o) s = execVffmaImm o s := rfl
@[simp] theorem exec_vfmin (o) (s : State) : exec (.vfmin o) s = execVfmin o s := rfl
@[simp] theorem exec_vfminImm (o) (s : State) : exec (.vfminImm o) s = execVfminImm o s := rfl
@[simp] theorem exec_vfmax (o) (s : State) : exec (.vfmax o) s = execVfmax o s := rfl
@[simp] theorem exec_vfmaxImm (o) (s : State) : exec (.vfmaxImm o) s = execVfmaxImm o s := rfl
@[simp] theorem exec_vfabs (o) (s : State) : exec (.vfabs o) s = execVfabs o s := rfl
@[simp] theorem exec_vfneg (o) (s : State) : exec (.vfneg o) s = execVfneg o s := rfl
@[simp] theorem exec_vfcmp (o) (s : State) : exec (.vfcmp o) s = execVfcmp o s := rfl
@[simp] theorem exec_vfcmpImm (o) (s : State) : exec (.vfcmpImm o) s = execVfcmpImm o s := rfl
@[simp] theorem exec_vcvt (o) (s : State) : exec (.vcvt o) s = execVcvt o s := rfl
@[simp] theorem exec_vex2 (o) (s : State) : exec (.vex2 o) s = execVex2 o s := rfl
@[simp] theorem exec_vlg2 (o) (s : State) : exec (.vlg2 o) s = execVlg2 o s := rfl
@[simp] theorem exec_vrcp (o) (s : State) : exec (.vrcp o) s = execVrcp o s := rfl
@[simp] theorem exec_vrsq (o) (s : State) : exec (.vrsq o) s = execVrsq o s := rfl
@[simp] theorem exec_vsqrt (o) (s : State) : exec (.vsqrt o) s = execVsqrt o s := rfl
@[simp] theorem exec_vfdiv (o) (s : State) : exec (.vfdiv o) s = execVfdiv o s := rfl
@[simp] theorem exec_vperm (o) (s : State) : exec (.vperm o) s = execVperm o s := rfl
@[simp] theorem exec_vbcast (o) (s : State) : exec (.vbcast o) s = execVbcast o s := rfl
@[simp] theorem exec_vscan (o) (s : State) : exec (.vscan o) s = execVscan o s := rfl
@[simp] theorem exec_vred (o) (s : State) : exec (.vred o) s = execVred o s := rfl
@[simp] theorem exec_vtopk (o) (s : State) : exec (.vtopk o) s = execVtopk o s := rfl
@[simp] theorem exec_vhist (o) (s : State) : exec (.vhist o) s = execVhist o s := rfl
@[simp] theorem exec_vdraw (o) (s : State) : exec (.vdraw o) s = execVdraw o s := rfl
@[simp] theorem exec_dmerge (o) (s : State) : exec (.dmerge o) s = execDmerge o s := rfl
@[simp] theorem exec_wclr (h) (s : State) : exec (.wclr h) s = execWclr h s := rfl
@[simp] theorem exec_wadd (o) (s : State) : exec (.wadd o) s = execWadd o s := rfl
@[simp] theorem exec_wdot (o) (s : State) : exec (.wdot o) s = execWdot o s := rfl
@[simp] theorem exec_wrnd (o) (s : State) : exec (.wrnd o) s = execWrnd o s := rfl
@[simp] theorem exec_wget (o) (s : State) : exec (.wget o) s = execWget o s := rfl
@[simp] theorem exec_wset (o) (s : State) : exec (.wset o) s = execWset o s := rfl
@[simp] theorem exec_vld (o) (s : State) : exec (.vld o) s = execVld o s := rfl
@[simp] theorem exec_vst (o) (s : State) : exec (.vst o) s = execVst o s := rfl
@[simp] theorem exec_vatom (o) (s : State) : exec (.vatom o) s = execVatom o s := rfl
@[simp] theorem exec_vlds (o) (s : State) : exec (.vlds o) s = execVlds o s := rfl
@[simp] theorem exec_vsts (o) (s : State) : exec (.vsts o) s = execVsts o s := rfl
@[simp] theorem exec_vatoms (o) (s : State) : exec (.vatoms o) s = execVatoms o s := rfl
@[simp] theorem exec_tld (o) (s : State) : exec (.tld o) s = execTld o s := rfl
@[simp] theorem exec_tst (o) (s : State) : exec (.tst o) s = execTst o s := rfl
@[simp] theorem exec_vprefL1 (o) (s : State) : exec (.vprefL1 o) s = execVprefL1 o s := rfl
@[simp] theorem exec_vprefLlc (o) (s : State) : exec (.vprefLlc o) s = execVprefLlc o s := rfl
@[simp] theorem exec_bset (o) (s : State) : exec (.bset o) s = execBset o s := rfl
@[simp] theorem exec_phaseBlk (h) (s : State) : exec (.phaseBlk h) s = execPhaseBlk h s := rfl
@[simp] theorem exec_phaseDie (h) (s : State) : exec (.phaseDie h) s = execPhaseDie h s := rfl
@[simp] theorem exec_claim (o) (s : State) : exec (.claim o) s = execClaim o s := rfl
@[simp] theorem exec_tcopy (o) (s : State) : exec (.tcopy o) s = execTcopy o s := rfl
@[simp] theorem exec_twait (o) (s : State) : exec (.twait o) s = execTwait o s := rfl
@[simp] theorem exec_twaitImm (o) (s : State) : exec (.twaitImm o) s = execTwaitImm o s := rfl
@[simp] theorem exec_tlrd (o) (s : State) : exec (.tlrd o) s = execTlrd o s := rfl
@[simp] theorem exec_tcset (o) (s : State) : exec (.tcset o) s = execTcset o s := rfl
@[simp] theorem exec_tzero (o) (s : State) : exec (.tzero o) s = execTzero o s := rfl
@[simp] theorem exec_tmma (o) (s : State) : exec (.tmma o) s = execTmma o s := rfl
@[simp] theorem exec_tmmaSparse (o) (s : State) : exec (.tmmaSparse o) s = execTmmaSparse o s := rfl
@[simp] theorem exec_tconv (o) (s : State) : exec (.tconv o) s = execTconv o s := rfl
@[simp] theorem exec_tdraw (o) (s : State) : exec (.tdraw o) s = execTdraw o s := rfl
@[simp] theorem exec_tmovTv (o) (s : State) : exec (.tmovTv o) s = execTmovTv o s := rfl
@[simp] theorem exec_tmovVt (o) (s : State) : exec (.tmovVt o) s = execTmovVt o s := rfl
@[simp] theorem exec_xlook (o) (s : State) : exec (.xlook o) s = execXlook o s := rfl
@[simp] theorem exec_xlookHold (o) (s : State) : exec (.xlookHold o) s = execXlookHold o s := rfl
@[simp] theorem exec_xdrop (o) (s : State) : exec (.xdrop o) s = execXdrop o s := rfl
@[simp] theorem exec_xpark (o) (s : State) : exec (.xpark o) s = execXpark o s := rfl
@[simp] theorem exec_xfetch (o) (s : State) : exec (.xfetch o) s = execXfetch o s := rfl
@[simp] theorem exec_xpin (o) (s : State) : exec (.xpin o) s = execXpin o s := rfl
@[simp] theorem exec_xunpin (o) (s : State) : exec (.xunpin o) s = execXunpin o s := rfl
@[simp] theorem exec_xstat (o) (s : State) : exec (.xstat o) s = execXstat o s := rfl
@[simp] theorem exec_qres (o) (s : State) : exec (.qres o) s = execQres o s := rfl
@[simp] theorem exec_qput (o) (s : State) : exec (.qput o) s = execQput o s := rfl
@[simp] theorem exec_qpush (o) (s : State) : exec (.qpush o) s = execQpush o s := rfl
@[simp] theorem exec_qget (o) (s : State) : exec (.qget o) s = execQget o s := rfl
@[simp] theorem exec_qpeek (o) (s : State) : exec (.qpeek o) s = execQpeek o s := rfl
@[simp] theorem exec_qcount (o) (s : State) : exec (.qcount o) s = execQcount o s := rfl
@[simp] theorem exec_qsleep (o) (s : State) : exec (.qsleep o) s = execQsleep o s := rfl
@[simp] theorem exec_qwake (o) (s : State) : exec (.qwake o) s = execQwake o s := rfl
@[simp] theorem exec_qrel (o) (s : State) : exec (.qrel o) s = execQrel o s := rfl
@[simp] theorem exec_qrelMrg (o) (s : State) : exec (.qrelMrg o) s = execQrelMrg o s := rfl
@[simp] theorem exec_qfence (h) (s : State) : exec (.qfence h) s = execQfence h s := rfl
@[simp] theorem exec_qmerge (o) (s : State) : exec (.qmerge o) s = execQmerge o s := rfl
@[simp] theorem exec_qscatter (o) (s : State) : exec (.qscatter o) s = execQscatter o s := rfl
@[simp] theorem exec_qcurrd (o) (s : State) : exec (.qcurrd o) s = execQcurrd o s := rfl
@[simp] theorem exec_qcurwr (o) (s : State) : exec (.qcurwr o) s = execQcurwr o s := rfl
@[simp] theorem exec_qsysRes (o) (s : State) : exec (.qsysRes o) s = execQsysRes o s := rfl
@[simp] theorem exec_qsysPut (o) (s : State) : exec (.qsysPut o) s = execQsysPut o s := rfl
@[simp] theorem exec_qsysPush (o) (s : State) : exec (.qsysPush o) s = execQsysPush o s := rfl
@[simp] theorem exec_qsysGet (o) (s : State) : exec (.qsysGet o) s = execQsysGet o s := rfl
@[simp] theorem exec_qsysPeek (o) (s : State) : exec (.qsysPeek o) s = execQsysPeek o s := rfl
@[simp] theorem exec_qsysCount (o) (s : State) : exec (.qsysCount o) s = execQsysCount o s := rfl
@[simp] theorem exec_qsysSleep (o) (s : State) : exec (.qsysSleep o) s = execQsysSleep o s := rfl
@[simp] theorem exec_qsysWake (o) (s : State) : exec (.qsysWake o) s = execQsysWake o s := rfl
@[simp] theorem exec_qsysRel (o) (s : State) : exec (.qsysRel o) s = execQsysRel o s := rfl
@[simp] theorem exec_qsysFence (h) (s : State) : exec (.qsysFence h) s = execQsysFence h s := rfl
@[simp] theorem exec_qsysMerge (o) (s : State) : exec (.qsysMerge o) s = execQsysMerge o s := rfl
@[simp] theorem exec_reset (s : State) : exec .reset s = execReset s := rfl
@[simp] theorem exec_lehrStageAEnd (s : State) : exec .lehrStageAEnd s = execLehrStageAEnd s := rfl
@[simp] theorem exec_socketBringUp (s : State) : exec .socketBringUp s = execSocketBringUp s := rfl
@[simp] theorem exec_stageCWipeEnd (s : State) : exec .stageCWipeEnd s = execStageCWipeEnd s := rfl
@[simp] theorem exec_clusterWake (s : State) : exec .clusterWake s = execClusterWake s := rfl
@[simp] theorem exec_clusterWakeRequest (s : State) : exec .clusterWakeRequest s = execClusterWakeRequest s := rfl
@[simp] theorem exec_clusterGate (s : State) : exec .clusterGate s = execClusterGate s := rfl
@[simp] theorem exec_hostConfigRequest (s : State) : exec .hostConfigRequest s = execHostConfigRequest s := rfl
@[simp] theorem exec_dievfReqWrite (s : State) : exec .dievfReqWrite s = execDievfReqWrite s := rfl
@[simp] theorem exec_powerStepDown (s : State) : exec .powerStepDown s = execPowerStepDown s := rfl
@[simp] theorem exec_powerStepUp (s : State) : exec .powerStepUp s = execPowerStepUp s := rfl
@[simp] theorem exec_thermalThrottle (s : State) : exec .thermalThrottle s = execThermalThrottle s := rfl
@[simp] theorem exec_thermalRecover (s : State) : exec .thermalRecover s = execThermalRecover s := rfl
@[simp] theorem exec_thermalTrip (s : State) : exec .thermalTrip s = execThermalTrip s := rfl
@[simp] theorem exec_thermrecWrite (s : State) : exec .thermrecWrite s = execThermrecWrite s := rfl
@[simp] theorem exec_homeFailure (s : State) : exec .homeFailure s = execHomeFailure s := rfl
@[simp] theorem exec_objectEvacuate (s : State) : exec .objectEvacuate s = execObjectEvacuate s := rfl
@[simp] theorem exec_qttShootdown (s : State) : exec .qttShootdown s = execQttShootdown s := rfl
@[simp] theorem exec_queueCreate (s : State) : exec .queueCreate s = execQueueCreate s := rfl
@[simp] theorem exec_queueClose (s : State) : exec .queueClose s = execQueueClose s := rfl
@[simp] theorem exec_queueDestroy (s : State) : exec .queueDestroy s = execQueueDestroy s := rfl
@[simp] theorem exec_queueForce (s : State) : exec .queueForce s = execQueueForce s := rfl
@[simp] theorem exec_queueReserve (s : State) : exec .queueReserve s = execQueueReserve s := rfl
@[simp] theorem exec_queueWrite (s : State) : exec .queueWrite s = execQueueWrite s := rfl
@[simp] theorem exec_queuePush (s : State) : exec .queuePush s = execQueuePush s := rfl
@[simp] theorem exec_queueDequeue (s : State) : exec .queueDequeue s = execQueueDequeue s := rfl
@[simp] theorem exec_queuePeek (s : State) : exec .queuePeek s = execQueuePeek s := rfl
@[simp] theorem exec_queueCount (s : State) : exec .queueCount s = execQueueCount s := rfl
@[simp] theorem exec_queueSleep (s : State) : exec .queueSleep s = execQueueSleep s := rfl
@[simp] theorem exec_queueWake (s : State) : exec .queueWake s = execQueueWake s := rfl
@[simp] theorem exec_sleeperWithdraw (s : State) : exec .sleeperWithdraw s = execSleeperWithdraw s := rfl
@[simp] theorem exec_queueRelease (s : State) : exec .queueRelease s = execQueueRelease s := rfl
@[simp] theorem exec_mergeRelease (s : State) : exec .mergeRelease s = execMergeRelease s := rfl
@[simp] theorem exec_marverEvictionArrival (s : State) : exec .marverEvictionArrival s = execMarverEvictionArrival s := rfl
@[simp] theorem exec_roundClose (s : State) : exec .roundClose s = execRoundClose s := rfl
@[simp] theorem exec_sleeperParkRetry (s : State) : exec .sleeperParkRetry s = execSleeperParkRetry s := rfl
@[simp] theorem exec_replyReceive (s : State) : exec .replyReceive s = execReplyReceive s := rfl
@[simp] theorem exec_wakeReceive (s : State) : exec .wakeReceive s = execWakeReceive s := rfl
@[simp] theorem exec_linkTraining (s : State) : exec .linkTraining s = execLinkTraining s := rfl
@[simp] theorem exec_fabcfgWrite (s : State) : exec .fabcfgWrite s = execFabcfgWrite s := rfl
@[simp] theorem exec_messageAdmit (s : State) : exec .messageAdmit s = execMessageAdmit s := rfl
@[simp] theorem exec_switchForward (s : State) : exec .switchForward s = execSwitchForward s := rfl
@[simp] theorem exec_frameReceive (s : State) : exec .frameReceive s = execFrameReceive s := rfl
@[simp] theorem exec_authFailLinkDown (s : State) : exec .authFailLinkDown s = execAuthFailLinkDown s := rfl
@[simp] theorem exec_ackSend (s : State) : exec .ackSend s = execAckSend s := rfl
@[simp] theorem exec_ackReceive (s : State) : exec .ackReceive s = execAckReceive s := rfl
@[simp] theorem exec_retransmitTimeout (s : State) : exec .retransmitTimeout s = execRetransmitTimeout s := rfl
@[simp] theorem exec_flushArrival (s : State) : exec .flushArrival s = execFlushArrival s := rfl
@[simp] theorem exec_flushackReceive (s : State) : exec .flushackReceive s = execFlushackReceive s := rfl
@[simp] theorem exec_flushRetransmit (s : State) : exec .flushRetransmit s = execFlushRetransmit s := rfl
@[simp] theorem exec_rateTick (s : State) : exec .rateTick s = execRateTick s := rfl
@[simp] theorem exec_unreachableDeclare (s : State) : exec .unreachableDeclare s = execUnreachableDeclare s := rfl
@[simp] theorem exec_fabunrWrite (s : State) : exec .fabunrWrite s = execFabunrWrite s := rfl
@[simp] theorem exec_flowresetRequest (s : State) : exec .flowresetRequest s = execFlowresetRequest s := rfl
@[simp] theorem exec_flowresetAnswer (s : State) : exec .flowresetAnswer s = execFlowresetAnswer s := rfl
@[simp] theorem exec_flowresetRetry (s : State) : exec .flowresetRetry s = execFlowresetRetry s := rfl
@[simp] theorem exec_keyInstall (s : State) : exec .keyInstall s = execKeyInstall s := rfl
@[simp] theorem exec_keySwitch (s : State) : exec .keySwitch s = execKeySwitch s := rfl
@[simp] theorem exec_keyRetire (s : State) : exec .keyRetire s = execKeyRetire s := rfl
@[simp] theorem exec_frameCounterExhaust (s : State) : exec .frameCounterExhaust s = execFrameCounterExhaust s := rfl
@[simp] theorem exec_linkFailure (s : State) : exec .linkFailure s = execLinkFailure s := rfl
@[simp] theorem exec_flnkDisableWrite (s : State) : exec .flnkDisableWrite s = execFlnkDisableWrite s := rfl
@[simp] theorem exec_accessTableWrite (s : State) : exec .accessTableWrite s = execAccessTableWrite s := rfl
@[simp] theorem exec_lockInterface (s : State) : exec .lockInterface s = execLockInterface s := rfl
@[simp] theorem exec_startInterface (s : State) : exec .startInterface s = execStartInterface s := rfl
@[simp] theorem exec_stopInterface (s : State) : exec .stopInterface s = execStopInterface s := rfl
@[simp] theorem exec_getInterfaceReport (s : State) : exec .getInterfaceReport s = execGetInterfaceReport s := rfl
@[simp] theorem exec_tenantWipe (s : State) : exec .tenantWipe s = execTenantWipe s := rfl
@[simp] theorem exec_bindingWrite (s : State) : exec .bindingWrite s = execBindingWrite s := rfl
@[simp] theorem exec_apertureDoorbell (s : State) : exec .apertureDoorbell s = execApertureDoorbell s := rfl
@[simp] theorem exec_apertureStatus (s : State) : exec .apertureStatus s = execApertureStatus s := rfl
@[simp] theorem exec_windowAccess (s : State) : exec .windowAccess s = execWindowAccess s := rfl
@[simp] theorem exec_asidnew (s : State) : exec .asidnew s = execAsidnew s := rfl
@[simp] theorem exec_asidfree (s : State) : exec .asidfree s = execAsidfree s := rfl
@[simp] theorem exec_objnew (s : State) : exec .objnew s = execObjnew s := rfl
@[simp] theorem exec_objfree (s : State) : exec .objfree s = execObjfree s := rfl
@[simp] theorem exec_qnew (s : State) : exec .qnew s = execQnew s := rfl
@[simp] theorem exec_qfree (s : State) : exec .qfree s = execQfree s := rfl
@[simp] theorem exec_handles (s : State) : exec .handles s = execHandles s := rfl
@[simp] theorem exec_getVersion (s : State) : exec .getVersion s = execGetVersion s := rfl
@[simp] theorem exec_getCapabilities (s : State) : exec .getCapabilities s = execGetCapabilities s := rfl
@[simp] theorem exec_negotiateAlgorithms (s : State) : exec .negotiateAlgorithms s = execNegotiateAlgorithms s := rfl
@[simp] theorem exec_getDigests (s : State) : exec .getDigests s = execGetDigests s := rfl
@[simp] theorem exec_getCertificate (s : State) : exec .getCertificate s = execGetCertificate s := rfl
@[simp] theorem exec_challenge (s : State) : exec .challenge s = execChallenge s := rfl
@[simp] theorem exec_getMeasurements (s : State) : exec .getMeasurements s = execGetMeasurements s := rfl
@[simp] theorem exec_keyExchange (s : State) : exec .keyExchange s = execKeyExchange s := rfl
@[simp] theorem exec_finish (s : State) : exec .finish s = execFinish s := rfl
@[simp] theorem exec_keyUpdate (s : State) : exec .keyUpdate s = execKeyUpdate s := rfl
@[simp] theorem exec_endSession (s : State) : exec .endSession s = execEndSession s := rfl
@[simp] theorem exec_keyProg (s : State) : exec .keyProg s = execKeyProg s := rfl
@[simp] theorem exec_provision (s : State) : exec .provision s = execProvision s := rfl
@[simp] theorem exec_deploy (s : State) : exec .deploy s = execDeploy s := rfl
@[simp] theorem exec_undeploy (s : State) : exec .undeploy s = execUndeploy s := rfl
@[simp] theorem exec_returnModule (s : State) : exec .returnModule s = execReturnModule s := rfl
@[simp] theorem exec_fwstage (s : State) : exec .fwstage s = execFwstage s := rfl
@[simp] theorem exec_mbReset (s : State) : exec .mbReset s = execMbReset s := rfl
@[simp] theorem exec_dieoff (s : State) : exec .dieoff s = execDieoff s := rfl
@[simp] theorem exec_mbnonceRead (s : State) : exec .mbnonceRead s = execMbnonceRead s := rfl
@[simp] theorem exec_tierQuotaWrite (s : State) : exec .tierQuotaWrite s = execTierQuotaWrite s := rfl
@[simp] theorem exec_atsInvalidation (s : State) : exec .atsInvalidation s = execAtsInvalidation s := rfl
@[simp] theorem exec_pageResponse (s : State) : exec .pageResponse s = execPageResponse s := rfl
@[simp] theorem exec_farTierTimeout (s : State) : exec .farTierTimeout s = execFarTierTimeout s := rfl
@[simp] theorem exec_farTierLinkDown (s : State) : exec .farTierLinkDown s = execFarTierLinkDown s := rfl
@[simp] theorem exec_startElementConsume (s : State) : exec .startElementConsume s = execStartElementConsume s := rfl
@[simp] theorem exec_blockClaim (s : State) : exec .blockClaim s = execBlockClaim s := rfl
@[simp] theorem exec_drrBind (s : State) : exec .drrBind s = execDrrBind s := rfl
@[simp] theorem exec_preemptDecision (s : State) : exec .preemptDecision s = execPreemptDecision s := rfl
@[simp] theorem exec_bindRecordWrite (s : State) : exec .bindRecordWrite s = execBindRecordWrite s := rfl
@[simp] theorem exec_preempt (s : State) : exec .preempt s = execPreempt s := rfl
@[simp] theorem exec_killblk (s : State) : exec .killblk s = execKillblk s := rfl
@[simp] theorem exec_killgrp (s : State) : exec .killgrp s = execKillgrp s := rfl
@[simp] theorem exec_resumegrp (s : State) : exec .resumegrp s = execResumegrp s := rfl
@[simp] theorem exec_drainComplete (s : State) : exec .drainComplete s = execDrainComplete s := rfl
@[simp] theorem exec_saveComplete (s : State) : exec .saveComplete s = execSaveComplete s := rfl
@[simp] theorem exec_blockRetire (s : State) : exec .blockRetire s = execBlockRetire s := rfl
@[simp] theorem exec_eventRingHeadWrite (s : State) : exec .eventRingHeadWrite s = execEventRingHeadWrite s := rfl
@[simp] theorem exec_retiredEvent (s : State) : exec .retiredEvent s = execRetiredEvent s := rfl
@[simp] theorem exec_faultEvent (s : State) : exec .faultEvent s = execFaultEvent s := rfl
@[simp] theorem exec_watchdogExpiry (s : State) : exec .watchdogExpiry s = execWatchdogExpiry s := rfl
@[simp] theorem exec_gangstart (s : State) : exec .gangstart s = execGangstart s := rfl
@[simp] theorem exec_gangAck (s : State) : exec .gangAck s = execGangAck s := rfl
@[simp] theorem exec_gangTimeout (s : State) : exec .gangTimeout s = execGangTimeout s := rfl
@[simp] theorem exec_gangDone (s : State) : exec .gangDone s = execGangDone s := rfl
@[simp] theorem exec_gangabort (s : State) : exec .gangabort s = execGangabort s := rfl
@[simp] theorem exec_gangFinalStatus (s : State) : exec .gangFinalStatus s = execGangFinalStatus s := rfl
@[simp] theorem exec_register (s : State) : exec .register s = execRegister s := rfl
@[simp] theorem exec_unregister (s : State) : exec .unregister s = execUnregister s := rfl
@[simp] theorem exec_split (s : State) : exec .split s = execSplit s := rfl
@[simp] theorem exec_unsplit (s : State) : exec .unsplit s = execUnsplit s := rfl
@[simp] theorem exec_evict (s : State) : exec .evict s = execEvict s := rfl
@[simp] theorem exec_pool (s : State) : exec .pool s = execPool s := rfl
@[simp] theorem exec_fetchFrameTake (s : State) : exec .fetchFrameTake s = execFetchFrameTake s := rfl
@[simp] theorem exec_evictionDone (s : State) : exec .evictionDone s = execEvictionDone s := rfl
@[simp] theorem exec_fetchLanding (s : State) : exec .fetchLanding s = execFetchLanding s := rfl
@[simp] theorem exec_resultReturn (s : State) : exec .resultReturn s = execResultReturn s := rfl
@[simp] theorem exec_faultResolve (s : State) : exec .faultResolve s = execFaultResolve s := rfl
@[simp] theorem exec_translationShootdown (s : State) : exec .translationShootdown s = execTranslationShootdown s := rfl
@[simp] theorem exec_claimServe (s : State) : exec .claimServe s = execClaimServe s := rfl
@[simp] theorem exec_clusterFuse (s : State) : exec .clusterFuse s = execClusterFuse s := rfl
@[simp] theorem exec_copyComplete (s : State) : exec .copyComplete s = execCopyComplete s := rfl
@[simp] theorem exec_dispatchComplete (s : State) : exec .dispatchComplete s = execDispatchComplete s := rfl
@[simp] theorem exec_scrub (s : State) : exec .scrub s = execScrub s := rfl
@[simp] theorem exec_uncorrectableError (s : State) : exec .uncorrectableError s = execUncorrectableError s := rfl
@[simp] theorem exec_sampleExpiry (s : State) : exec .sampleExpiry s = execSampleExpiry s := rfl
@[simp] theorem exec_smpcfgWrite (s : State) : exec .smpcfgWrite s = execSmpcfgWrite s := rfl
@[simp] theorem exec_fdrbaseWrite (s : State) : exec .fdrbaseWrite s = execFdrbaseWrite s := rfl
@[simp] theorem exec_dbgctlHaltWrite (s : State) : exec .dbgctlHaltWrite s = execDbgctlHaltWrite s := rfl
@[simp] theorem exec_imgloadWrite (s : State) : exec .imgloadWrite s = execImgloadWrite s := rfl
@[simp] theorem exec_imageLoad (s : State) : exec .imageLoad s = execImageLoad s := rfl
@[simp] theorem exec_registerWrite (s : State) : exec .registerWrite s = execRegisterWrite s := rfl
@[simp] theorem exec_frameAlignmentLoss (s : State) : exec .frameAlignmentLoss s = execFrameAlignmentLoss s := rfl
@[simp] theorem exec_farTierLinkUp (s : State) : exec .farTierLinkUp s = execFarTierLinkUp s := rfl
@[simp] theorem exec_tileInstructionRetire (s : State) : exec .tileInstructionRetire s = execTileInstructionRetire s := rfl
@[simp] theorem exec_copyChunk (s : State) : exec .copyChunk s = execCopyChunk s := rfl
@[simp] theorem exec_publishLineAccept (s : State) : exec .publishLineAccept s = execPublishLineAccept s := rfl
@[simp] theorem exec_atomicPerform (s : State) : exec .atomicPerform s = execAtomicPerform s := rfl

end Sys2Proof.Machine
end

