-- ==== Sys2Proof/Laws/State.lean ====
section
/-! SUPPORT. The small laws of State: reading a table after writing it, and what each update of a part leaves as it was. -/
namespace Sys2Proof.Machine

/-! ### Tables -/

@[simp] theorem tget_tset_same {α : Type} (t : Tbl α) (k : Nat) (v d : α) : tget (tset t k v) k d = v := by
  induction t with
  | nil => simp [tset, tget]
  | cons e r ih =>
    obtain ⟨k', v'⟩ := e
    by_cases h : k' = k <;> simp [tset, tget, h, ih]

/-- What holds of every entry of a table and of its default holds of whatever a key reads. -/
theorem tget_all {α : Type} {P : α → Prop} {t : Tbl α} {d : α} (h : ∀ e ∈ t, P e.2) (hd : P d) (k : Nat) : P (tget t k d) := by
  induction t with
  | nil => exact hd
  | cons e r ih =>
    simp only [tget]
    split
    · exact h e (List.mem_cons_self ..)
    · exact ih fun x hx => h x (List.mem_cons_of_mem _ hx)

theorem tget_tset_ne {α : Type} (t : Tbl α) {k j : Nat} (h : j ≠ k) (v d : α) : tget (tset t k v) j d = tget t j d := by
  induction t with
  | nil => simp [tset, tget, Ne.symm h]
  | cons e r ih =>
    obtain ⟨k', v'⟩ := e
    by_cases hk : k' = k
    · subst hk
      simp [tset, tget, Ne.symm h]
    · by_cases hj : k' = j <;> simp [tset, tget, hk, hj, h, ih]

theorem tset_tset_same {α : Type} (t : Tbl α) (k : Nat) (v w : α) : tset (tset t k v) k w = tset t k w := by
  induction t with
  | nil => simp [tset]
  | cons e r ih =>
    obtain ⟨k', v'⟩ := e
    by_cases hk : k' = k <;> simp [tset, hk, ih]

@[simp] theorem flowGet_flowSet_same (t : List (Flow × FlowState)) (f : Flow) (x : FlowState) :
    flowGet (flowSet t f x) f = x := by
  induction t with
  | nil => simp [flowSet, flowGet]
  | cons e r ih =>
    obtain ⟨f', y⟩ := e
    by_cases h : f' = f <;> simp [flowSet, flowGet, h, ih]

theorem flowGet_flowSet_ne (t : List (Flow × FlowState)) {f g : Flow} (h : g ≠ f) (x : FlowState) :
    flowGet (flowSet t f x) g = flowGet t g := by
  induction t with
  | nil => simp [flowSet, flowGet, Ne.symm h]
  | cons e r ih =>
    obtain ⟨f', y⟩ := e
    by_cases hf : f' = f
    · subst hf
      simp [flowSet, flowGet, Ne.symm h]
    · by_cases hg : f' = g <;> simp [flowSet, flowGet, hf, hg, h, ih]

/-! ### A part after an update of a part of its kind -/

@[simp] theorem State.slot_setSlot_same (s : State) (k : Nat) (x : Slot) : (s.setSlot k x).slot k = x := tget_tset_same _ _ _ _
theorem State.slot_setSlot_ne (s : State) {k j : Nat} (h : j ≠ k) (x : Slot) : (s.setSlot k x).slot j = s.slot j := tget_tset_ne _ h _ _
@[simp] theorem State.core_setCore_same (s : State) (k : Nat) (x : Core) : (s.setCore k x).core k = x := tget_tset_same _ _ _ _
theorem State.core_setCore_ne (s : State) {k j : Nat} (h : j ≠ k) (x : Core) : (s.setCore k x).core j = s.core j := tget_tset_ne _ h _ _
@[simp] theorem State.die_setDie_same (s : State) (k : Nat) (x : Die) : (s.setDie k x).die k = x := tget_tset_same _ _ _ _
theorem State.die_setDie_ne (s : State) {k j : Nat} (h : j ≠ k) (x : Die) : (s.setDie k x).die j = s.die j := tget_tset_ne _ h _ _
@[simp] theorem State.block_setBlock_same (s : State) (k : Nat) (x : Block) : (s.setBlock k x).block k = x := tget_tset_same _ _ _ _
theorem State.block_setBlock_ne (s : State) {k j : Nat} (h : j ≠ k) (x : Block) : (s.setBlock k x).block j = s.block j := tget_tset_ne _ h _ _
@[simp] theorem State.port_setPort_same (s : State) (k : Nat) (x : Port) : (s.setPort k x).port k = x := tget_tset_same _ _ _ _
theorem State.port_setPort_ne (s : State) {k j : Nat} (h : j ≠ k) (x : Port) : (s.setPort k x).port j = s.port j := tget_tset_ne _ h _ _
@[simp] theorem State.queue_setQueue_same (s : State) (k : Nat) (x : Queue) : (s.setQueue k x).queue k = x := tget_tset_same _ _ _ _
theorem State.queue_setQueue_ne (s : State) {k j : Nat} (h : j ≠ k) (x : Queue) : (s.setQueue k x).queue j = s.queue j := tget_tset_ne _ h _ _
@[simp] theorem State.iface_setIface_same (s : State) (k : Nat) (x : Iface) : (s.setIface k x).iface k = x := tget_tset_same _ _ _ _
theorem State.iface_setIface_ne (s : State) {k j : Nat} (h : j ≠ k) (x : Iface) : (s.setIface k x).iface j = s.iface j := tget_tset_ne _ h _ _
@[simp] theorem State.asid_setAsid_same (s : State) (k : Nat) (x : Asid) : (s.setAsid k x).asid k = x := tget_tset_same _ _ _ _
theorem State.asid_setAsid_ne (s : State) {k j : Nat} (h : j ≠ k) (x : Asid) : (s.setAsid k x).asid j = s.asid j := tget_tset_ne _ h _ _
@[simp] theorem State.link_setLink_same (s : State) (k : Nat) (x : Link) : (s.setLink k x).link k = x := tget_tset_same _ _ _ _
theorem State.link_setLink_ne (s : State) {k j : Nat} (h : j ≠ k) (x : Link) : (s.setLink k x).link j = s.link j := tget_tset_ne _ h _ _
@[simp] theorem State.limiter_setLimiter_same (s : State) (k : Nat) (x : Limiter) : (s.setLimiter k x).limiter k = x := tget_tset_same _ _ _ _
theorem State.limiter_setLimiter_ne (s : State) {k j : Nat} (h : j ≠ k) (x : Limiter) : (s.setLimiter k x).limiter j = s.limiter j := tget_tset_ne _ h _ _
@[simp] theorem State.flow_setFlow_same (s : State) (f : Flow) (x : FlowState) : (s.setFlow f x).flow f = x :=
  flowGet_flowSet_same _ _ _
theorem State.flow_setFlow_ne (s : State) {f g : Flow} (h : g ≠ f) (x : FlowState) : (s.setFlow f x).flow g = s.flow g :=
  flowGet_flowSet_ne _ h _
@[simp] theorem State.obj_setObj_same (s : State) (a k : Nat) (x : Obj) : (s.setObj a k x).obj a k = x := tget_tset_same _ _ _ _
@[simp] theorem State.ert_setErt_same (s : State) (d k : Nat) (x : Ert) : (s.setErt d k x).ert d k = x := tget_tset_same _ _ _ _
@[simp] theorem State.grp_setGrp (s : State) (g : Slot) : (s.setGrp g).grp = g := tget_tset_same _ _ _ _
@[simp] theorem State.setGrp_cur (s : State) (g : Slot) : (s.setGrp g).cur = s.cur := rfl
theorem State.setGrp_eq (s : State) (g : Slot) : s.setGrp g = s.setSlot s.cur g := rfl

/-! ### setSlot -/

@[simp] theorem State.setSlot_time (s : State) (k : Nat) (x : Slot) : (s.setSlot k x).time = s.time := rfl
@[simp] theorem State.setSlot_lehr (s : State) (k : Nat) (x : Slot) : (s.setSlot k x).lehr = s.lehr := rfl
@[simp] theorem State.setSlot_lehrAt (s : State) (k : Nat) (x : Slot) : (s.setSlot k x).lehrAt = s.lehrAt := rfl
@[simp] theorem State.setSlot_wakeQ (s : State) (k : Nat) (x : Slot) : (s.setSlot k x).wakeQ = s.wakeQ := rfl
@[simp] theorem State.setSlot_wakeAt (s : State) (k : Nat) (x : Slot) : (s.setSlot k x).wakeAt = s.wakeAt := rfl
@[simp] theorem State.setSlot_powerAvg (s : State) (k : Nat) (x : Slot) : (s.setSlot k x).powerAvg = s.powerAvg := rfl
@[simp] theorem State.setSlot_powerAt (s : State) (k : Nat) (x : Slot) : (s.setSlot k x).powerAt = s.powerAt := rfl
@[simp] theorem State.setSlot_powerOver (s : State) (k : Nat) (x : Slot) : (s.setSlot k x).powerOver = s.powerOver := rfl
@[simp] theorem State.setSlot_priAlloc (s : State) (k : Nat) (x : Slot) : (s.setSlot k x).priAlloc = s.priAlloc := rfl
@[simp] theorem State.setSlot_priOut (s : State) (k : Nat) (x : Slot) : (s.setSlot k x).priOut = s.priOut := rfl
@[simp] theorem State.setSlot_grants (s : State) (k : Nat) (x : Slot) : (s.setSlot k x).grants = s.grants := rfl
@[simp] theorem State.setSlot_orphans (s : State) (k : Nat) (x : Slot) : (s.setSlot k x).orphans = s.orphans := rfl
@[simp] theorem State.setSlot_mgmt (s : State) (k : Nat) (x : Slot) : (s.setSlot k x).mgmt = s.mgmt := rfl
@[simp] theorem State.setSlot_spdm (s : State) (k : Nat) (x : Slot) : (s.setSlot k x).spdm = s.spdm := rfl
@[simp] theorem State.setSlot_fabric (s : State) (k : Nat) (x : Slot) : (s.setSlot k x).fabric = s.fabric := rfl
@[simp] theorem State.setSlot_dvsec (s : State) (k : Nat) (x : Slot) : (s.setSlot k x).dvsec = s.dvsec := rfl
@[simp] theorem State.setSlot_farUp (s : State) (k : Nat) (x : Slot) : (s.setSlot k x).farUp = s.farUp := rfl
@[simp] theorem State.setSlot_links (s : State) (k : Nat) (x : Slot) : (s.setSlot k x).links = s.links := rfl
@[simp] theorem State.setSlot_flows (s : State) (k : Nat) (x : Slot) : (s.setSlot k x).flows = s.flows := rfl
@[simp] theorem State.setSlot_limiters (s : State) (k : Nat) (x : Slot) : (s.setSlot k x).limiters = s.limiters := rfl
@[simp] theorem State.setSlot_ifaces (s : State) (k : Nat) (x : Slot) : (s.setSlot k x).ifaces = s.ifaces := rfl
@[simp] theorem State.setSlot_asids (s : State) (k : Nat) (x : Slot) : (s.setSlot k x).asids = s.asids := rfl
@[simp] theorem State.setSlot_objs (s : State) (k : Nat) (x : Slot) : (s.setSlot k x).objs = s.objs := rfl
@[simp] theorem State.setSlot_qtt (s : State) (k : Nat) (x : Slot) : (s.setSlot k x).qtt = s.qtt := rfl
@[simp] theorem State.setSlot_dies (s : State) (k : Nat) (x : Slot) : (s.setSlot k x).dies = s.dies := rfl
@[simp] theorem State.setSlot_cores (s : State) (k : Nat) (x : Slot) : (s.setSlot k x).cores = s.cores := rfl
@[simp] theorem State.setSlot_blocks (s : State) (k : Nat) (x : Slot) : (s.setSlot k x).blocks = s.blocks := rfl
@[simp] theorem State.setSlot_ports (s : State) (k : Nat) (x : Slot) : (s.setSlot k x).ports = s.ports := rfl
@[simp] theorem State.setSlot_queues (s : State) (k : Nat) (x : Slot) : (s.setSlot k x).queues = s.queues := rfl
@[simp] theorem State.setSlot_erts (s : State) (k : Nat) (x : Slot) : (s.setSlot k x).erts = s.erts := rfl
@[simp] theorem State.setSlot_pools (s : State) (k : Nat) (x : Slot) : (s.setSlot k x).pools = s.pools := rfl
@[simp] theorem State.setSlot_graphs (s : State) (k : Nat) (x : Slot) : (s.setSlot k x).graphs = s.graphs := rfl
@[simp] theorem State.setSlot_mem (s : State) (k : Nat) (x : Slot) : (s.setSlot k x).mem = s.mem := rfl
@[simp] theorem State.setSlot_scr (s : State) (k : Nat) (x : Slot) : (s.setSlot k x).scr = s.scr := rfl
@[simp] theorem State.setSlot_far (s : State) (k : Nat) (x : Slot) : (s.setSlot k x).far = s.far := rfl
@[simp] theorem State.setSlot_hostMem (s : State) (k : Nat) (x : Slot) : (s.setSlot k x).hostMem = s.hostMem := rfl
@[simp] theorem State.setSlot_hostAbsent (s : State) (k : Nat) (x : Slot) : (s.setSlot k x).hostAbsent = s.hostAbsent := rfl
@[simp] theorem State.setSlot_poison (s : State) (k : Nat) (x : Slot) : (s.setSlot k x).poison = s.poison := rfl
@[simp] theorem State.setSlot_out (s : State) (k : Nat) (x : Slot) : (s.setSlot k x).out = s.out := rfl
@[simp] theorem State.setSlot_agenda (s : State) (k : Nat) (x : Slot) : (s.setSlot k x).agenda = s.agenda := rfl
@[simp] theorem State.setSlot_arg (s : State) (k : Nat) (x : Slot) : (s.setSlot k x).arg = s.arg := rfl
@[simp] theorem State.setSlot_cur (s : State) (k : Nat) (x : Slot) : (s.setSlot k x).cur = s.cur := rfl
@[simp] theorem State.setSlot_turn (s : State) (k : Nat) (x : Slot) : (s.setSlot k x).turn = s.turn := rfl
@[simp] theorem State.setSlot_free (s : State) (k : Nat) (x : Slot) : (s.setSlot k x).free = s.free := rfl
@[simp] theorem State.setSlot_ids (s : State) (k : Nat) (x : Slot) : (s.setSlot k x).ids = s.ids := rfl
@[simp] theorem State.setSlot_core (s : State) (k : Nat) (x : Slot) (j : Nat) : (s.setSlot k x).core j = s.core j := rfl
@[simp] theorem State.setSlot_die (s : State) (k : Nat) (x : Slot) (j : Nat) : (s.setSlot k x).die j = s.die j := rfl
@[simp] theorem State.setSlot_block (s : State) (k : Nat) (x : Slot) (j : Nat) : (s.setSlot k x).block j = s.block j := rfl
@[simp] theorem State.setSlot_port (s : State) (k : Nat) (x : Slot) (j : Nat) : (s.setSlot k x).port j = s.port j := rfl
@[simp] theorem State.setSlot_queue (s : State) (k : Nat) (x : Slot) (j : Nat) : (s.setSlot k x).queue j = s.queue j := rfl
@[simp] theorem State.setSlot_iface (s : State) (k : Nat) (x : Slot) (j : Nat) : (s.setSlot k x).iface j = s.iface j := rfl
@[simp] theorem State.setSlot_asid (s : State) (k : Nat) (x : Slot) (j : Nat) : (s.setSlot k x).asid j = s.asid j := rfl
@[simp] theorem State.setSlot_link (s : State) (k : Nat) (x : Slot) (j : Nat) : (s.setSlot k x).link j = s.link j := rfl
@[simp] theorem State.setSlot_limiter (s : State) (k : Nat) (x : Slot) (j : Nat) : (s.setSlot k x).limiter j = s.limiter j := rfl
@[simp] theorem State.setSlot_flow (s : State) (k : Nat) (x : Slot) (g : Flow) : (s.setSlot k x).flow g = s.flow g := rfl
@[simp] theorem State.setSlot_obj (s : State) (k : Nat) (x : Slot) (i j : Nat) : (s.setSlot k x).obj i j = s.obj i j := rfl
@[simp] theorem State.setSlot_ert (s : State) (k : Nat) (x : Slot) (i j : Nat) : (s.setSlot k x).ert i j = s.ert i j := rfl

/-! ### setCore -/

@[simp] theorem State.setCore_time (s : State) (k : Nat) (x : Core) : (s.setCore k x).time = s.time := rfl
@[simp] theorem State.setCore_lehr (s : State) (k : Nat) (x : Core) : (s.setCore k x).lehr = s.lehr := rfl
@[simp] theorem State.setCore_lehrAt (s : State) (k : Nat) (x : Core) : (s.setCore k x).lehrAt = s.lehrAt := rfl
@[simp] theorem State.setCore_wakeQ (s : State) (k : Nat) (x : Core) : (s.setCore k x).wakeQ = s.wakeQ := rfl
@[simp] theorem State.setCore_wakeAt (s : State) (k : Nat) (x : Core) : (s.setCore k x).wakeAt = s.wakeAt := rfl
@[simp] theorem State.setCore_powerAvg (s : State) (k : Nat) (x : Core) : (s.setCore k x).powerAvg = s.powerAvg := rfl
@[simp] theorem State.setCore_powerAt (s : State) (k : Nat) (x : Core) : (s.setCore k x).powerAt = s.powerAt := rfl
@[simp] theorem State.setCore_powerOver (s : State) (k : Nat) (x : Core) : (s.setCore k x).powerOver = s.powerOver := rfl
@[simp] theorem State.setCore_priAlloc (s : State) (k : Nat) (x : Core) : (s.setCore k x).priAlloc = s.priAlloc := rfl
@[simp] theorem State.setCore_priOut (s : State) (k : Nat) (x : Core) : (s.setCore k x).priOut = s.priOut := rfl
@[simp] theorem State.setCore_grants (s : State) (k : Nat) (x : Core) : (s.setCore k x).grants = s.grants := rfl
@[simp] theorem State.setCore_orphans (s : State) (k : Nat) (x : Core) : (s.setCore k x).orphans = s.orphans := rfl
@[simp] theorem State.setCore_mgmt (s : State) (k : Nat) (x : Core) : (s.setCore k x).mgmt = s.mgmt := rfl
@[simp] theorem State.setCore_spdm (s : State) (k : Nat) (x : Core) : (s.setCore k x).spdm = s.spdm := rfl
@[simp] theorem State.setCore_fabric (s : State) (k : Nat) (x : Core) : (s.setCore k x).fabric = s.fabric := rfl
@[simp] theorem State.setCore_dvsec (s : State) (k : Nat) (x : Core) : (s.setCore k x).dvsec = s.dvsec := rfl
@[simp] theorem State.setCore_farUp (s : State) (k : Nat) (x : Core) : (s.setCore k x).farUp = s.farUp := rfl
@[simp] theorem State.setCore_links (s : State) (k : Nat) (x : Core) : (s.setCore k x).links = s.links := rfl
@[simp] theorem State.setCore_flows (s : State) (k : Nat) (x : Core) : (s.setCore k x).flows = s.flows := rfl
@[simp] theorem State.setCore_limiters (s : State) (k : Nat) (x : Core) : (s.setCore k x).limiters = s.limiters := rfl
@[simp] theorem State.setCore_ifaces (s : State) (k : Nat) (x : Core) : (s.setCore k x).ifaces = s.ifaces := rfl
@[simp] theorem State.setCore_asids (s : State) (k : Nat) (x : Core) : (s.setCore k x).asids = s.asids := rfl
@[simp] theorem State.setCore_objs (s : State) (k : Nat) (x : Core) : (s.setCore k x).objs = s.objs := rfl
@[simp] theorem State.setCore_qtt (s : State) (k : Nat) (x : Core) : (s.setCore k x).qtt = s.qtt := rfl
@[simp] theorem State.setCore_dies (s : State) (k : Nat) (x : Core) : (s.setCore k x).dies = s.dies := rfl
@[simp] theorem State.setCore_slots (s : State) (k : Nat) (x : Core) : (s.setCore k x).slots = s.slots := rfl
@[simp] theorem State.setCore_blocks (s : State) (k : Nat) (x : Core) : (s.setCore k x).blocks = s.blocks := rfl
@[simp] theorem State.setCore_ports (s : State) (k : Nat) (x : Core) : (s.setCore k x).ports = s.ports := rfl
@[simp] theorem State.setCore_queues (s : State) (k : Nat) (x : Core) : (s.setCore k x).queues = s.queues := rfl
@[simp] theorem State.setCore_erts (s : State) (k : Nat) (x : Core) : (s.setCore k x).erts = s.erts := rfl
@[simp] theorem State.setCore_pools (s : State) (k : Nat) (x : Core) : (s.setCore k x).pools = s.pools := rfl
@[simp] theorem State.setCore_graphs (s : State) (k : Nat) (x : Core) : (s.setCore k x).graphs = s.graphs := rfl
@[simp] theorem State.setCore_mem (s : State) (k : Nat) (x : Core) : (s.setCore k x).mem = s.mem := rfl
@[simp] theorem State.setCore_scr (s : State) (k : Nat) (x : Core) : (s.setCore k x).scr = s.scr := rfl
@[simp] theorem State.setCore_far (s : State) (k : Nat) (x : Core) : (s.setCore k x).far = s.far := rfl
@[simp] theorem State.setCore_hostMem (s : State) (k : Nat) (x : Core) : (s.setCore k x).hostMem = s.hostMem := rfl
@[simp] theorem State.setCore_hostAbsent (s : State) (k : Nat) (x : Core) : (s.setCore k x).hostAbsent = s.hostAbsent := rfl
@[simp] theorem State.setCore_poison (s : State) (k : Nat) (x : Core) : (s.setCore k x).poison = s.poison := rfl
@[simp] theorem State.setCore_out (s : State) (k : Nat) (x : Core) : (s.setCore k x).out = s.out := rfl
@[simp] theorem State.setCore_agenda (s : State) (k : Nat) (x : Core) : (s.setCore k x).agenda = s.agenda := rfl
@[simp] theorem State.setCore_arg (s : State) (k : Nat) (x : Core) : (s.setCore k x).arg = s.arg := rfl
@[simp] theorem State.setCore_cur (s : State) (k : Nat) (x : Core) : (s.setCore k x).cur = s.cur := rfl
@[simp] theorem State.setCore_turn (s : State) (k : Nat) (x : Core) : (s.setCore k x).turn = s.turn := rfl
@[simp] theorem State.setCore_free (s : State) (k : Nat) (x : Core) : (s.setCore k x).free = s.free := rfl
@[simp] theorem State.setCore_ids (s : State) (k : Nat) (x : Core) : (s.setCore k x).ids = s.ids := rfl
@[simp] theorem State.setCore_slot (s : State) (k : Nat) (x : Core) (j : Nat) : (s.setCore k x).slot j = s.slot j := rfl
@[simp] theorem State.setCore_die (s : State) (k : Nat) (x : Core) (j : Nat) : (s.setCore k x).die j = s.die j := rfl
@[simp] theorem State.setCore_block (s : State) (k : Nat) (x : Core) (j : Nat) : (s.setCore k x).block j = s.block j := rfl
@[simp] theorem State.setCore_port (s : State) (k : Nat) (x : Core) (j : Nat) : (s.setCore k x).port j = s.port j := rfl
@[simp] theorem State.setCore_queue (s : State) (k : Nat) (x : Core) (j : Nat) : (s.setCore k x).queue j = s.queue j := rfl
@[simp] theorem State.setCore_iface (s : State) (k : Nat) (x : Core) (j : Nat) : (s.setCore k x).iface j = s.iface j := rfl
@[simp] theorem State.setCore_asid (s : State) (k : Nat) (x : Core) (j : Nat) : (s.setCore k x).asid j = s.asid j := rfl
@[simp] theorem State.setCore_link (s : State) (k : Nat) (x : Core) (j : Nat) : (s.setCore k x).link j = s.link j := rfl
@[simp] theorem State.setCore_limiter (s : State) (k : Nat) (x : Core) (j : Nat) : (s.setCore k x).limiter j = s.limiter j := rfl
@[simp] theorem State.setCore_flow (s : State) (k : Nat) (x : Core) (g : Flow) : (s.setCore k x).flow g = s.flow g := rfl
@[simp] theorem State.setCore_obj (s : State) (k : Nat) (x : Core) (i j : Nat) : (s.setCore k x).obj i j = s.obj i j := rfl
@[simp] theorem State.setCore_ert (s : State) (k : Nat) (x : Core) (i j : Nat) : (s.setCore k x).ert i j = s.ert i j := rfl

/-! ### setDie -/

@[simp] theorem State.setDie_time (s : State) (k : Nat) (x : Die) : (s.setDie k x).time = s.time := rfl
@[simp] theorem State.setDie_lehr (s : State) (k : Nat) (x : Die) : (s.setDie k x).lehr = s.lehr := rfl
@[simp] theorem State.setDie_lehrAt (s : State) (k : Nat) (x : Die) : (s.setDie k x).lehrAt = s.lehrAt := rfl
@[simp] theorem State.setDie_wakeQ (s : State) (k : Nat) (x : Die) : (s.setDie k x).wakeQ = s.wakeQ := rfl
@[simp] theorem State.setDie_wakeAt (s : State) (k : Nat) (x : Die) : (s.setDie k x).wakeAt = s.wakeAt := rfl
@[simp] theorem State.setDie_powerAvg (s : State) (k : Nat) (x : Die) : (s.setDie k x).powerAvg = s.powerAvg := rfl
@[simp] theorem State.setDie_powerAt (s : State) (k : Nat) (x : Die) : (s.setDie k x).powerAt = s.powerAt := rfl
@[simp] theorem State.setDie_powerOver (s : State) (k : Nat) (x : Die) : (s.setDie k x).powerOver = s.powerOver := rfl
@[simp] theorem State.setDie_priAlloc (s : State) (k : Nat) (x : Die) : (s.setDie k x).priAlloc = s.priAlloc := rfl
@[simp] theorem State.setDie_priOut (s : State) (k : Nat) (x : Die) : (s.setDie k x).priOut = s.priOut := rfl
@[simp] theorem State.setDie_grants (s : State) (k : Nat) (x : Die) : (s.setDie k x).grants = s.grants := rfl
@[simp] theorem State.setDie_orphans (s : State) (k : Nat) (x : Die) : (s.setDie k x).orphans = s.orphans := rfl
@[simp] theorem State.setDie_mgmt (s : State) (k : Nat) (x : Die) : (s.setDie k x).mgmt = s.mgmt := rfl
@[simp] theorem State.setDie_spdm (s : State) (k : Nat) (x : Die) : (s.setDie k x).spdm = s.spdm := rfl
@[simp] theorem State.setDie_fabric (s : State) (k : Nat) (x : Die) : (s.setDie k x).fabric = s.fabric := rfl
@[simp] theorem State.setDie_dvsec (s : State) (k : Nat) (x : Die) : (s.setDie k x).dvsec = s.dvsec := rfl
@[simp] theorem State.setDie_farUp (s : State) (k : Nat) (x : Die) : (s.setDie k x).farUp = s.farUp := rfl
@[simp] theorem State.setDie_links (s : State) (k : Nat) (x : Die) : (s.setDie k x).links = s.links := rfl
@[simp] theorem State.setDie_flows (s : State) (k : Nat) (x : Die) : (s.setDie k x).flows = s.flows := rfl
@[simp] theorem State.setDie_limiters (s : State) (k : Nat) (x : Die) : (s.setDie k x).limiters = s.limiters := rfl
@[simp] theorem State.setDie_ifaces (s : State) (k : Nat) (x : Die) : (s.setDie k x).ifaces = s.ifaces := rfl
@[simp] theorem State.setDie_asids (s : State) (k : Nat) (x : Die) : (s.setDie k x).asids = s.asids := rfl
@[simp] theorem State.setDie_objs (s : State) (k : Nat) (x : Die) : (s.setDie k x).objs = s.objs := rfl
@[simp] theorem State.setDie_qtt (s : State) (k : Nat) (x : Die) : (s.setDie k x).qtt = s.qtt := rfl
@[simp] theorem State.setDie_cores (s : State) (k : Nat) (x : Die) : (s.setDie k x).cores = s.cores := rfl
@[simp] theorem State.setDie_slots (s : State) (k : Nat) (x : Die) : (s.setDie k x).slots = s.slots := rfl
@[simp] theorem State.setDie_blocks (s : State) (k : Nat) (x : Die) : (s.setDie k x).blocks = s.blocks := rfl
@[simp] theorem State.setDie_ports (s : State) (k : Nat) (x : Die) : (s.setDie k x).ports = s.ports := rfl
@[simp] theorem State.setDie_queues (s : State) (k : Nat) (x : Die) : (s.setDie k x).queues = s.queues := rfl
@[simp] theorem State.setDie_erts (s : State) (k : Nat) (x : Die) : (s.setDie k x).erts = s.erts := rfl
@[simp] theorem State.setDie_pools (s : State) (k : Nat) (x : Die) : (s.setDie k x).pools = s.pools := rfl
@[simp] theorem State.setDie_graphs (s : State) (k : Nat) (x : Die) : (s.setDie k x).graphs = s.graphs := rfl
@[simp] theorem State.setDie_mem (s : State) (k : Nat) (x : Die) : (s.setDie k x).mem = s.mem := rfl
@[simp] theorem State.setDie_scr (s : State) (k : Nat) (x : Die) : (s.setDie k x).scr = s.scr := rfl
@[simp] theorem State.setDie_far (s : State) (k : Nat) (x : Die) : (s.setDie k x).far = s.far := rfl
@[simp] theorem State.setDie_hostMem (s : State) (k : Nat) (x : Die) : (s.setDie k x).hostMem = s.hostMem := rfl
@[simp] theorem State.setDie_hostAbsent (s : State) (k : Nat) (x : Die) : (s.setDie k x).hostAbsent = s.hostAbsent := rfl
@[simp] theorem State.setDie_poison (s : State) (k : Nat) (x : Die) : (s.setDie k x).poison = s.poison := rfl
@[simp] theorem State.setDie_out (s : State) (k : Nat) (x : Die) : (s.setDie k x).out = s.out := rfl
@[simp] theorem State.setDie_agenda (s : State) (k : Nat) (x : Die) : (s.setDie k x).agenda = s.agenda := rfl
@[simp] theorem State.setDie_arg (s : State) (k : Nat) (x : Die) : (s.setDie k x).arg = s.arg := rfl
@[simp] theorem State.setDie_cur (s : State) (k : Nat) (x : Die) : (s.setDie k x).cur = s.cur := rfl
@[simp] theorem State.setDie_turn (s : State) (k : Nat) (x : Die) : (s.setDie k x).turn = s.turn := rfl
@[simp] theorem State.setDie_free (s : State) (k : Nat) (x : Die) : (s.setDie k x).free = s.free := rfl
@[simp] theorem State.setDie_ids (s : State) (k : Nat) (x : Die) : (s.setDie k x).ids = s.ids := rfl
@[simp] theorem State.setDie_slot (s : State) (k : Nat) (x : Die) (j : Nat) : (s.setDie k x).slot j = s.slot j := rfl
@[simp] theorem State.setDie_core (s : State) (k : Nat) (x : Die) (j : Nat) : (s.setDie k x).core j = s.core j := rfl
@[simp] theorem State.setDie_block (s : State) (k : Nat) (x : Die) (j : Nat) : (s.setDie k x).block j = s.block j := rfl
@[simp] theorem State.setDie_port (s : State) (k : Nat) (x : Die) (j : Nat) : (s.setDie k x).port j = s.port j := rfl
@[simp] theorem State.setDie_queue (s : State) (k : Nat) (x : Die) (j : Nat) : (s.setDie k x).queue j = s.queue j := rfl
@[simp] theorem State.setDie_iface (s : State) (k : Nat) (x : Die) (j : Nat) : (s.setDie k x).iface j = s.iface j := rfl
@[simp] theorem State.setDie_asid (s : State) (k : Nat) (x : Die) (j : Nat) : (s.setDie k x).asid j = s.asid j := rfl
@[simp] theorem State.setDie_link (s : State) (k : Nat) (x : Die) (j : Nat) : (s.setDie k x).link j = s.link j := rfl
@[simp] theorem State.setDie_limiter (s : State) (k : Nat) (x : Die) (j : Nat) : (s.setDie k x).limiter j = s.limiter j := rfl
@[simp] theorem State.setDie_flow (s : State) (k : Nat) (x : Die) (g : Flow) : (s.setDie k x).flow g = s.flow g := rfl
@[simp] theorem State.setDie_obj (s : State) (k : Nat) (x : Die) (i j : Nat) : (s.setDie k x).obj i j = s.obj i j := rfl
@[simp] theorem State.setDie_ert (s : State) (k : Nat) (x : Die) (i j : Nat) : (s.setDie k x).ert i j = s.ert i j := rfl

/-! ### setBlock -/

@[simp] theorem State.setBlock_time (s : State) (k : Nat) (x : Block) : (s.setBlock k x).time = s.time := rfl
@[simp] theorem State.setBlock_lehr (s : State) (k : Nat) (x : Block) : (s.setBlock k x).lehr = s.lehr := rfl
@[simp] theorem State.setBlock_lehrAt (s : State) (k : Nat) (x : Block) : (s.setBlock k x).lehrAt = s.lehrAt := rfl
@[simp] theorem State.setBlock_wakeQ (s : State) (k : Nat) (x : Block) : (s.setBlock k x).wakeQ = s.wakeQ := rfl
@[simp] theorem State.setBlock_wakeAt (s : State) (k : Nat) (x : Block) : (s.setBlock k x).wakeAt = s.wakeAt := rfl
@[simp] theorem State.setBlock_powerAvg (s : State) (k : Nat) (x : Block) : (s.setBlock k x).powerAvg = s.powerAvg := rfl
@[simp] theorem State.setBlock_powerAt (s : State) (k : Nat) (x : Block) : (s.setBlock k x).powerAt = s.powerAt := rfl
@[simp] theorem State.setBlock_powerOver (s : State) (k : Nat) (x : Block) : (s.setBlock k x).powerOver = s.powerOver := rfl
@[simp] theorem State.setBlock_priAlloc (s : State) (k : Nat) (x : Block) : (s.setBlock k x).priAlloc = s.priAlloc := rfl
@[simp] theorem State.setBlock_priOut (s : State) (k : Nat) (x : Block) : (s.setBlock k x).priOut = s.priOut := rfl
@[simp] theorem State.setBlock_grants (s : State) (k : Nat) (x : Block) : (s.setBlock k x).grants = s.grants := rfl
@[simp] theorem State.setBlock_orphans (s : State) (k : Nat) (x : Block) : (s.setBlock k x).orphans = s.orphans := rfl
@[simp] theorem State.setBlock_mgmt (s : State) (k : Nat) (x : Block) : (s.setBlock k x).mgmt = s.mgmt := rfl
@[simp] theorem State.setBlock_spdm (s : State) (k : Nat) (x : Block) : (s.setBlock k x).spdm = s.spdm := rfl
@[simp] theorem State.setBlock_fabric (s : State) (k : Nat) (x : Block) : (s.setBlock k x).fabric = s.fabric := rfl
@[simp] theorem State.setBlock_dvsec (s : State) (k : Nat) (x : Block) : (s.setBlock k x).dvsec = s.dvsec := rfl
@[simp] theorem State.setBlock_farUp (s : State) (k : Nat) (x : Block) : (s.setBlock k x).farUp = s.farUp := rfl
@[simp] theorem State.setBlock_links (s : State) (k : Nat) (x : Block) : (s.setBlock k x).links = s.links := rfl
@[simp] theorem State.setBlock_flows (s : State) (k : Nat) (x : Block) : (s.setBlock k x).flows = s.flows := rfl
@[simp] theorem State.setBlock_limiters (s : State) (k : Nat) (x : Block) : (s.setBlock k x).limiters = s.limiters := rfl
@[simp] theorem State.setBlock_ifaces (s : State) (k : Nat) (x : Block) : (s.setBlock k x).ifaces = s.ifaces := rfl
@[simp] theorem State.setBlock_asids (s : State) (k : Nat) (x : Block) : (s.setBlock k x).asids = s.asids := rfl
@[simp] theorem State.setBlock_objs (s : State) (k : Nat) (x : Block) : (s.setBlock k x).objs = s.objs := rfl
@[simp] theorem State.setBlock_qtt (s : State) (k : Nat) (x : Block) : (s.setBlock k x).qtt = s.qtt := rfl
@[simp] theorem State.setBlock_dies (s : State) (k : Nat) (x : Block) : (s.setBlock k x).dies = s.dies := rfl
@[simp] theorem State.setBlock_cores (s : State) (k : Nat) (x : Block) : (s.setBlock k x).cores = s.cores := rfl
@[simp] theorem State.setBlock_slots (s : State) (k : Nat) (x : Block) : (s.setBlock k x).slots = s.slots := rfl
@[simp] theorem State.setBlock_ports (s : State) (k : Nat) (x : Block) : (s.setBlock k x).ports = s.ports := rfl
@[simp] theorem State.setBlock_queues (s : State) (k : Nat) (x : Block) : (s.setBlock k x).queues = s.queues := rfl
@[simp] theorem State.setBlock_erts (s : State) (k : Nat) (x : Block) : (s.setBlock k x).erts = s.erts := rfl
@[simp] theorem State.setBlock_pools (s : State) (k : Nat) (x : Block) : (s.setBlock k x).pools = s.pools := rfl
@[simp] theorem State.setBlock_graphs (s : State) (k : Nat) (x : Block) : (s.setBlock k x).graphs = s.graphs := rfl
@[simp] theorem State.setBlock_mem (s : State) (k : Nat) (x : Block) : (s.setBlock k x).mem = s.mem := rfl
@[simp] theorem State.setBlock_scr (s : State) (k : Nat) (x : Block) : (s.setBlock k x).scr = s.scr := rfl
@[simp] theorem State.setBlock_far (s : State) (k : Nat) (x : Block) : (s.setBlock k x).far = s.far := rfl
@[simp] theorem State.setBlock_hostMem (s : State) (k : Nat) (x : Block) : (s.setBlock k x).hostMem = s.hostMem := rfl
@[simp] theorem State.setBlock_hostAbsent (s : State) (k : Nat) (x : Block) : (s.setBlock k x).hostAbsent = s.hostAbsent := rfl
@[simp] theorem State.setBlock_poison (s : State) (k : Nat) (x : Block) : (s.setBlock k x).poison = s.poison := rfl
@[simp] theorem State.setBlock_out (s : State) (k : Nat) (x : Block) : (s.setBlock k x).out = s.out := rfl
@[simp] theorem State.setBlock_agenda (s : State) (k : Nat) (x : Block) : (s.setBlock k x).agenda = s.agenda := rfl
@[simp] theorem State.setBlock_arg (s : State) (k : Nat) (x : Block) : (s.setBlock k x).arg = s.arg := rfl
@[simp] theorem State.setBlock_cur (s : State) (k : Nat) (x : Block) : (s.setBlock k x).cur = s.cur := rfl
@[simp] theorem State.setBlock_turn (s : State) (k : Nat) (x : Block) : (s.setBlock k x).turn = s.turn := rfl
@[simp] theorem State.setBlock_free (s : State) (k : Nat) (x : Block) : (s.setBlock k x).free = s.free := rfl
@[simp] theorem State.setBlock_ids (s : State) (k : Nat) (x : Block) : (s.setBlock k x).ids = s.ids := rfl
@[simp] theorem State.setBlock_slot (s : State) (k : Nat) (x : Block) (j : Nat) : (s.setBlock k x).slot j = s.slot j := rfl
@[simp] theorem State.setBlock_core (s : State) (k : Nat) (x : Block) (j : Nat) : (s.setBlock k x).core j = s.core j := rfl
@[simp] theorem State.setBlock_die (s : State) (k : Nat) (x : Block) (j : Nat) : (s.setBlock k x).die j = s.die j := rfl
@[simp] theorem State.setBlock_port (s : State) (k : Nat) (x : Block) (j : Nat) : (s.setBlock k x).port j = s.port j := rfl
@[simp] theorem State.setBlock_queue (s : State) (k : Nat) (x : Block) (j : Nat) : (s.setBlock k x).queue j = s.queue j := rfl
@[simp] theorem State.setBlock_iface (s : State) (k : Nat) (x : Block) (j : Nat) : (s.setBlock k x).iface j = s.iface j := rfl
@[simp] theorem State.setBlock_asid (s : State) (k : Nat) (x : Block) (j : Nat) : (s.setBlock k x).asid j = s.asid j := rfl
@[simp] theorem State.setBlock_link (s : State) (k : Nat) (x : Block) (j : Nat) : (s.setBlock k x).link j = s.link j := rfl
@[simp] theorem State.setBlock_limiter (s : State) (k : Nat) (x : Block) (j : Nat) : (s.setBlock k x).limiter j = s.limiter j := rfl
@[simp] theorem State.setBlock_flow (s : State) (k : Nat) (x : Block) (g : Flow) : (s.setBlock k x).flow g = s.flow g := rfl
@[simp] theorem State.setBlock_obj (s : State) (k : Nat) (x : Block) (i j : Nat) : (s.setBlock k x).obj i j = s.obj i j := rfl
@[simp] theorem State.setBlock_ert (s : State) (k : Nat) (x : Block) (i j : Nat) : (s.setBlock k x).ert i j = s.ert i j := rfl

/-! ### setPort -/

@[simp] theorem State.setPort_time (s : State) (k : Nat) (x : Port) : (s.setPort k x).time = s.time := rfl
@[simp] theorem State.setPort_lehr (s : State) (k : Nat) (x : Port) : (s.setPort k x).lehr = s.lehr := rfl
@[simp] theorem State.setPort_lehrAt (s : State) (k : Nat) (x : Port) : (s.setPort k x).lehrAt = s.lehrAt := rfl
@[simp] theorem State.setPort_wakeQ (s : State) (k : Nat) (x : Port) : (s.setPort k x).wakeQ = s.wakeQ := rfl
@[simp] theorem State.setPort_wakeAt (s : State) (k : Nat) (x : Port) : (s.setPort k x).wakeAt = s.wakeAt := rfl
@[simp] theorem State.setPort_powerAvg (s : State) (k : Nat) (x : Port) : (s.setPort k x).powerAvg = s.powerAvg := rfl
@[simp] theorem State.setPort_powerAt (s : State) (k : Nat) (x : Port) : (s.setPort k x).powerAt = s.powerAt := rfl
@[simp] theorem State.setPort_powerOver (s : State) (k : Nat) (x : Port) : (s.setPort k x).powerOver = s.powerOver := rfl
@[simp] theorem State.setPort_priAlloc (s : State) (k : Nat) (x : Port) : (s.setPort k x).priAlloc = s.priAlloc := rfl
@[simp] theorem State.setPort_priOut (s : State) (k : Nat) (x : Port) : (s.setPort k x).priOut = s.priOut := rfl
@[simp] theorem State.setPort_grants (s : State) (k : Nat) (x : Port) : (s.setPort k x).grants = s.grants := rfl
@[simp] theorem State.setPort_orphans (s : State) (k : Nat) (x : Port) : (s.setPort k x).orphans = s.orphans := rfl
@[simp] theorem State.setPort_mgmt (s : State) (k : Nat) (x : Port) : (s.setPort k x).mgmt = s.mgmt := rfl
@[simp] theorem State.setPort_spdm (s : State) (k : Nat) (x : Port) : (s.setPort k x).spdm = s.spdm := rfl
@[simp] theorem State.setPort_fabric (s : State) (k : Nat) (x : Port) : (s.setPort k x).fabric = s.fabric := rfl
@[simp] theorem State.setPort_dvsec (s : State) (k : Nat) (x : Port) : (s.setPort k x).dvsec = s.dvsec := rfl
@[simp] theorem State.setPort_farUp (s : State) (k : Nat) (x : Port) : (s.setPort k x).farUp = s.farUp := rfl
@[simp] theorem State.setPort_links (s : State) (k : Nat) (x : Port) : (s.setPort k x).links = s.links := rfl
@[simp] theorem State.setPort_flows (s : State) (k : Nat) (x : Port) : (s.setPort k x).flows = s.flows := rfl
@[simp] theorem State.setPort_limiters (s : State) (k : Nat) (x : Port) : (s.setPort k x).limiters = s.limiters := rfl
@[simp] theorem State.setPort_ifaces (s : State) (k : Nat) (x : Port) : (s.setPort k x).ifaces = s.ifaces := rfl
@[simp] theorem State.setPort_asids (s : State) (k : Nat) (x : Port) : (s.setPort k x).asids = s.asids := rfl
@[simp] theorem State.setPort_objs (s : State) (k : Nat) (x : Port) : (s.setPort k x).objs = s.objs := rfl
@[simp] theorem State.setPort_qtt (s : State) (k : Nat) (x : Port) : (s.setPort k x).qtt = s.qtt := rfl
@[simp] theorem State.setPort_dies (s : State) (k : Nat) (x : Port) : (s.setPort k x).dies = s.dies := rfl
@[simp] theorem State.setPort_cores (s : State) (k : Nat) (x : Port) : (s.setPort k x).cores = s.cores := rfl
@[simp] theorem State.setPort_slots (s : State) (k : Nat) (x : Port) : (s.setPort k x).slots = s.slots := rfl
@[simp] theorem State.setPort_blocks (s : State) (k : Nat) (x : Port) : (s.setPort k x).blocks = s.blocks := rfl
@[simp] theorem State.setPort_queues (s : State) (k : Nat) (x : Port) : (s.setPort k x).queues = s.queues := rfl
@[simp] theorem State.setPort_erts (s : State) (k : Nat) (x : Port) : (s.setPort k x).erts = s.erts := rfl
@[simp] theorem State.setPort_pools (s : State) (k : Nat) (x : Port) : (s.setPort k x).pools = s.pools := rfl
@[simp] theorem State.setPort_graphs (s : State) (k : Nat) (x : Port) : (s.setPort k x).graphs = s.graphs := rfl
@[simp] theorem State.setPort_mem (s : State) (k : Nat) (x : Port) : (s.setPort k x).mem = s.mem := rfl
@[simp] theorem State.setPort_scr (s : State) (k : Nat) (x : Port) : (s.setPort k x).scr = s.scr := rfl
@[simp] theorem State.setPort_far (s : State) (k : Nat) (x : Port) : (s.setPort k x).far = s.far := rfl
@[simp] theorem State.setPort_hostMem (s : State) (k : Nat) (x : Port) : (s.setPort k x).hostMem = s.hostMem := rfl
@[simp] theorem State.setPort_hostAbsent (s : State) (k : Nat) (x : Port) : (s.setPort k x).hostAbsent = s.hostAbsent := rfl
@[simp] theorem State.setPort_poison (s : State) (k : Nat) (x : Port) : (s.setPort k x).poison = s.poison := rfl
@[simp] theorem State.setPort_out (s : State) (k : Nat) (x : Port) : (s.setPort k x).out = s.out := rfl
@[simp] theorem State.setPort_agenda (s : State) (k : Nat) (x : Port) : (s.setPort k x).agenda = s.agenda := rfl
@[simp] theorem State.setPort_arg (s : State) (k : Nat) (x : Port) : (s.setPort k x).arg = s.arg := rfl
@[simp] theorem State.setPort_cur (s : State) (k : Nat) (x : Port) : (s.setPort k x).cur = s.cur := rfl
@[simp] theorem State.setPort_turn (s : State) (k : Nat) (x : Port) : (s.setPort k x).turn = s.turn := rfl
@[simp] theorem State.setPort_free (s : State) (k : Nat) (x : Port) : (s.setPort k x).free = s.free := rfl
@[simp] theorem State.setPort_ids (s : State) (k : Nat) (x : Port) : (s.setPort k x).ids = s.ids := rfl
@[simp] theorem State.setPort_slot (s : State) (k : Nat) (x : Port) (j : Nat) : (s.setPort k x).slot j = s.slot j := rfl
@[simp] theorem State.setPort_core (s : State) (k : Nat) (x : Port) (j : Nat) : (s.setPort k x).core j = s.core j := rfl
@[simp] theorem State.setPort_die (s : State) (k : Nat) (x : Port) (j : Nat) : (s.setPort k x).die j = s.die j := rfl
@[simp] theorem State.setPort_block (s : State) (k : Nat) (x : Port) (j : Nat) : (s.setPort k x).block j = s.block j := rfl
@[simp] theorem State.setPort_queue (s : State) (k : Nat) (x : Port) (j : Nat) : (s.setPort k x).queue j = s.queue j := rfl
@[simp] theorem State.setPort_iface (s : State) (k : Nat) (x : Port) (j : Nat) : (s.setPort k x).iface j = s.iface j := rfl
@[simp] theorem State.setPort_asid (s : State) (k : Nat) (x : Port) (j : Nat) : (s.setPort k x).asid j = s.asid j := rfl
@[simp] theorem State.setPort_link (s : State) (k : Nat) (x : Port) (j : Nat) : (s.setPort k x).link j = s.link j := rfl
@[simp] theorem State.setPort_limiter (s : State) (k : Nat) (x : Port) (j : Nat) : (s.setPort k x).limiter j = s.limiter j := rfl
@[simp] theorem State.setPort_flow (s : State) (k : Nat) (x : Port) (g : Flow) : (s.setPort k x).flow g = s.flow g := rfl
@[simp] theorem State.setPort_obj (s : State) (k : Nat) (x : Port) (i j : Nat) : (s.setPort k x).obj i j = s.obj i j := rfl
@[simp] theorem State.setPort_ert (s : State) (k : Nat) (x : Port) (i j : Nat) : (s.setPort k x).ert i j = s.ert i j := rfl

/-! ### setQueue -/

@[simp] theorem State.setQueue_time (s : State) (k : Nat) (x : Queue) : (s.setQueue k x).time = s.time := rfl
@[simp] theorem State.setQueue_lehr (s : State) (k : Nat) (x : Queue) : (s.setQueue k x).lehr = s.lehr := rfl
@[simp] theorem State.setQueue_lehrAt (s : State) (k : Nat) (x : Queue) : (s.setQueue k x).lehrAt = s.lehrAt := rfl
@[simp] theorem State.setQueue_wakeQ (s : State) (k : Nat) (x : Queue) : (s.setQueue k x).wakeQ = s.wakeQ := rfl
@[simp] theorem State.setQueue_wakeAt (s : State) (k : Nat) (x : Queue) : (s.setQueue k x).wakeAt = s.wakeAt := rfl
@[simp] theorem State.setQueue_powerAvg (s : State) (k : Nat) (x : Queue) : (s.setQueue k x).powerAvg = s.powerAvg := rfl
@[simp] theorem State.setQueue_powerAt (s : State) (k : Nat) (x : Queue) : (s.setQueue k x).powerAt = s.powerAt := rfl
@[simp] theorem State.setQueue_powerOver (s : State) (k : Nat) (x : Queue) : (s.setQueue k x).powerOver = s.powerOver := rfl
@[simp] theorem State.setQueue_priAlloc (s : State) (k : Nat) (x : Queue) : (s.setQueue k x).priAlloc = s.priAlloc := rfl
@[simp] theorem State.setQueue_priOut (s : State) (k : Nat) (x : Queue) : (s.setQueue k x).priOut = s.priOut := rfl
@[simp] theorem State.setQueue_grants (s : State) (k : Nat) (x : Queue) : (s.setQueue k x).grants = s.grants := rfl
@[simp] theorem State.setQueue_orphans (s : State) (k : Nat) (x : Queue) : (s.setQueue k x).orphans = s.orphans := rfl
@[simp] theorem State.setQueue_mgmt (s : State) (k : Nat) (x : Queue) : (s.setQueue k x).mgmt = s.mgmt := rfl
@[simp] theorem State.setQueue_spdm (s : State) (k : Nat) (x : Queue) : (s.setQueue k x).spdm = s.spdm := rfl
@[simp] theorem State.setQueue_fabric (s : State) (k : Nat) (x : Queue) : (s.setQueue k x).fabric = s.fabric := rfl
@[simp] theorem State.setQueue_dvsec (s : State) (k : Nat) (x : Queue) : (s.setQueue k x).dvsec = s.dvsec := rfl
@[simp] theorem State.setQueue_farUp (s : State) (k : Nat) (x : Queue) : (s.setQueue k x).farUp = s.farUp := rfl
@[simp] theorem State.setQueue_links (s : State) (k : Nat) (x : Queue) : (s.setQueue k x).links = s.links := rfl
@[simp] theorem State.setQueue_flows (s : State) (k : Nat) (x : Queue) : (s.setQueue k x).flows = s.flows := rfl
@[simp] theorem State.setQueue_limiters (s : State) (k : Nat) (x : Queue) : (s.setQueue k x).limiters = s.limiters := rfl
@[simp] theorem State.setQueue_ifaces (s : State) (k : Nat) (x : Queue) : (s.setQueue k x).ifaces = s.ifaces := rfl
@[simp] theorem State.setQueue_asids (s : State) (k : Nat) (x : Queue) : (s.setQueue k x).asids = s.asids := rfl
@[simp] theorem State.setQueue_objs (s : State) (k : Nat) (x : Queue) : (s.setQueue k x).objs = s.objs := rfl
@[simp] theorem State.setQueue_qtt (s : State) (k : Nat) (x : Queue) : (s.setQueue k x).qtt = s.qtt := rfl
@[simp] theorem State.setQueue_dies (s : State) (k : Nat) (x : Queue) : (s.setQueue k x).dies = s.dies := rfl
@[simp] theorem State.setQueue_cores (s : State) (k : Nat) (x : Queue) : (s.setQueue k x).cores = s.cores := rfl
@[simp] theorem State.setQueue_slots (s : State) (k : Nat) (x : Queue) : (s.setQueue k x).slots = s.slots := rfl
@[simp] theorem State.setQueue_blocks (s : State) (k : Nat) (x : Queue) : (s.setQueue k x).blocks = s.blocks := rfl
@[simp] theorem State.setQueue_ports (s : State) (k : Nat) (x : Queue) : (s.setQueue k x).ports = s.ports := rfl
@[simp] theorem State.setQueue_erts (s : State) (k : Nat) (x : Queue) : (s.setQueue k x).erts = s.erts := rfl
@[simp] theorem State.setQueue_pools (s : State) (k : Nat) (x : Queue) : (s.setQueue k x).pools = s.pools := rfl
@[simp] theorem State.setQueue_graphs (s : State) (k : Nat) (x : Queue) : (s.setQueue k x).graphs = s.graphs := rfl
@[simp] theorem State.setQueue_mem (s : State) (k : Nat) (x : Queue) : (s.setQueue k x).mem = s.mem := rfl
@[simp] theorem State.setQueue_scr (s : State) (k : Nat) (x : Queue) : (s.setQueue k x).scr = s.scr := rfl
@[simp] theorem State.setQueue_far (s : State) (k : Nat) (x : Queue) : (s.setQueue k x).far = s.far := rfl
@[simp] theorem State.setQueue_hostMem (s : State) (k : Nat) (x : Queue) : (s.setQueue k x).hostMem = s.hostMem := rfl
@[simp] theorem State.setQueue_hostAbsent (s : State) (k : Nat) (x : Queue) : (s.setQueue k x).hostAbsent = s.hostAbsent := rfl
@[simp] theorem State.setQueue_poison (s : State) (k : Nat) (x : Queue) : (s.setQueue k x).poison = s.poison := rfl
@[simp] theorem State.setQueue_out (s : State) (k : Nat) (x : Queue) : (s.setQueue k x).out = s.out := rfl
@[simp] theorem State.setQueue_agenda (s : State) (k : Nat) (x : Queue) : (s.setQueue k x).agenda = s.agenda := rfl
@[simp] theorem State.setQueue_arg (s : State) (k : Nat) (x : Queue) : (s.setQueue k x).arg = s.arg := rfl
@[simp] theorem State.setQueue_cur (s : State) (k : Nat) (x : Queue) : (s.setQueue k x).cur = s.cur := rfl
@[simp] theorem State.setQueue_turn (s : State) (k : Nat) (x : Queue) : (s.setQueue k x).turn = s.turn := rfl
@[simp] theorem State.setQueue_free (s : State) (k : Nat) (x : Queue) : (s.setQueue k x).free = s.free := rfl
@[simp] theorem State.setQueue_ids (s : State) (k : Nat) (x : Queue) : (s.setQueue k x).ids = s.ids := rfl
@[simp] theorem State.setQueue_slot (s : State) (k : Nat) (x : Queue) (j : Nat) : (s.setQueue k x).slot j = s.slot j := rfl
@[simp] theorem State.setQueue_core (s : State) (k : Nat) (x : Queue) (j : Nat) : (s.setQueue k x).core j = s.core j := rfl
@[simp] theorem State.setQueue_die (s : State) (k : Nat) (x : Queue) (j : Nat) : (s.setQueue k x).die j = s.die j := rfl
@[simp] theorem State.setQueue_block (s : State) (k : Nat) (x : Queue) (j : Nat) : (s.setQueue k x).block j = s.block j := rfl
@[simp] theorem State.setQueue_port (s : State) (k : Nat) (x : Queue) (j : Nat) : (s.setQueue k x).port j = s.port j := rfl
@[simp] theorem State.setQueue_iface (s : State) (k : Nat) (x : Queue) (j : Nat) : (s.setQueue k x).iface j = s.iface j := rfl
@[simp] theorem State.setQueue_asid (s : State) (k : Nat) (x : Queue) (j : Nat) : (s.setQueue k x).asid j = s.asid j := rfl
@[simp] theorem State.setQueue_link (s : State) (k : Nat) (x : Queue) (j : Nat) : (s.setQueue k x).link j = s.link j := rfl
@[simp] theorem State.setQueue_limiter (s : State) (k : Nat) (x : Queue) (j : Nat) : (s.setQueue k x).limiter j = s.limiter j := rfl
@[simp] theorem State.setQueue_flow (s : State) (k : Nat) (x : Queue) (g : Flow) : (s.setQueue k x).flow g = s.flow g := rfl
@[simp] theorem State.setQueue_obj (s : State) (k : Nat) (x : Queue) (i j : Nat) : (s.setQueue k x).obj i j = s.obj i j := rfl
@[simp] theorem State.setQueue_ert (s : State) (k : Nat) (x : Queue) (i j : Nat) : (s.setQueue k x).ert i j = s.ert i j := rfl

/-! ### setIface -/

@[simp] theorem State.setIface_time (s : State) (k : Nat) (x : Iface) : (s.setIface k x).time = s.time := rfl
@[simp] theorem State.setIface_lehr (s : State) (k : Nat) (x : Iface) : (s.setIface k x).lehr = s.lehr := rfl
@[simp] theorem State.setIface_lehrAt (s : State) (k : Nat) (x : Iface) : (s.setIface k x).lehrAt = s.lehrAt := rfl
@[simp] theorem State.setIface_wakeQ (s : State) (k : Nat) (x : Iface) : (s.setIface k x).wakeQ = s.wakeQ := rfl
@[simp] theorem State.setIface_wakeAt (s : State) (k : Nat) (x : Iface) : (s.setIface k x).wakeAt = s.wakeAt := rfl
@[simp] theorem State.setIface_powerAvg (s : State) (k : Nat) (x : Iface) : (s.setIface k x).powerAvg = s.powerAvg := rfl
@[simp] theorem State.setIface_powerAt (s : State) (k : Nat) (x : Iface) : (s.setIface k x).powerAt = s.powerAt := rfl
@[simp] theorem State.setIface_powerOver (s : State) (k : Nat) (x : Iface) : (s.setIface k x).powerOver = s.powerOver := rfl
@[simp] theorem State.setIface_priAlloc (s : State) (k : Nat) (x : Iface) : (s.setIface k x).priAlloc = s.priAlloc := rfl
@[simp] theorem State.setIface_priOut (s : State) (k : Nat) (x : Iface) : (s.setIface k x).priOut = s.priOut := rfl
@[simp] theorem State.setIface_grants (s : State) (k : Nat) (x : Iface) : (s.setIface k x).grants = s.grants := rfl
@[simp] theorem State.setIface_orphans (s : State) (k : Nat) (x : Iface) : (s.setIface k x).orphans = s.orphans := rfl
@[simp] theorem State.setIface_mgmt (s : State) (k : Nat) (x : Iface) : (s.setIface k x).mgmt = s.mgmt := rfl
@[simp] theorem State.setIface_spdm (s : State) (k : Nat) (x : Iface) : (s.setIface k x).spdm = s.spdm := rfl
@[simp] theorem State.setIface_fabric (s : State) (k : Nat) (x : Iface) : (s.setIface k x).fabric = s.fabric := rfl
@[simp] theorem State.setIface_dvsec (s : State) (k : Nat) (x : Iface) : (s.setIface k x).dvsec = s.dvsec := rfl
@[simp] theorem State.setIface_farUp (s : State) (k : Nat) (x : Iface) : (s.setIface k x).farUp = s.farUp := rfl
@[simp] theorem State.setIface_links (s : State) (k : Nat) (x : Iface) : (s.setIface k x).links = s.links := rfl
@[simp] theorem State.setIface_flows (s : State) (k : Nat) (x : Iface) : (s.setIface k x).flows = s.flows := rfl
@[simp] theorem State.setIface_limiters (s : State) (k : Nat) (x : Iface) : (s.setIface k x).limiters = s.limiters := rfl
@[simp] theorem State.setIface_asids (s : State) (k : Nat) (x : Iface) : (s.setIface k x).asids = s.asids := rfl
@[simp] theorem State.setIface_objs (s : State) (k : Nat) (x : Iface) : (s.setIface k x).objs = s.objs := rfl
@[simp] theorem State.setIface_qtt (s : State) (k : Nat) (x : Iface) : (s.setIface k x).qtt = s.qtt := rfl
@[simp] theorem State.setIface_dies (s : State) (k : Nat) (x : Iface) : (s.setIface k x).dies = s.dies := rfl
@[simp] theorem State.setIface_cores (s : State) (k : Nat) (x : Iface) : (s.setIface k x).cores = s.cores := rfl
@[simp] theorem State.setIface_slots (s : State) (k : Nat) (x : Iface) : (s.setIface k x).slots = s.slots := rfl
@[simp] theorem State.setIface_blocks (s : State) (k : Nat) (x : Iface) : (s.setIface k x).blocks = s.blocks := rfl
@[simp] theorem State.setIface_ports (s : State) (k : Nat) (x : Iface) : (s.setIface k x).ports = s.ports := rfl
@[simp] theorem State.setIface_queues (s : State) (k : Nat) (x : Iface) : (s.setIface k x).queues = s.queues := rfl
@[simp] theorem State.setIface_erts (s : State) (k : Nat) (x : Iface) : (s.setIface k x).erts = s.erts := rfl
@[simp] theorem State.setIface_pools (s : State) (k : Nat) (x : Iface) : (s.setIface k x).pools = s.pools := rfl
@[simp] theorem State.setIface_graphs (s : State) (k : Nat) (x : Iface) : (s.setIface k x).graphs = s.graphs := rfl
@[simp] theorem State.setIface_mem (s : State) (k : Nat) (x : Iface) : (s.setIface k x).mem = s.mem := rfl
@[simp] theorem State.setIface_scr (s : State) (k : Nat) (x : Iface) : (s.setIface k x).scr = s.scr := rfl
@[simp] theorem State.setIface_far (s : State) (k : Nat) (x : Iface) : (s.setIface k x).far = s.far := rfl
@[simp] theorem State.setIface_hostMem (s : State) (k : Nat) (x : Iface) : (s.setIface k x).hostMem = s.hostMem := rfl
@[simp] theorem State.setIface_hostAbsent (s : State) (k : Nat) (x : Iface) : (s.setIface k x).hostAbsent = s.hostAbsent := rfl
@[simp] theorem State.setIface_poison (s : State) (k : Nat) (x : Iface) : (s.setIface k x).poison = s.poison := rfl
@[simp] theorem State.setIface_out (s : State) (k : Nat) (x : Iface) : (s.setIface k x).out = s.out := rfl
@[simp] theorem State.setIface_agenda (s : State) (k : Nat) (x : Iface) : (s.setIface k x).agenda = s.agenda := rfl
@[simp] theorem State.setIface_arg (s : State) (k : Nat) (x : Iface) : (s.setIface k x).arg = s.arg := rfl
@[simp] theorem State.setIface_cur (s : State) (k : Nat) (x : Iface) : (s.setIface k x).cur = s.cur := rfl
@[simp] theorem State.setIface_turn (s : State) (k : Nat) (x : Iface) : (s.setIface k x).turn = s.turn := rfl
@[simp] theorem State.setIface_free (s : State) (k : Nat) (x : Iface) : (s.setIface k x).free = s.free := rfl
@[simp] theorem State.setIface_ids (s : State) (k : Nat) (x : Iface) : (s.setIface k x).ids = s.ids := rfl
@[simp] theorem State.setIface_slot (s : State) (k : Nat) (x : Iface) (j : Nat) : (s.setIface k x).slot j = s.slot j := rfl
@[simp] theorem State.setIface_core (s : State) (k : Nat) (x : Iface) (j : Nat) : (s.setIface k x).core j = s.core j := rfl
@[simp] theorem State.setIface_die (s : State) (k : Nat) (x : Iface) (j : Nat) : (s.setIface k x).die j = s.die j := rfl
@[simp] theorem State.setIface_block (s : State) (k : Nat) (x : Iface) (j : Nat) : (s.setIface k x).block j = s.block j := rfl
@[simp] theorem State.setIface_port (s : State) (k : Nat) (x : Iface) (j : Nat) : (s.setIface k x).port j = s.port j := rfl
@[simp] theorem State.setIface_queue (s : State) (k : Nat) (x : Iface) (j : Nat) : (s.setIface k x).queue j = s.queue j := rfl
@[simp] theorem State.setIface_asid (s : State) (k : Nat) (x : Iface) (j : Nat) : (s.setIface k x).asid j = s.asid j := rfl
@[simp] theorem State.setIface_link (s : State) (k : Nat) (x : Iface) (j : Nat) : (s.setIface k x).link j = s.link j := rfl
@[simp] theorem State.setIface_limiter (s : State) (k : Nat) (x : Iface) (j : Nat) : (s.setIface k x).limiter j = s.limiter j := rfl
@[simp] theorem State.setIface_flow (s : State) (k : Nat) (x : Iface) (g : Flow) : (s.setIface k x).flow g = s.flow g := rfl
@[simp] theorem State.setIface_obj (s : State) (k : Nat) (x : Iface) (i j : Nat) : (s.setIface k x).obj i j = s.obj i j := rfl
@[simp] theorem State.setIface_ert (s : State) (k : Nat) (x : Iface) (i j : Nat) : (s.setIface k x).ert i j = s.ert i j := rfl

/-! ### setAsid -/

@[simp] theorem State.setAsid_time (s : State) (k : Nat) (x : Asid) : (s.setAsid k x).time = s.time := rfl
@[simp] theorem State.setAsid_lehr (s : State) (k : Nat) (x : Asid) : (s.setAsid k x).lehr = s.lehr := rfl
@[simp] theorem State.setAsid_lehrAt (s : State) (k : Nat) (x : Asid) : (s.setAsid k x).lehrAt = s.lehrAt := rfl
@[simp] theorem State.setAsid_wakeQ (s : State) (k : Nat) (x : Asid) : (s.setAsid k x).wakeQ = s.wakeQ := rfl
@[simp] theorem State.setAsid_wakeAt (s : State) (k : Nat) (x : Asid) : (s.setAsid k x).wakeAt = s.wakeAt := rfl
@[simp] theorem State.setAsid_powerAvg (s : State) (k : Nat) (x : Asid) : (s.setAsid k x).powerAvg = s.powerAvg := rfl
@[simp] theorem State.setAsid_powerAt (s : State) (k : Nat) (x : Asid) : (s.setAsid k x).powerAt = s.powerAt := rfl
@[simp] theorem State.setAsid_powerOver (s : State) (k : Nat) (x : Asid) : (s.setAsid k x).powerOver = s.powerOver := rfl
@[simp] theorem State.setAsid_priAlloc (s : State) (k : Nat) (x : Asid) : (s.setAsid k x).priAlloc = s.priAlloc := rfl
@[simp] theorem State.setAsid_priOut (s : State) (k : Nat) (x : Asid) : (s.setAsid k x).priOut = s.priOut := rfl
@[simp] theorem State.setAsid_grants (s : State) (k : Nat) (x : Asid) : (s.setAsid k x).grants = s.grants := rfl
@[simp] theorem State.setAsid_orphans (s : State) (k : Nat) (x : Asid) : (s.setAsid k x).orphans = s.orphans := rfl
@[simp] theorem State.setAsid_mgmt (s : State) (k : Nat) (x : Asid) : (s.setAsid k x).mgmt = s.mgmt := rfl
@[simp] theorem State.setAsid_spdm (s : State) (k : Nat) (x : Asid) : (s.setAsid k x).spdm = s.spdm := rfl
@[simp] theorem State.setAsid_fabric (s : State) (k : Nat) (x : Asid) : (s.setAsid k x).fabric = s.fabric := rfl
@[simp] theorem State.setAsid_dvsec (s : State) (k : Nat) (x : Asid) : (s.setAsid k x).dvsec = s.dvsec := rfl
@[simp] theorem State.setAsid_farUp (s : State) (k : Nat) (x : Asid) : (s.setAsid k x).farUp = s.farUp := rfl
@[simp] theorem State.setAsid_links (s : State) (k : Nat) (x : Asid) : (s.setAsid k x).links = s.links := rfl
@[simp] theorem State.setAsid_flows (s : State) (k : Nat) (x : Asid) : (s.setAsid k x).flows = s.flows := rfl
@[simp] theorem State.setAsid_limiters (s : State) (k : Nat) (x : Asid) : (s.setAsid k x).limiters = s.limiters := rfl
@[simp] theorem State.setAsid_ifaces (s : State) (k : Nat) (x : Asid) : (s.setAsid k x).ifaces = s.ifaces := rfl
@[simp] theorem State.setAsid_objs (s : State) (k : Nat) (x : Asid) : (s.setAsid k x).objs = s.objs := rfl
@[simp] theorem State.setAsid_qtt (s : State) (k : Nat) (x : Asid) : (s.setAsid k x).qtt = s.qtt := rfl
@[simp] theorem State.setAsid_dies (s : State) (k : Nat) (x : Asid) : (s.setAsid k x).dies = s.dies := rfl
@[simp] theorem State.setAsid_cores (s : State) (k : Nat) (x : Asid) : (s.setAsid k x).cores = s.cores := rfl
@[simp] theorem State.setAsid_slots (s : State) (k : Nat) (x : Asid) : (s.setAsid k x).slots = s.slots := rfl
@[simp] theorem State.setAsid_blocks (s : State) (k : Nat) (x : Asid) : (s.setAsid k x).blocks = s.blocks := rfl
@[simp] theorem State.setAsid_ports (s : State) (k : Nat) (x : Asid) : (s.setAsid k x).ports = s.ports := rfl
@[simp] theorem State.setAsid_queues (s : State) (k : Nat) (x : Asid) : (s.setAsid k x).queues = s.queues := rfl
@[simp] theorem State.setAsid_erts (s : State) (k : Nat) (x : Asid) : (s.setAsid k x).erts = s.erts := rfl
@[simp] theorem State.setAsid_pools (s : State) (k : Nat) (x : Asid) : (s.setAsid k x).pools = s.pools := rfl
@[simp] theorem State.setAsid_graphs (s : State) (k : Nat) (x : Asid) : (s.setAsid k x).graphs = s.graphs := rfl
@[simp] theorem State.setAsid_mem (s : State) (k : Nat) (x : Asid) : (s.setAsid k x).mem = s.mem := rfl
@[simp] theorem State.setAsid_scr (s : State) (k : Nat) (x : Asid) : (s.setAsid k x).scr = s.scr := rfl
@[simp] theorem State.setAsid_far (s : State) (k : Nat) (x : Asid) : (s.setAsid k x).far = s.far := rfl
@[simp] theorem State.setAsid_hostMem (s : State) (k : Nat) (x : Asid) : (s.setAsid k x).hostMem = s.hostMem := rfl
@[simp] theorem State.setAsid_hostAbsent (s : State) (k : Nat) (x : Asid) : (s.setAsid k x).hostAbsent = s.hostAbsent := rfl
@[simp] theorem State.setAsid_poison (s : State) (k : Nat) (x : Asid) : (s.setAsid k x).poison = s.poison := rfl
@[simp] theorem State.setAsid_out (s : State) (k : Nat) (x : Asid) : (s.setAsid k x).out = s.out := rfl
@[simp] theorem State.setAsid_agenda (s : State) (k : Nat) (x : Asid) : (s.setAsid k x).agenda = s.agenda := rfl
@[simp] theorem State.setAsid_arg (s : State) (k : Nat) (x : Asid) : (s.setAsid k x).arg = s.arg := rfl
@[simp] theorem State.setAsid_cur (s : State) (k : Nat) (x : Asid) : (s.setAsid k x).cur = s.cur := rfl
@[simp] theorem State.setAsid_turn (s : State) (k : Nat) (x : Asid) : (s.setAsid k x).turn = s.turn := rfl
@[simp] theorem State.setAsid_free (s : State) (k : Nat) (x : Asid) : (s.setAsid k x).free = s.free := rfl
@[simp] theorem State.setAsid_ids (s : State) (k : Nat) (x : Asid) : (s.setAsid k x).ids = s.ids := rfl
@[simp] theorem State.setAsid_slot (s : State) (k : Nat) (x : Asid) (j : Nat) : (s.setAsid k x).slot j = s.slot j := rfl
@[simp] theorem State.setAsid_core (s : State) (k : Nat) (x : Asid) (j : Nat) : (s.setAsid k x).core j = s.core j := rfl
@[simp] theorem State.setAsid_die (s : State) (k : Nat) (x : Asid) (j : Nat) : (s.setAsid k x).die j = s.die j := rfl
@[simp] theorem State.setAsid_block (s : State) (k : Nat) (x : Asid) (j : Nat) : (s.setAsid k x).block j = s.block j := rfl
@[simp] theorem State.setAsid_port (s : State) (k : Nat) (x : Asid) (j : Nat) : (s.setAsid k x).port j = s.port j := rfl
@[simp] theorem State.setAsid_queue (s : State) (k : Nat) (x : Asid) (j : Nat) : (s.setAsid k x).queue j = s.queue j := rfl
@[simp] theorem State.setAsid_iface (s : State) (k : Nat) (x : Asid) (j : Nat) : (s.setAsid k x).iface j = s.iface j := rfl
@[simp] theorem State.setAsid_link (s : State) (k : Nat) (x : Asid) (j : Nat) : (s.setAsid k x).link j = s.link j := rfl
@[simp] theorem State.setAsid_limiter (s : State) (k : Nat) (x : Asid) (j : Nat) : (s.setAsid k x).limiter j = s.limiter j := rfl
@[simp] theorem State.setAsid_flow (s : State) (k : Nat) (x : Asid) (g : Flow) : (s.setAsid k x).flow g = s.flow g := rfl
@[simp] theorem State.setAsid_obj (s : State) (k : Nat) (x : Asid) (i j : Nat) : (s.setAsid k x).obj i j = s.obj i j := rfl
@[simp] theorem State.setAsid_ert (s : State) (k : Nat) (x : Asid) (i j : Nat) : (s.setAsid k x).ert i j = s.ert i j := rfl

/-! ### setObj -/

@[simp] theorem State.setObj_time (s : State) (a k : Nat) (x : Obj) : (s.setObj a k x).time = s.time := rfl
@[simp] theorem State.setObj_lehr (s : State) (a k : Nat) (x : Obj) : (s.setObj a k x).lehr = s.lehr := rfl
@[simp] theorem State.setObj_lehrAt (s : State) (a k : Nat) (x : Obj) : (s.setObj a k x).lehrAt = s.lehrAt := rfl
@[simp] theorem State.setObj_wakeQ (s : State) (a k : Nat) (x : Obj) : (s.setObj a k x).wakeQ = s.wakeQ := rfl
@[simp] theorem State.setObj_wakeAt (s : State) (a k : Nat) (x : Obj) : (s.setObj a k x).wakeAt = s.wakeAt := rfl
@[simp] theorem State.setObj_powerAvg (s : State) (a k : Nat) (x : Obj) : (s.setObj a k x).powerAvg = s.powerAvg := rfl
@[simp] theorem State.setObj_powerAt (s : State) (a k : Nat) (x : Obj) : (s.setObj a k x).powerAt = s.powerAt := rfl
@[simp] theorem State.setObj_powerOver (s : State) (a k : Nat) (x : Obj) : (s.setObj a k x).powerOver = s.powerOver := rfl
@[simp] theorem State.setObj_priAlloc (s : State) (a k : Nat) (x : Obj) : (s.setObj a k x).priAlloc = s.priAlloc := rfl
@[simp] theorem State.setObj_priOut (s : State) (a k : Nat) (x : Obj) : (s.setObj a k x).priOut = s.priOut := rfl
@[simp] theorem State.setObj_grants (s : State) (a k : Nat) (x : Obj) : (s.setObj a k x).grants = s.grants := rfl
@[simp] theorem State.setObj_orphans (s : State) (a k : Nat) (x : Obj) : (s.setObj a k x).orphans = s.orphans := rfl
@[simp] theorem State.setObj_mgmt (s : State) (a k : Nat) (x : Obj) : (s.setObj a k x).mgmt = s.mgmt := rfl
@[simp] theorem State.setObj_spdm (s : State) (a k : Nat) (x : Obj) : (s.setObj a k x).spdm = s.spdm := rfl
@[simp] theorem State.setObj_fabric (s : State) (a k : Nat) (x : Obj) : (s.setObj a k x).fabric = s.fabric := rfl
@[simp] theorem State.setObj_dvsec (s : State) (a k : Nat) (x : Obj) : (s.setObj a k x).dvsec = s.dvsec := rfl
@[simp] theorem State.setObj_farUp (s : State) (a k : Nat) (x : Obj) : (s.setObj a k x).farUp = s.farUp := rfl
@[simp] theorem State.setObj_links (s : State) (a k : Nat) (x : Obj) : (s.setObj a k x).links = s.links := rfl
@[simp] theorem State.setObj_flows (s : State) (a k : Nat) (x : Obj) : (s.setObj a k x).flows = s.flows := rfl
@[simp] theorem State.setObj_limiters (s : State) (a k : Nat) (x : Obj) : (s.setObj a k x).limiters = s.limiters := rfl
@[simp] theorem State.setObj_ifaces (s : State) (a k : Nat) (x : Obj) : (s.setObj a k x).ifaces = s.ifaces := rfl
@[simp] theorem State.setObj_asids (s : State) (a k : Nat) (x : Obj) : (s.setObj a k x).asids = s.asids := rfl
@[simp] theorem State.setObj_qtt (s : State) (a k : Nat) (x : Obj) : (s.setObj a k x).qtt = s.qtt := rfl
@[simp] theorem State.setObj_dies (s : State) (a k : Nat) (x : Obj) : (s.setObj a k x).dies = s.dies := rfl
@[simp] theorem State.setObj_cores (s : State) (a k : Nat) (x : Obj) : (s.setObj a k x).cores = s.cores := rfl
@[simp] theorem State.setObj_slots (s : State) (a k : Nat) (x : Obj) : (s.setObj a k x).slots = s.slots := rfl
@[simp] theorem State.setObj_blocks (s : State) (a k : Nat) (x : Obj) : (s.setObj a k x).blocks = s.blocks := rfl
@[simp] theorem State.setObj_ports (s : State) (a k : Nat) (x : Obj) : (s.setObj a k x).ports = s.ports := rfl
@[simp] theorem State.setObj_queues (s : State) (a k : Nat) (x : Obj) : (s.setObj a k x).queues = s.queues := rfl
@[simp] theorem State.setObj_erts (s : State) (a k : Nat) (x : Obj) : (s.setObj a k x).erts = s.erts := rfl
@[simp] theorem State.setObj_pools (s : State) (a k : Nat) (x : Obj) : (s.setObj a k x).pools = s.pools := rfl
@[simp] theorem State.setObj_graphs (s : State) (a k : Nat) (x : Obj) : (s.setObj a k x).graphs = s.graphs := rfl
@[simp] theorem State.setObj_mem (s : State) (a k : Nat) (x : Obj) : (s.setObj a k x).mem = s.mem := rfl
@[simp] theorem State.setObj_scr (s : State) (a k : Nat) (x : Obj) : (s.setObj a k x).scr = s.scr := rfl
@[simp] theorem State.setObj_far (s : State) (a k : Nat) (x : Obj) : (s.setObj a k x).far = s.far := rfl
@[simp] theorem State.setObj_hostMem (s : State) (a k : Nat) (x : Obj) : (s.setObj a k x).hostMem = s.hostMem := rfl
@[simp] theorem State.setObj_hostAbsent (s : State) (a k : Nat) (x : Obj) : (s.setObj a k x).hostAbsent = s.hostAbsent := rfl
@[simp] theorem State.setObj_poison (s : State) (a k : Nat) (x : Obj) : (s.setObj a k x).poison = s.poison := rfl
@[simp] theorem State.setObj_out (s : State) (a k : Nat) (x : Obj) : (s.setObj a k x).out = s.out := rfl
@[simp] theorem State.setObj_agenda (s : State) (a k : Nat) (x : Obj) : (s.setObj a k x).agenda = s.agenda := rfl
@[simp] theorem State.setObj_arg (s : State) (a k : Nat) (x : Obj) : (s.setObj a k x).arg = s.arg := rfl
@[simp] theorem State.setObj_cur (s : State) (a k : Nat) (x : Obj) : (s.setObj a k x).cur = s.cur := rfl
@[simp] theorem State.setObj_turn (s : State) (a k : Nat) (x : Obj) : (s.setObj a k x).turn = s.turn := rfl
@[simp] theorem State.setObj_free (s : State) (a k : Nat) (x : Obj) : (s.setObj a k x).free = s.free := rfl
@[simp] theorem State.setObj_ids (s : State) (a k : Nat) (x : Obj) : (s.setObj a k x).ids = s.ids := rfl
@[simp] theorem State.setObj_slot (s : State) (a k : Nat) (x : Obj) (j : Nat) : (s.setObj a k x).slot j = s.slot j := rfl
@[simp] theorem State.setObj_core (s : State) (a k : Nat) (x : Obj) (j : Nat) : (s.setObj a k x).core j = s.core j := rfl
@[simp] theorem State.setObj_die (s : State) (a k : Nat) (x : Obj) (j : Nat) : (s.setObj a k x).die j = s.die j := rfl
@[simp] theorem State.setObj_block (s : State) (a k : Nat) (x : Obj) (j : Nat) : (s.setObj a k x).block j = s.block j := rfl
@[simp] theorem State.setObj_port (s : State) (a k : Nat) (x : Obj) (j : Nat) : (s.setObj a k x).port j = s.port j := rfl
@[simp] theorem State.setObj_queue (s : State) (a k : Nat) (x : Obj) (j : Nat) : (s.setObj a k x).queue j = s.queue j := rfl
@[simp] theorem State.setObj_iface (s : State) (a k : Nat) (x : Obj) (j : Nat) : (s.setObj a k x).iface j = s.iface j := rfl
@[simp] theorem State.setObj_asid (s : State) (a k : Nat) (x : Obj) (j : Nat) : (s.setObj a k x).asid j = s.asid j := rfl
@[simp] theorem State.setObj_link (s : State) (a k : Nat) (x : Obj) (j : Nat) : (s.setObj a k x).link j = s.link j := rfl
@[simp] theorem State.setObj_limiter (s : State) (a k : Nat) (x : Obj) (j : Nat) : (s.setObj a k x).limiter j = s.limiter j := rfl
@[simp] theorem State.setObj_flow (s : State) (a k : Nat) (x : Obj) (g : Flow) : (s.setObj a k x).flow g = s.flow g := rfl
@[simp] theorem State.setObj_ert (s : State) (a k : Nat) (x : Obj) (i j : Nat) : (s.setObj a k x).ert i j = s.ert i j := rfl

/-! ### setErt -/

@[simp] theorem State.setErt_time (s : State) (d k : Nat) (x : Ert) : (s.setErt d k x).time = s.time := rfl
@[simp] theorem State.setErt_lehr (s : State) (d k : Nat) (x : Ert) : (s.setErt d k x).lehr = s.lehr := rfl
@[simp] theorem State.setErt_lehrAt (s : State) (d k : Nat) (x : Ert) : (s.setErt d k x).lehrAt = s.lehrAt := rfl
@[simp] theorem State.setErt_wakeQ (s : State) (d k : Nat) (x : Ert) : (s.setErt d k x).wakeQ = s.wakeQ := rfl
@[simp] theorem State.setErt_wakeAt (s : State) (d k : Nat) (x : Ert) : (s.setErt d k x).wakeAt = s.wakeAt := rfl
@[simp] theorem State.setErt_powerAvg (s : State) (d k : Nat) (x : Ert) : (s.setErt d k x).powerAvg = s.powerAvg := rfl
@[simp] theorem State.setErt_powerAt (s : State) (d k : Nat) (x : Ert) : (s.setErt d k x).powerAt = s.powerAt := rfl
@[simp] theorem State.setErt_powerOver (s : State) (d k : Nat) (x : Ert) : (s.setErt d k x).powerOver = s.powerOver := rfl
@[simp] theorem State.setErt_priAlloc (s : State) (d k : Nat) (x : Ert) : (s.setErt d k x).priAlloc = s.priAlloc := rfl
@[simp] theorem State.setErt_priOut (s : State) (d k : Nat) (x : Ert) : (s.setErt d k x).priOut = s.priOut := rfl
@[simp] theorem State.setErt_grants (s : State) (d k : Nat) (x : Ert) : (s.setErt d k x).grants = s.grants := rfl
@[simp] theorem State.setErt_orphans (s : State) (d k : Nat) (x : Ert) : (s.setErt d k x).orphans = s.orphans := rfl
@[simp] theorem State.setErt_mgmt (s : State) (d k : Nat) (x : Ert) : (s.setErt d k x).mgmt = s.mgmt := rfl
@[simp] theorem State.setErt_spdm (s : State) (d k : Nat) (x : Ert) : (s.setErt d k x).spdm = s.spdm := rfl
@[simp] theorem State.setErt_fabric (s : State) (d k : Nat) (x : Ert) : (s.setErt d k x).fabric = s.fabric := rfl
@[simp] theorem State.setErt_dvsec (s : State) (d k : Nat) (x : Ert) : (s.setErt d k x).dvsec = s.dvsec := rfl
@[simp] theorem State.setErt_farUp (s : State) (d k : Nat) (x : Ert) : (s.setErt d k x).farUp = s.farUp := rfl
@[simp] theorem State.setErt_links (s : State) (d k : Nat) (x : Ert) : (s.setErt d k x).links = s.links := rfl
@[simp] theorem State.setErt_flows (s : State) (d k : Nat) (x : Ert) : (s.setErt d k x).flows = s.flows := rfl
@[simp] theorem State.setErt_limiters (s : State) (d k : Nat) (x : Ert) : (s.setErt d k x).limiters = s.limiters := rfl
@[simp] theorem State.setErt_ifaces (s : State) (d k : Nat) (x : Ert) : (s.setErt d k x).ifaces = s.ifaces := rfl
@[simp] theorem State.setErt_asids (s : State) (d k : Nat) (x : Ert) : (s.setErt d k x).asids = s.asids := rfl
@[simp] theorem State.setErt_objs (s : State) (d k : Nat) (x : Ert) : (s.setErt d k x).objs = s.objs := rfl
@[simp] theorem State.setErt_qtt (s : State) (d k : Nat) (x : Ert) : (s.setErt d k x).qtt = s.qtt := rfl
@[simp] theorem State.setErt_dies (s : State) (d k : Nat) (x : Ert) : (s.setErt d k x).dies = s.dies := rfl
@[simp] theorem State.setErt_cores (s : State) (d k : Nat) (x : Ert) : (s.setErt d k x).cores = s.cores := rfl
@[simp] theorem State.setErt_slots (s : State) (d k : Nat) (x : Ert) : (s.setErt d k x).slots = s.slots := rfl
@[simp] theorem State.setErt_blocks (s : State) (d k : Nat) (x : Ert) : (s.setErt d k x).blocks = s.blocks := rfl
@[simp] theorem State.setErt_ports (s : State) (d k : Nat) (x : Ert) : (s.setErt d k x).ports = s.ports := rfl
@[simp] theorem State.setErt_queues (s : State) (d k : Nat) (x : Ert) : (s.setErt d k x).queues = s.queues := rfl
@[simp] theorem State.setErt_pools (s : State) (d k : Nat) (x : Ert) : (s.setErt d k x).pools = s.pools := rfl
@[simp] theorem State.setErt_graphs (s : State) (d k : Nat) (x : Ert) : (s.setErt d k x).graphs = s.graphs := rfl
@[simp] theorem State.setErt_mem (s : State) (d k : Nat) (x : Ert) : (s.setErt d k x).mem = s.mem := rfl
@[simp] theorem State.setErt_scr (s : State) (d k : Nat) (x : Ert) : (s.setErt d k x).scr = s.scr := rfl
@[simp] theorem State.setErt_far (s : State) (d k : Nat) (x : Ert) : (s.setErt d k x).far = s.far := rfl
@[simp] theorem State.setErt_hostMem (s : State) (d k : Nat) (x : Ert) : (s.setErt d k x).hostMem = s.hostMem := rfl
@[simp] theorem State.setErt_hostAbsent (s : State) (d k : Nat) (x : Ert) : (s.setErt d k x).hostAbsent = s.hostAbsent := rfl
@[simp] theorem State.setErt_poison (s : State) (d k : Nat) (x : Ert) : (s.setErt d k x).poison = s.poison := rfl
@[simp] theorem State.setErt_out (s : State) (d k : Nat) (x : Ert) : (s.setErt d k x).out = s.out := rfl
@[simp] theorem State.setErt_agenda (s : State) (d k : Nat) (x : Ert) : (s.setErt d k x).agenda = s.agenda := rfl
@[simp] theorem State.setErt_arg (s : State) (d k : Nat) (x : Ert) : (s.setErt d k x).arg = s.arg := rfl
@[simp] theorem State.setErt_cur (s : State) (d k : Nat) (x : Ert) : (s.setErt d k x).cur = s.cur := rfl
@[simp] theorem State.setErt_turn (s : State) (d k : Nat) (x : Ert) : (s.setErt d k x).turn = s.turn := rfl
@[simp] theorem State.setErt_free (s : State) (d k : Nat) (x : Ert) : (s.setErt d k x).free = s.free := rfl
@[simp] theorem State.setErt_ids (s : State) (d k : Nat) (x : Ert) : (s.setErt d k x).ids = s.ids := rfl
@[simp] theorem State.setErt_slot (s : State) (d k : Nat) (x : Ert) (j : Nat) : (s.setErt d k x).slot j = s.slot j := rfl
@[simp] theorem State.setErt_core (s : State) (d k : Nat) (x : Ert) (j : Nat) : (s.setErt d k x).core j = s.core j := rfl
@[simp] theorem State.setErt_die (s : State) (d k : Nat) (x : Ert) (j : Nat) : (s.setErt d k x).die j = s.die j := rfl
@[simp] theorem State.setErt_block (s : State) (d k : Nat) (x : Ert) (j : Nat) : (s.setErt d k x).block j = s.block j := rfl
@[simp] theorem State.setErt_port (s : State) (d k : Nat) (x : Ert) (j : Nat) : (s.setErt d k x).port j = s.port j := rfl
@[simp] theorem State.setErt_queue (s : State) (d k : Nat) (x : Ert) (j : Nat) : (s.setErt d k x).queue j = s.queue j := rfl
@[simp] theorem State.setErt_iface (s : State) (d k : Nat) (x : Ert) (j : Nat) : (s.setErt d k x).iface j = s.iface j := rfl
@[simp] theorem State.setErt_asid (s : State) (d k : Nat) (x : Ert) (j : Nat) : (s.setErt d k x).asid j = s.asid j := rfl
@[simp] theorem State.setErt_link (s : State) (d k : Nat) (x : Ert) (j : Nat) : (s.setErt d k x).link j = s.link j := rfl
@[simp] theorem State.setErt_limiter (s : State) (d k : Nat) (x : Ert) (j : Nat) : (s.setErt d k x).limiter j = s.limiter j := rfl
@[simp] theorem State.setErt_flow (s : State) (d k : Nat) (x : Ert) (g : Flow) : (s.setErt d k x).flow g = s.flow g := rfl
@[simp] theorem State.setErt_obj (s : State) (d k : Nat) (x : Ert) (i j : Nat) : (s.setErt d k x).obj i j = s.obj i j := rfl

/-! ### setLink -/

@[simp] theorem State.setLink_time (s : State) (k : Nat) (x : Link) : (s.setLink k x).time = s.time := rfl
@[simp] theorem State.setLink_lehr (s : State) (k : Nat) (x : Link) : (s.setLink k x).lehr = s.lehr := rfl
@[simp] theorem State.setLink_lehrAt (s : State) (k : Nat) (x : Link) : (s.setLink k x).lehrAt = s.lehrAt := rfl
@[simp] theorem State.setLink_wakeQ (s : State) (k : Nat) (x : Link) : (s.setLink k x).wakeQ = s.wakeQ := rfl
@[simp] theorem State.setLink_wakeAt (s : State) (k : Nat) (x : Link) : (s.setLink k x).wakeAt = s.wakeAt := rfl
@[simp] theorem State.setLink_powerAvg (s : State) (k : Nat) (x : Link) : (s.setLink k x).powerAvg = s.powerAvg := rfl
@[simp] theorem State.setLink_powerAt (s : State) (k : Nat) (x : Link) : (s.setLink k x).powerAt = s.powerAt := rfl
@[simp] theorem State.setLink_powerOver (s : State) (k : Nat) (x : Link) : (s.setLink k x).powerOver = s.powerOver := rfl
@[simp] theorem State.setLink_priAlloc (s : State) (k : Nat) (x : Link) : (s.setLink k x).priAlloc = s.priAlloc := rfl
@[simp] theorem State.setLink_priOut (s : State) (k : Nat) (x : Link) : (s.setLink k x).priOut = s.priOut := rfl
@[simp] theorem State.setLink_grants (s : State) (k : Nat) (x : Link) : (s.setLink k x).grants = s.grants := rfl
@[simp] theorem State.setLink_orphans (s : State) (k : Nat) (x : Link) : (s.setLink k x).orphans = s.orphans := rfl
@[simp] theorem State.setLink_mgmt (s : State) (k : Nat) (x : Link) : (s.setLink k x).mgmt = s.mgmt := rfl
@[simp] theorem State.setLink_spdm (s : State) (k : Nat) (x : Link) : (s.setLink k x).spdm = s.spdm := rfl
@[simp] theorem State.setLink_fabric (s : State) (k : Nat) (x : Link) : (s.setLink k x).fabric = s.fabric := rfl
@[simp] theorem State.setLink_dvsec (s : State) (k : Nat) (x : Link) : (s.setLink k x).dvsec = s.dvsec := rfl
@[simp] theorem State.setLink_farUp (s : State) (k : Nat) (x : Link) : (s.setLink k x).farUp = s.farUp := rfl
@[simp] theorem State.setLink_flows (s : State) (k : Nat) (x : Link) : (s.setLink k x).flows = s.flows := rfl
@[simp] theorem State.setLink_limiters (s : State) (k : Nat) (x : Link) : (s.setLink k x).limiters = s.limiters := rfl
@[simp] theorem State.setLink_ifaces (s : State) (k : Nat) (x : Link) : (s.setLink k x).ifaces = s.ifaces := rfl
@[simp] theorem State.setLink_asids (s : State) (k : Nat) (x : Link) : (s.setLink k x).asids = s.asids := rfl
@[simp] theorem State.setLink_objs (s : State) (k : Nat) (x : Link) : (s.setLink k x).objs = s.objs := rfl
@[simp] theorem State.setLink_qtt (s : State) (k : Nat) (x : Link) : (s.setLink k x).qtt = s.qtt := rfl
@[simp] theorem State.setLink_dies (s : State) (k : Nat) (x : Link) : (s.setLink k x).dies = s.dies := rfl
@[simp] theorem State.setLink_cores (s : State) (k : Nat) (x : Link) : (s.setLink k x).cores = s.cores := rfl
@[simp] theorem State.setLink_slots (s : State) (k : Nat) (x : Link) : (s.setLink k x).slots = s.slots := rfl
@[simp] theorem State.setLink_blocks (s : State) (k : Nat) (x : Link) : (s.setLink k x).blocks = s.blocks := rfl
@[simp] theorem State.setLink_ports (s : State) (k : Nat) (x : Link) : (s.setLink k x).ports = s.ports := rfl
@[simp] theorem State.setLink_queues (s : State) (k : Nat) (x : Link) : (s.setLink k x).queues = s.queues := rfl
@[simp] theorem State.setLink_erts (s : State) (k : Nat) (x : Link) : (s.setLink k x).erts = s.erts := rfl
@[simp] theorem State.setLink_pools (s : State) (k : Nat) (x : Link) : (s.setLink k x).pools = s.pools := rfl
@[simp] theorem State.setLink_graphs (s : State) (k : Nat) (x : Link) : (s.setLink k x).graphs = s.graphs := rfl
@[simp] theorem State.setLink_mem (s : State) (k : Nat) (x : Link) : (s.setLink k x).mem = s.mem := rfl
@[simp] theorem State.setLink_scr (s : State) (k : Nat) (x : Link) : (s.setLink k x).scr = s.scr := rfl
@[simp] theorem State.setLink_far (s : State) (k : Nat) (x : Link) : (s.setLink k x).far = s.far := rfl
@[simp] theorem State.setLink_hostMem (s : State) (k : Nat) (x : Link) : (s.setLink k x).hostMem = s.hostMem := rfl
@[simp] theorem State.setLink_hostAbsent (s : State) (k : Nat) (x : Link) : (s.setLink k x).hostAbsent = s.hostAbsent := rfl
@[simp] theorem State.setLink_poison (s : State) (k : Nat) (x : Link) : (s.setLink k x).poison = s.poison := rfl
@[simp] theorem State.setLink_out (s : State) (k : Nat) (x : Link) : (s.setLink k x).out = s.out := rfl
@[simp] theorem State.setLink_agenda (s : State) (k : Nat) (x : Link) : (s.setLink k x).agenda = s.agenda := rfl
@[simp] theorem State.setLink_arg (s : State) (k : Nat) (x : Link) : (s.setLink k x).arg = s.arg := rfl
@[simp] theorem State.setLink_cur (s : State) (k : Nat) (x : Link) : (s.setLink k x).cur = s.cur := rfl
@[simp] theorem State.setLink_turn (s : State) (k : Nat) (x : Link) : (s.setLink k x).turn = s.turn := rfl
@[simp] theorem State.setLink_free (s : State) (k : Nat) (x : Link) : (s.setLink k x).free = s.free := rfl
@[simp] theorem State.setLink_ids (s : State) (k : Nat) (x : Link) : (s.setLink k x).ids = s.ids := rfl
@[simp] theorem State.setLink_slot (s : State) (k : Nat) (x : Link) (j : Nat) : (s.setLink k x).slot j = s.slot j := rfl
@[simp] theorem State.setLink_core (s : State) (k : Nat) (x : Link) (j : Nat) : (s.setLink k x).core j = s.core j := rfl
@[simp] theorem State.setLink_die (s : State) (k : Nat) (x : Link) (j : Nat) : (s.setLink k x).die j = s.die j := rfl
@[simp] theorem State.setLink_block (s : State) (k : Nat) (x : Link) (j : Nat) : (s.setLink k x).block j = s.block j := rfl
@[simp] theorem State.setLink_port (s : State) (k : Nat) (x : Link) (j : Nat) : (s.setLink k x).port j = s.port j := rfl
@[simp] theorem State.setLink_queue (s : State) (k : Nat) (x : Link) (j : Nat) : (s.setLink k x).queue j = s.queue j := rfl
@[simp] theorem State.setLink_iface (s : State) (k : Nat) (x : Link) (j : Nat) : (s.setLink k x).iface j = s.iface j := rfl
@[simp] theorem State.setLink_asid (s : State) (k : Nat) (x : Link) (j : Nat) : (s.setLink k x).asid j = s.asid j := rfl
@[simp] theorem State.setLink_limiter (s : State) (k : Nat) (x : Link) (j : Nat) : (s.setLink k x).limiter j = s.limiter j := rfl
@[simp] theorem State.setLink_flow (s : State) (k : Nat) (x : Link) (g : Flow) : (s.setLink k x).flow g = s.flow g := rfl
@[simp] theorem State.setLink_obj (s : State) (k : Nat) (x : Link) (i j : Nat) : (s.setLink k x).obj i j = s.obj i j := rfl
@[simp] theorem State.setLink_ert (s : State) (k : Nat) (x : Link) (i j : Nat) : (s.setLink k x).ert i j = s.ert i j := rfl

/-! ### setFlow -/

@[simp] theorem State.setFlow_time (s : State) (f : Flow) (x : FlowState) : (s.setFlow f x).time = s.time := rfl
@[simp] theorem State.setFlow_lehr (s : State) (f : Flow) (x : FlowState) : (s.setFlow f x).lehr = s.lehr := rfl
@[simp] theorem State.setFlow_lehrAt (s : State) (f : Flow) (x : FlowState) : (s.setFlow f x).lehrAt = s.lehrAt := rfl
@[simp] theorem State.setFlow_wakeQ (s : State) (f : Flow) (x : FlowState) : (s.setFlow f x).wakeQ = s.wakeQ := rfl
@[simp] theorem State.setFlow_wakeAt (s : State) (f : Flow) (x : FlowState) : (s.setFlow f x).wakeAt = s.wakeAt := rfl
@[simp] theorem State.setFlow_powerAvg (s : State) (f : Flow) (x : FlowState) : (s.setFlow f x).powerAvg = s.powerAvg := rfl
@[simp] theorem State.setFlow_powerAt (s : State) (f : Flow) (x : FlowState) : (s.setFlow f x).powerAt = s.powerAt := rfl
@[simp] theorem State.setFlow_powerOver (s : State) (f : Flow) (x : FlowState) : (s.setFlow f x).powerOver = s.powerOver := rfl
@[simp] theorem State.setFlow_priAlloc (s : State) (f : Flow) (x : FlowState) : (s.setFlow f x).priAlloc = s.priAlloc := rfl
@[simp] theorem State.setFlow_priOut (s : State) (f : Flow) (x : FlowState) : (s.setFlow f x).priOut = s.priOut := rfl
@[simp] theorem State.setFlow_grants (s : State) (f : Flow) (x : FlowState) : (s.setFlow f x).grants = s.grants := rfl
@[simp] theorem State.setFlow_orphans (s : State) (f : Flow) (x : FlowState) : (s.setFlow f x).orphans = s.orphans := rfl
@[simp] theorem State.setFlow_mgmt (s : State) (f : Flow) (x : FlowState) : (s.setFlow f x).mgmt = s.mgmt := rfl
@[simp] theorem State.setFlow_spdm (s : State) (f : Flow) (x : FlowState) : (s.setFlow f x).spdm = s.spdm := rfl
@[simp] theorem State.setFlow_fabric (s : State) (f : Flow) (x : FlowState) : (s.setFlow f x).fabric = s.fabric := rfl
@[simp] theorem State.setFlow_dvsec (s : State) (f : Flow) (x : FlowState) : (s.setFlow f x).dvsec = s.dvsec := rfl
@[simp] theorem State.setFlow_farUp (s : State) (f : Flow) (x : FlowState) : (s.setFlow f x).farUp = s.farUp := rfl
@[simp] theorem State.setFlow_links (s : State) (f : Flow) (x : FlowState) : (s.setFlow f x).links = s.links := rfl
@[simp] theorem State.setFlow_limiters (s : State) (f : Flow) (x : FlowState) : (s.setFlow f x).limiters = s.limiters := rfl
@[simp] theorem State.setFlow_ifaces (s : State) (f : Flow) (x : FlowState) : (s.setFlow f x).ifaces = s.ifaces := rfl
@[simp] theorem State.setFlow_asids (s : State) (f : Flow) (x : FlowState) : (s.setFlow f x).asids = s.asids := rfl
@[simp] theorem State.setFlow_objs (s : State) (f : Flow) (x : FlowState) : (s.setFlow f x).objs = s.objs := rfl
@[simp] theorem State.setFlow_qtt (s : State) (f : Flow) (x : FlowState) : (s.setFlow f x).qtt = s.qtt := rfl
@[simp] theorem State.setFlow_dies (s : State) (f : Flow) (x : FlowState) : (s.setFlow f x).dies = s.dies := rfl
@[simp] theorem State.setFlow_cores (s : State) (f : Flow) (x : FlowState) : (s.setFlow f x).cores = s.cores := rfl
@[simp] theorem State.setFlow_slots (s : State) (f : Flow) (x : FlowState) : (s.setFlow f x).slots = s.slots := rfl
@[simp] theorem State.setFlow_blocks (s : State) (f : Flow) (x : FlowState) : (s.setFlow f x).blocks = s.blocks := rfl
@[simp] theorem State.setFlow_ports (s : State) (f : Flow) (x : FlowState) : (s.setFlow f x).ports = s.ports := rfl
@[simp] theorem State.setFlow_queues (s : State) (f : Flow) (x : FlowState) : (s.setFlow f x).queues = s.queues := rfl
@[simp] theorem State.setFlow_erts (s : State) (f : Flow) (x : FlowState) : (s.setFlow f x).erts = s.erts := rfl
@[simp] theorem State.setFlow_pools (s : State) (f : Flow) (x : FlowState) : (s.setFlow f x).pools = s.pools := rfl
@[simp] theorem State.setFlow_graphs (s : State) (f : Flow) (x : FlowState) : (s.setFlow f x).graphs = s.graphs := rfl
@[simp] theorem State.setFlow_mem (s : State) (f : Flow) (x : FlowState) : (s.setFlow f x).mem = s.mem := rfl
@[simp] theorem State.setFlow_scr (s : State) (f : Flow) (x : FlowState) : (s.setFlow f x).scr = s.scr := rfl
@[simp] theorem State.setFlow_far (s : State) (f : Flow) (x : FlowState) : (s.setFlow f x).far = s.far := rfl
@[simp] theorem State.setFlow_hostMem (s : State) (f : Flow) (x : FlowState) : (s.setFlow f x).hostMem = s.hostMem := rfl
@[simp] theorem State.setFlow_hostAbsent (s : State) (f : Flow) (x : FlowState) : (s.setFlow f x).hostAbsent = s.hostAbsent := rfl
@[simp] theorem State.setFlow_poison (s : State) (f : Flow) (x : FlowState) : (s.setFlow f x).poison = s.poison := rfl
@[simp] theorem State.setFlow_out (s : State) (f : Flow) (x : FlowState) : (s.setFlow f x).out = s.out := rfl
@[simp] theorem State.setFlow_agenda (s : State) (f : Flow) (x : FlowState) : (s.setFlow f x).agenda = s.agenda := rfl
@[simp] theorem State.setFlow_arg (s : State) (f : Flow) (x : FlowState) : (s.setFlow f x).arg = s.arg := rfl
@[simp] theorem State.setFlow_cur (s : State) (f : Flow) (x : FlowState) : (s.setFlow f x).cur = s.cur := rfl
@[simp] theorem State.setFlow_turn (s : State) (f : Flow) (x : FlowState) : (s.setFlow f x).turn = s.turn := rfl
@[simp] theorem State.setFlow_free (s : State) (f : Flow) (x : FlowState) : (s.setFlow f x).free = s.free := rfl
@[simp] theorem State.setFlow_ids (s : State) (f : Flow) (x : FlowState) : (s.setFlow f x).ids = s.ids := rfl
@[simp] theorem State.setFlow_slot (s : State) (f : Flow) (x : FlowState) (j : Nat) : (s.setFlow f x).slot j = s.slot j := rfl
@[simp] theorem State.setFlow_core (s : State) (f : Flow) (x : FlowState) (j : Nat) : (s.setFlow f x).core j = s.core j := rfl
@[simp] theorem State.setFlow_die (s : State) (f : Flow) (x : FlowState) (j : Nat) : (s.setFlow f x).die j = s.die j := rfl
@[simp] theorem State.setFlow_block (s : State) (f : Flow) (x : FlowState) (j : Nat) : (s.setFlow f x).block j = s.block j := rfl
@[simp] theorem State.setFlow_port (s : State) (f : Flow) (x : FlowState) (j : Nat) : (s.setFlow f x).port j = s.port j := rfl
@[simp] theorem State.setFlow_queue (s : State) (f : Flow) (x : FlowState) (j : Nat) : (s.setFlow f x).queue j = s.queue j := rfl
@[simp] theorem State.setFlow_iface (s : State) (f : Flow) (x : FlowState) (j : Nat) : (s.setFlow f x).iface j = s.iface j := rfl
@[simp] theorem State.setFlow_asid (s : State) (f : Flow) (x : FlowState) (j : Nat) : (s.setFlow f x).asid j = s.asid j := rfl
@[simp] theorem State.setFlow_link (s : State) (f : Flow) (x : FlowState) (j : Nat) : (s.setFlow f x).link j = s.link j := rfl
@[simp] theorem State.setFlow_limiter (s : State) (f : Flow) (x : FlowState) (j : Nat) : (s.setFlow f x).limiter j = s.limiter j := rfl
@[simp] theorem State.setFlow_obj (s : State) (f : Flow) (x : FlowState) (i j : Nat) : (s.setFlow f x).obj i j = s.obj i j := rfl
@[simp] theorem State.setFlow_ert (s : State) (f : Flow) (x : FlowState) (i j : Nat) : (s.setFlow f x).ert i j = s.ert i j := rfl

/-! ### setLimiter -/

@[simp] theorem State.setLimiter_time (s : State) (k : Nat) (x : Limiter) : (s.setLimiter k x).time = s.time := rfl
@[simp] theorem State.setLimiter_lehr (s : State) (k : Nat) (x : Limiter) : (s.setLimiter k x).lehr = s.lehr := rfl
@[simp] theorem State.setLimiter_lehrAt (s : State) (k : Nat) (x : Limiter) : (s.setLimiter k x).lehrAt = s.lehrAt := rfl
@[simp] theorem State.setLimiter_wakeQ (s : State) (k : Nat) (x : Limiter) : (s.setLimiter k x).wakeQ = s.wakeQ := rfl
@[simp] theorem State.setLimiter_wakeAt (s : State) (k : Nat) (x : Limiter) : (s.setLimiter k x).wakeAt = s.wakeAt := rfl
@[simp] theorem State.setLimiter_powerAvg (s : State) (k : Nat) (x : Limiter) : (s.setLimiter k x).powerAvg = s.powerAvg := rfl
@[simp] theorem State.setLimiter_powerAt (s : State) (k : Nat) (x : Limiter) : (s.setLimiter k x).powerAt = s.powerAt := rfl
@[simp] theorem State.setLimiter_powerOver (s : State) (k : Nat) (x : Limiter) : (s.setLimiter k x).powerOver = s.powerOver := rfl
@[simp] theorem State.setLimiter_priAlloc (s : State) (k : Nat) (x : Limiter) : (s.setLimiter k x).priAlloc = s.priAlloc := rfl
@[simp] theorem State.setLimiter_priOut (s : State) (k : Nat) (x : Limiter) : (s.setLimiter k x).priOut = s.priOut := rfl
@[simp] theorem State.setLimiter_grants (s : State) (k : Nat) (x : Limiter) : (s.setLimiter k x).grants = s.grants := rfl
@[simp] theorem State.setLimiter_orphans (s : State) (k : Nat) (x : Limiter) : (s.setLimiter k x).orphans = s.orphans := rfl
@[simp] theorem State.setLimiter_mgmt (s : State) (k : Nat) (x : Limiter) : (s.setLimiter k x).mgmt = s.mgmt := rfl
@[simp] theorem State.setLimiter_spdm (s : State) (k : Nat) (x : Limiter) : (s.setLimiter k x).spdm = s.spdm := rfl
@[simp] theorem State.setLimiter_fabric (s : State) (k : Nat) (x : Limiter) : (s.setLimiter k x).fabric = s.fabric := rfl
@[simp] theorem State.setLimiter_dvsec (s : State) (k : Nat) (x : Limiter) : (s.setLimiter k x).dvsec = s.dvsec := rfl
@[simp] theorem State.setLimiter_farUp (s : State) (k : Nat) (x : Limiter) : (s.setLimiter k x).farUp = s.farUp := rfl
@[simp] theorem State.setLimiter_links (s : State) (k : Nat) (x : Limiter) : (s.setLimiter k x).links = s.links := rfl
@[simp] theorem State.setLimiter_flows (s : State) (k : Nat) (x : Limiter) : (s.setLimiter k x).flows = s.flows := rfl
@[simp] theorem State.setLimiter_ifaces (s : State) (k : Nat) (x : Limiter) : (s.setLimiter k x).ifaces = s.ifaces := rfl
@[simp] theorem State.setLimiter_asids (s : State) (k : Nat) (x : Limiter) : (s.setLimiter k x).asids = s.asids := rfl
@[simp] theorem State.setLimiter_objs (s : State) (k : Nat) (x : Limiter) : (s.setLimiter k x).objs = s.objs := rfl
@[simp] theorem State.setLimiter_qtt (s : State) (k : Nat) (x : Limiter) : (s.setLimiter k x).qtt = s.qtt := rfl
@[simp] theorem State.setLimiter_dies (s : State) (k : Nat) (x : Limiter) : (s.setLimiter k x).dies = s.dies := rfl
@[simp] theorem State.setLimiter_cores (s : State) (k : Nat) (x : Limiter) : (s.setLimiter k x).cores = s.cores := rfl
@[simp] theorem State.setLimiter_slots (s : State) (k : Nat) (x : Limiter) : (s.setLimiter k x).slots = s.slots := rfl
@[simp] theorem State.setLimiter_blocks (s : State) (k : Nat) (x : Limiter) : (s.setLimiter k x).blocks = s.blocks := rfl
@[simp] theorem State.setLimiter_ports (s : State) (k : Nat) (x : Limiter) : (s.setLimiter k x).ports = s.ports := rfl
@[simp] theorem State.setLimiter_queues (s : State) (k : Nat) (x : Limiter) : (s.setLimiter k x).queues = s.queues := rfl
@[simp] theorem State.setLimiter_erts (s : State) (k : Nat) (x : Limiter) : (s.setLimiter k x).erts = s.erts := rfl
@[simp] theorem State.setLimiter_pools (s : State) (k : Nat) (x : Limiter) : (s.setLimiter k x).pools = s.pools := rfl
@[simp] theorem State.setLimiter_graphs (s : State) (k : Nat) (x : Limiter) : (s.setLimiter k x).graphs = s.graphs := rfl
@[simp] theorem State.setLimiter_mem (s : State) (k : Nat) (x : Limiter) : (s.setLimiter k x).mem = s.mem := rfl
@[simp] theorem State.setLimiter_scr (s : State) (k : Nat) (x : Limiter) : (s.setLimiter k x).scr = s.scr := rfl
@[simp] theorem State.setLimiter_far (s : State) (k : Nat) (x : Limiter) : (s.setLimiter k x).far = s.far := rfl
@[simp] theorem State.setLimiter_hostMem (s : State) (k : Nat) (x : Limiter) : (s.setLimiter k x).hostMem = s.hostMem := rfl
@[simp] theorem State.setLimiter_hostAbsent (s : State) (k : Nat) (x : Limiter) : (s.setLimiter k x).hostAbsent = s.hostAbsent := rfl
@[simp] theorem State.setLimiter_poison (s : State) (k : Nat) (x : Limiter) : (s.setLimiter k x).poison = s.poison := rfl
@[simp] theorem State.setLimiter_out (s : State) (k : Nat) (x : Limiter) : (s.setLimiter k x).out = s.out := rfl
@[simp] theorem State.setLimiter_agenda (s : State) (k : Nat) (x : Limiter) : (s.setLimiter k x).agenda = s.agenda := rfl
@[simp] theorem State.setLimiter_arg (s : State) (k : Nat) (x : Limiter) : (s.setLimiter k x).arg = s.arg := rfl
@[simp] theorem State.setLimiter_cur (s : State) (k : Nat) (x : Limiter) : (s.setLimiter k x).cur = s.cur := rfl
@[simp] theorem State.setLimiter_turn (s : State) (k : Nat) (x : Limiter) : (s.setLimiter k x).turn = s.turn := rfl
@[simp] theorem State.setLimiter_free (s : State) (k : Nat) (x : Limiter) : (s.setLimiter k x).free = s.free := rfl
@[simp] theorem State.setLimiter_ids (s : State) (k : Nat) (x : Limiter) : (s.setLimiter k x).ids = s.ids := rfl
@[simp] theorem State.setLimiter_slot (s : State) (k : Nat) (x : Limiter) (j : Nat) : (s.setLimiter k x).slot j = s.slot j := rfl
@[simp] theorem State.setLimiter_core (s : State) (k : Nat) (x : Limiter) (j : Nat) : (s.setLimiter k x).core j = s.core j := rfl
@[simp] theorem State.setLimiter_die (s : State) (k : Nat) (x : Limiter) (j : Nat) : (s.setLimiter k x).die j = s.die j := rfl
@[simp] theorem State.setLimiter_block (s : State) (k : Nat) (x : Limiter) (j : Nat) : (s.setLimiter k x).block j = s.block j := rfl
@[simp] theorem State.setLimiter_port (s : State) (k : Nat) (x : Limiter) (j : Nat) : (s.setLimiter k x).port j = s.port j := rfl
@[simp] theorem State.setLimiter_queue (s : State) (k : Nat) (x : Limiter) (j : Nat) : (s.setLimiter k x).queue j = s.queue j := rfl
@[simp] theorem State.setLimiter_iface (s : State) (k : Nat) (x : Limiter) (j : Nat) : (s.setLimiter k x).iface j = s.iface j := rfl
@[simp] theorem State.setLimiter_asid (s : State) (k : Nat) (x : Limiter) (j : Nat) : (s.setLimiter k x).asid j = s.asid j := rfl
@[simp] theorem State.setLimiter_link (s : State) (k : Nat) (x : Limiter) (j : Nat) : (s.setLimiter k x).link j = s.link j := rfl
@[simp] theorem State.setLimiter_flow (s : State) (k : Nat) (x : Limiter) (g : Flow) : (s.setLimiter k x).flow g = s.flow g := rfl
@[simp] theorem State.setLimiter_obj (s : State) (k : Nat) (x : Limiter) (i j : Nat) : (s.setLimiter k x).obj i j = s.obj i j := rfl
@[simp] theorem State.setLimiter_ert (s : State) (k : Nat) (x : Limiter) (i j : Nat) : (s.setLimiter k x).ert i j = s.ert i j := rfl

end Sys2Proof.Machine
end

