-- ==== Sys2Proof/Laws/Issue.lean ====
section
/-! SUPPORT. What issuing an instruction leaves, said once for the forms that share it: the laws of `retire`, `issued`,
`stallAt` and `launch`, and of the forms whose operands have been checked. -/
namespace Sys2Proof.Machine

/-! ### Issuing -/

theorem setSlot_onlyGroup (s : State) (g : Slot) : OnlyGroup s (s.setSlot s.cur g) g where
  group := by simp
  others _ h := State.slot_setSlot_ne _ h _
  machine := rfl

theorem setGrp_onlyGroup (s : State) (g : Slot) : OnlyGroup s (s.setGrp g) g := setSlot_onlyGroup s g

theorem issued_eq (s : State) (g : Slot) (sw : Bool) : s.issued g sw = s.setSlot s.cur (groupAfter s g g.pc sw) := rfl

theorem retire_eq (s : State) (g : Slot) (sw : Bool) : s.retire g sw = s.setSlot s.cur (groupAfter s g (nextPc g.pc) sw) := rfl

/-- An instruction whose meaning is to retire does what `Does` says. -/
theorem does_of_retire {i : Instr} {s : State} {g : Slot} {sw : Bool} (h : exec i s = .next (s.retire g sw)) :
    Does i s g sw := ⟨_, h, setSlot_onlyGroup _ _⟩

/-- An instruction that issues and goes to `pc`. -/
theorem goesTo_of_issued {i : Instr} {s : State} {g : Slot} {pc : W64} {sw : Bool}
    (h : exec i s = .next (s.issued { g with pc := pc } sw)) : GoesTo i s g pc sw := ⟨_, h, setSlot_onlyGroup _ _⟩

theorem completes_of_stall {i : Instr} {s : State} {r : Stall} (h : exec i s = .next (s.stallAt r)) :
    Completes i s fun t => OnlyGroup s t { s.grp with stall := r } := ⟨_, h, setGrp_onlyGroup _ _⟩

theorem launch_launched (s : State) (g : Slot) (op : OpKind) (res : Option Result) (sw : Bool) :
    Launched s (s.launch g op res sw) g op res sw where
  group := by simp [State.launch, State.fresh, retire_eq]; rfl
  others k h := by simp only [State.launch, State.fresh, retire_eq]; exact State.slot_setSlot_ne _ h _
  name := rfl
  machine := rfl

theorem launches_of_launch {i : Instr} {s : State} {op : OpKind} {res : Option Result} {sw : Bool}
    (h : exec i s = .next (s.launch s.grp op res sw)) : Launches i s op res sw := ⟨_, h, launch_launched _ _ _ _ _⟩

theorem checked_ok {s : State} {ok : Bool} {lanes : W32} {next : State} (h : ok = true) :
    checked s ok lanes next = .next next := if_pos h

theorem checked_bad {s : State} {ok : Bool} {lanes : W32} {next : State} (h : ok = false) :
    checked s ok lanes next = .next (s.regRange lanes) := if_neg (by simp [h])

/-! ### The operand types -/

theorem sgn_eq_toInt {n w : Nat} (hw : 0 < w) (a : BitVec n) : sgn w a.toNat = (a.setWidth w).toInt := by
  have h2 : 2 ^ w = 2 * 2 ^ (w - 1) := by rw [← Nat.pow_succ']; congr 1; omega
  simp only [sgn, BitVec.toInt, BitVec.toNat_setWidth]
  split <;> split <;> first | rfl | omega

theorem tyVal_eq_typed {n : Nat} (t : Ty) (a : BitVec n) : tyVal t a.toNat = typed t a := by
  unfold tyVal typed
  split
  · exact sgn_eq_toInt (by cases t <;> decide) a
  · simp [BitVec.toNat_setWidth]

theorem wrapN_eq (w : Nat) (r : Int) : wrapN w r = (BitVec.ofInt w r).toNat := by
  simp [wrapN, BitVec.toNat_ofInt]

theorem tyVal_wrapN (t : Ty) (r : Int) : tyVal t (wrapN (tyWidth t) r) =
    if tySigned t then (BitVec.ofInt (tyWidth t) r).toInt else ((BitVec.ofInt (tyWidth t) r).toNat : Int) := by
  rw [wrapN_eq, tyVal_eq_typed]
  simp [typed]

theorem ofInt_tyVal (n : Nat) (t : Ty) (r : Int) :
    BitVec.ofInt n (tyVal t (wrapN (tyWidth t) r)) = extended n t r := by
  rw [tyVal_wrapN, extended]
  split
  · rfl
  · rw [BitVec.ofInt_natCast, BitVec.ofNat_toNat]

theorem tyS_eq (t : Ty) (r : Int) : tyS t r = extended 64 t r := ofInt_tyVal 64 t r

theorem tyV_eq (t : Ty) (r : Int) : tyV t r = extended 32 t r := ofInt_tyVal 32 t r

theorem sArith_eq (t : Ty) (op : Int → Int → Int) (a b : W64) :
    sArith t op a b = extended 64 t (op (typed t a) (typed t b)) := by
  simp only [sArith, tyVal_eq_typed, tyS_eq]

theorem condInt_iff (c : Cond) (a b : Int) : condInt c a b = true ↔ condHolds c a b := by
  cases c <;> simp [condInt, condHolds]

/-! ### Scalar forms -/

theorem sForm_ok {s : State} {sw : Bool} {d a b : SReg} {f : W64 → W64 → W64} (hd : okS s.grp d = true)
    (ha : okS s.grp a = true) (hb : okS s.grp b = true) :
    sForm s sw d a b f = .next (s.retire (setS s.grp d (f (getS s.grp a) (getS s.grp b))) sw) :=
  checked_ok (by simp [hd, ha, hb])

theorem sForm1_ok {s : State} {sw : Bool} {d a : SReg} {f : W64 → W64} (hd : okS s.grp d = true)
    (ha : okS s.grp a = true) : sForm1 s sw d a f = .next (s.retire (setS s.grp d (f (getS s.grp a))) sw) :=
  checked_ok (by simp [hd, ha])

end Sys2Proof.Machine
end

