-- ==== Sys2Proof/Laws/Memory.lean ====
section
/-! SUPPORT. What the operations over a memory do: the byte each address reads as afterwards, and that each of them keeps
the canonical form; what the reads of the L1 change. -/
namespace Sys2Proof.Machine

/-! ### The canonical form -/

theorem wf_iff (m : Mem) : Memory.wf m = true ↔ m.Pairwise (fun c d => c.1 < d.1) ∧ ∀ c ∈ m, c.2 ≠ 0 := by
  induction m with
  | nil => simp [Memory.wf]
  | cons c r ih =>
    obtain ⟨a, b⟩ := c
    cases r with
    | nil => simp [Memory.wf]
    | cons d r =>
      obtain ⟨a', b'⟩ := d
      simp only [Memory.wf, Bool.and_eq_true, bne_iff_ne, ne_eq, decide_eq_true_eq, ih, List.pairwise_cons, List.mem_cons]
      constructor
      · rintro ⟨⟨hb, ha⟩, ⟨h₁, h₂⟩, h₃⟩
        refine ⟨⟨?_, h₁, h₂⟩, ?_⟩
        · rintro c (rfl | hc)
          · exact ha
          · exact Nat.lt_trans ha (h₁ c hc)
        · rintro c (rfl | hc)
          · exact hb
          · exact h₃ c hc
      · rintro ⟨⟨h₁, h₂⟩, h₃⟩
        exact ⟨⟨h₃ _ (Or.inl rfl), h₁ _ (Or.inl rfl)⟩, h₂, fun c hc => h₃ c (Or.inr hc)⟩

theorem wf_nil : Memory.wf [] = true := rfl

theorem wf_filter {m : Mem} (p : Host.Cell → Bool) (h : Memory.wf m = true) : Memory.wf (m.filter p) = true := by
  rw [wf_iff] at *
  exact ⟨h.1.filter p, fun c hc => h.2 c (List.mem_filter.1 hc).1⟩

theorem mem_memInsert {m : Mem} {a : Nat} {b : W8} {c : Host.Cell} (h : c ∈ memInsert m a b) : c = (a, b) ∨ c ∈ m := by
  induction m with
  | nil => simpa [memInsert] using h
  | cons d r ih =>
    obtain ⟨a', b'⟩ := d
    simp only [memInsert] at h
    split at h
    · simpa using h
    · split at h
      · rcases List.mem_cons.1 h with h | h
        · exact .inl h
        · exact .inr (List.mem_cons_of_mem _ h)
      · rcases List.mem_cons.1 h with rfl | h
        · exact .inr List.mem_cons_self
        · exact (ih h).imp id (List.mem_cons_of_mem _)

theorem wf_memInsert {m : Mem} {a : Nat} {b : W8} (hb : b ≠ 0) (h : Memory.wf m = true) : Memory.wf (memInsert m a b) = true := by
  rw [wf_iff] at *
  refine ⟨?_, fun c hc => (mem_memInsert hc).elim (fun e => by simpa [e] using hb) (h.2 c)⟩
  obtain ⟨h, -⟩ := h
  induction m with
  | nil => simp [memInsert]
  | cons d r ih =>
    obtain ⟨a', b'⟩ := d
    obtain ⟨h₁, h₂⟩ := List.pairwise_cons.1 h
    simp only [memInsert]
    split
    · rename_i hlt
      refine List.pairwise_cons.2 ⟨?_, h⟩
      intro c hc
      rcases List.mem_cons.1 hc with rfl | hc
      · exact hlt
      · exact Nat.lt_trans hlt (h₁ c hc)
    · split
      · rename_i he
        exact List.pairwise_cons.2 ⟨fun c hc => he ▸ h₁ c hc, h₂⟩
      · refine List.pairwise_cons.2 ⟨?_, ih h₂⟩
        intro c hc
        rcases mem_memInsert hc with rfl | hc
        · show a' < a
          omega
        · exact h₁ c hc

theorem wf_memWrite {m : Mem} (a : Nat) (b : W8) (h : Memory.wf m = true) : Memory.wf (memWrite m a b) = true := by
  unfold memWrite
  split
  · exact wf_filter _ h
  · exact wf_memInsert ‹_› h

theorem wf_memStore {m : Mem} (a : Nat) (bs : List W8) (h : Memory.wf m = true) : Memory.wf (memStore m a bs) = true := by
  induction bs generalizing m a with
  | nil => exact h
  | cons b r ih => exact ih (a + 1) (wf_memWrite a b h)

theorem wf_memClear {m : Mem} (lo hi : Nat) (h : Memory.wf m = true) : Memory.wf (memClear m lo hi) = true := wf_filter _ h

theorem wf_memSlice {m : Mem} (lo hi : Nat) (h : Memory.wf m = true) : Memory.wf (memSlice m lo hi) = true := wf_filter _ h

theorem wf_foldr_write {m : Mem} (l : List Host.Cell) (k : Host.Cell → Nat) (h : Memory.wf m = true) :
    Memory.wf (l.foldr (fun c m => memWrite m (k c) c.2) m) = true := by
  induction l with
  | nil => exact h
  | cons c r ih => exact wf_memWrite _ _ ih

theorem wf_foldl_write {m : Mem} (ws : List (Nat × W8)) (h : Memory.wf m = true) :
    Memory.wf (ws.foldl (fun m w => memWrite m w.1 w.2) m) = true := by
  induction ws generalizing m with
  | nil => exact h
  | cons w r ih => exact ih (wf_memWrite _ _ h)

theorem wf_memCopy {m : Mem} (dst : Nat) (src : Mem) (a n : Nat) (h : Memory.wf m = true) :
    Memory.wf (memCopy m dst src a n) = true := wf_foldr_write _ _ (wf_memClear _ _ h)

/-- The memories of a reset machine have the canonical form. -/
theorem wf_reset : Memory.wf State.reset.mem = true ∧ Memory.wf State.reset.scr = true ∧ Memory.wf State.reset.far = true ∧
    Memory.wf State.reset.hostMem = true := ⟨rfl, rfl, rfl, rfl⟩

/-! ### What an address reads as -/

theorem memRead_filter (m : Mem) (p : Nat → Bool) (a : Nat) :
    memRead (m.filter fun c => p c.1) a = if p a then memRead m a else 0 := by
  induction m with
  | nil => simp [memRead]
  | cons c r ih =>
    obtain ⟨a', b⟩ := c
    by_cases h : a' = a
    · subst h
      cases hp : p a' <;> simp_all [memRead]
    · cases hp : p a' <;> simp_all [memRead]

theorem memRead_memInsert (m : Mem) (a x : Nat) (b : W8) : memRead (memInsert m a b) x = if x = a then b else memRead m x := by
  induction m with
  | nil => by_cases h : a = x <;> simp [memInsert, memRead, h, eq_comm]
  | cons c r ih =>
    obtain ⟨a', b'⟩ := c
    simp only [memInsert]
    split
    · by_cases h : x = a
      · simp [memRead, h]
      · simp [memRead, h, Ne.symm h]
    · split
      · rename_i h
        subst h
        by_cases h : x = a
        · simp [memRead, h]
        · simp [memRead, h, Ne.symm h]
      · rename_i h
        by_cases hx : a' = x
        · subst hx
          simp [memRead, Ne.symm h]
        · simp [memRead, hx, ih]

theorem memRead_memWrite (m : Mem) (a x : Nat) (b : W8) : memRead (memWrite m a b) x = if x = a then b else memRead m x := by
  unfold memWrite
  split
  · rename_i hb
    rw [memRead_filter m (fun c => c != a) x]
    by_cases h : x = a <;> simp [h, hb]
  · exact memRead_memInsert m a x b

@[simp] theorem memRead_memWrite_same (m : Mem) (a : Nat) (b : W8) : memRead (memWrite m a b) a = b := by
  simp [memRead_memWrite]

theorem memRead_memWrite_ne (m : Mem) {a x : Nat} (b : W8) (h : x ≠ a) : memRead (memWrite m a b) x = memRead m x := by
  simp [memRead_memWrite, h]

theorem memRead_memStore_out (m : Mem) (a : Nat) (bs : List W8) {x : Nat} (h : x < a ∨ a + bs.length ≤ x) :
    memRead (memStore m a bs) x = memRead m x := by
  induction bs generalizing m a with
  | nil => rfl
  | cons b r ih =>
    simp only [List.length_cons] at h
    show memRead (memStore (memWrite m a b) (a + 1) r) x = _
    rw [ih _ _ (by omega), memRead_memWrite_ne _ _ (by omega)]

theorem memRead_memStore_in (m : Mem) (a : Nat) (bs : List W8) {i : Nat} (h : i < bs.length) :
    memRead (memStore m a bs) (a + i) = bs.getD i 0 := by
  induction bs generalizing m a i with
  | nil => simp at h
  | cons b r ih =>
    show memRead (memStore (memWrite m a b) (a + 1) r) (a + i) = _
    cases i with
    | zero => rw [memRead_memStore_out _ _ _ (by omega)]; simp
    | succ i =>
      have := ih (memWrite m a b) (a + 1) (i := i) (by simpa using h)
      rw [show a + 1 + i = a + (i + 1) by omega] at this
      simpa using this

theorem memRead_memClear (m : Mem) (lo hi a : Nat) :
    memRead (memClear m lo hi) a = if lo ≤ a ∧ a < hi then 0 else memRead m a := by
  rw [memClear, memRead_filter m (fun c => c < lo || hi ≤ c) a]
  by_cases h : lo ≤ a ∧ a < hi
  · simp [h, Nat.not_lt.2 h.1, Nat.not_le.2 h.2]
  · have : a < lo ∨ hi ≤ a := by omega
    simp [h, this]

theorem memRead_memSlice (m : Mem) (lo hi a : Nat) :
    memRead (memSlice m lo hi) a = if lo ≤ a ∧ a < hi then memRead m a else 0 := by
  rw [memSlice, memRead_filter m (fun c => lo ≤ c && c < hi) a]
  simp

theorem memRead_eq_zero {m : Mem} {a : Nat} (h : ∀ c ∈ m, c.1 ≠ a) : memRead m a = 0 := by
  induction m with
  | nil => rfl
  | cons c r ih =>
    obtain ⟨a', b⟩ := c
    have h' : a' ≠ a := h _ List.mem_cons_self
    simp [memRead, h', ih fun c hc => h c (List.mem_cons_of_mem _ hc)]

theorem memRead_foldr_write (l : List Host.Cell) (m : Mem) (k : Nat → Nat) (x : Nat) (h : ∀ c ∈ l, k c.1 ≠ x) :
    memRead (l.foldr (fun c m => memWrite m (k c.1) c.2) m) x = memRead m x := by
  induction l with
  | nil => rfl
  | cons c r ih =>
    show memRead (memWrite (r.foldr (fun c m => memWrite m (k c.1) c.2) m) (k c.1) c.2) x = _
    rw [memRead_memWrite_ne _ _ (Ne.symm (h c List.mem_cons_self)), ih fun c hc => h c (List.mem_cons_of_mem _ hc)]

theorem memRead_foldr_shift (l : List Host.Cell) (m : Mem) (a dst i : Nat) (ha : ∀ c ∈ l, a ≤ c.1) (hm : memRead m (dst + i) = 0) :
    memRead (l.foldr (fun c m => memWrite m (c.1 - a + dst) c.2) m) (dst + i) = memRead l (a + i) := by
  induction l with
  | nil => simpa [memRead] using hm
  | cons c r ih =>
    obtain ⟨x, b⟩ := c
    have hx : a ≤ x := ha _ List.mem_cons_self
    have ih := ih fun c hc => ha c (List.mem_cons_of_mem _ hc)
    simp only [List.foldr_cons, memRead_memWrite, memRead]
    by_cases h : x = a + i
    · rw [if_pos (by omega), if_pos h]
    · rw [if_neg (by omega), if_neg h, ih]

/-- A copy between memories brings each byte of the source range, and changes no byte outside the destination range. -/
theorem memRead_memCopy (m : Mem) (dst : Nat) (src : Mem) (a n x : Nat) :
    memRead (memCopy m dst src a n) x = if dst ≤ x ∧ x < dst + n then memRead src (a + (x - dst)) else memRead m x := by
  have hs : ∀ c ∈ memSlice src a (a + n), a ≤ c.1 ∧ c.1 < a + n := by
    intro c hc
    simpa [memSlice] using (List.mem_filter.1 hc).2
  unfold memCopy
  by_cases h : dst ≤ x ∧ x < dst + n
  · obtain ⟨i, rfl⟩ : ∃ i, x = dst + i := ⟨x - dst, by omega⟩
    rw [memRead_foldr_shift _ _ _ _ _ (fun c hc => (hs c hc).1) (by simp [memRead_memClear, h]), memRead_memSlice,
      if_pos h, if_pos (by omega), Nat.add_sub_cancel_left]
  · rw [memRead_foldr_write _ _ (fun c => c - a + dst) x (fun c hc => by have := hs c hc; omega), memRead_memClear, if_neg h, if_neg h]

/-- Memories in canonical form that read alike are equal. -/
theorem mem_ext {m n : Mem} (hm : Memory.wf m = true) (hn : Memory.wf n = true) (h : ∀ a, memRead m a = memRead n a) : m = n := by
  rw [wf_iff] at hm hn
  induction m generalizing n with
  | nil =>
    cases n with
    | nil => rfl
    | cons d r =>
      obtain ⟨a, b⟩ := d
      have : b = 0 := by simpa [memRead] using (h a).symm
      exact absurd this (hn.2 (a, b) List.mem_cons_self)
  | cons c r ih =>
    obtain ⟨a, b⟩ := c
    have hb : b ≠ 0 := hm.2 (a, b) List.mem_cons_self
    cases n with
    | nil => exact absurd (by simpa [memRead] using h a) hb
    | cons d q =>
      obtain ⟨a', b'⟩ := d
      have hb' : b' ≠ 0 := hn.2 (a', b') List.mem_cons_self
      obtain ⟨hm₁, hm₂⟩ := hm
      obtain ⟨hn₁, hn₂⟩ := hn
      obtain ⟨hr, hm₃⟩ := List.pairwise_cons.1 hm₁
      obtain ⟨hq, hn₃⟩ := List.pairwise_cons.1 hn₁
      have below : ∀ {l : Mem} {x y : Nat}, (∀ c ∈ l, y < c.1) → x ≤ y → memRead l x = 0 := by
        intro l x y hl hxy
        apply memRead_eq_zero
        intro c hc he
        have := hl c hc
        omega
      have ha : a = a' := by
        rcases Nat.lt_trichotomy a a' with hlt | heq | hgt
        · have := h a
          rw [show memRead ((a, b) :: r) a = b by simp [memRead], show memRead ((a', b') :: q) a = 0 by
            simp [memRead, Nat.ne_of_gt hlt, below hq (Nat.le_of_lt hlt)]] at this
          exact absurd this hb
        · exact heq
        · have := h a'
          rw [show memRead ((a', b') :: q) a' = b' by simp [memRead], show memRead ((a, b) :: r) a' = 0 by
            simp [memRead, Nat.ne_of_gt hgt, below hr (Nat.le_of_lt hgt)]] at this
          exact absurd this.symm hb'
      subst ha
      have hbb : b = b' := by simpa [memRead] using h a
      subst hbb
      congr 1
      refine ih ⟨hm₃, fun c hc => hm₂ c (List.mem_cons_of_mem _ hc)⟩ ⟨hn₃, fun c hc => hn₂ c (List.mem_cons_of_mem _ hc)⟩ ?_
      intro x
      by_cases hx : a = x
      · subst hx
        rw [below hr (Nat.le_refl _), below hq (Nat.le_refl _)]
      · simpa [memRead, hx] using h x

/-! ### Stores to memory points, and reads of the L1 -/

theorem observe_eq (s : State) (lines : List Nat) :
    ∃ cs n, lines.foldl State.letObserve s = { s with cores := cs, free := n } := by
  induction lines generalizing s with
  | nil => exact ⟨s.cores, s.free, rfl⟩
  | cons l r ih =>
    obtain ⟨cs, n, h⟩ := ih (s.letObserve l)
    exact ⟨cs, n, h⟩

/-- Bytes that reach their memory points change the die memory, the snapshots, the poison and the open choices alone. -/
theorem pointWrite_eq (s : State) (ws : List (Nat × W8)) : ∃ cs n, s.pointWrite ws =
    { s with mem := ws.foldl (fun m w => memWrite m w.1 w.2) s.mem, poison := clearPoison s.poison ws, cores := cs, free := n } := by
  obtain ⟨cs, n, h⟩ := observe_eq s ((ws.map fun w => w.1 / 128).eraseDups)
  exact ⟨cs, n, by simp only [State.pointWrite, h]⟩

theorem wf_pointWrite {s : State} (ws : List (Nat × W8)) (h : Memory.wf s.mem = true) : Memory.wf (s.pointWrite ws).mem = true := by
  obtain ⟨cs, n, e⟩ := pointWrite_eq s ws
  rw [e]
  exact wf_foldl_write ws h

theorem touchLine_eq (s : State) (ck line : Nat) : ∃ cs n, touchLine s ck line = { s with cores := cs, free := n } := by
  show ∃ cs n, (if Config.freeBit s.free then _ else _) = _
  by_cases h : Config.freeBit s.free = true
  · rw [if_pos h]
    exact ⟨_, _, rfl⟩
  · rw [if_neg h]
    exact ⟨s.cores, s.free + 1, rfl⟩

/-- A read of the L1 renews snapshots, and changes nothing else but the open choices. -/
theorem touchLines_eq (s : State) (ck : Nat) (lines : List Nat) : ∃ cs n, touchLines s ck lines = { s with cores := cs, free := n } := by
  induction lines generalizing s with
  | nil => exact ⟨s.cores, s.free, rfl⟩
  | cons l r ih =>
    obtain ⟨cs, n, h⟩ := touchLine_eq s ck l
    obtain ⟨cs', n', h'⟩ := ih (touchLine s ck l)
    refine ⟨cs', n', ?_⟩
    show touchLines (touchLine s ck l) ck r = _
    rw [h', h]

theorem memRead_copyLine (dst src : Mem) (line a : Nat) :
    memRead (copyLine dst src line) a = if a / 128 = line then memRead src a else memRead dst a := by
  rw [copyLine, memRead_memCopy]
  by_cases h : a / 128 = line
  · rw [if_pos h, if_pos (by omega)]
    congr 1
    omega
  · rw [if_neg h, if_neg (by omega)]

/-- Where the core's snapshot reads as the memory point, a read of the L1 leaves it so, and the unpublished stores as they are. -/
theorem touchLines_fresh (s : State) (ck : Nat) (lines : List Nat) (h : ∀ a, memRead (s.core ck).snap a = memRead s.mem a) :
    ((touchLines s ck lines).core ck).dirty = (s.core ck).dirty ∧ ((touchLines s ck lines).core ck).yields = (s.core ck).yields ∧
      ∀ a, memRead ((touchLines s ck lines).core ck).snap a = memRead s.mem a := by
  induction lines generalizing s with
  | nil => exact ⟨rfl, rfl, h⟩
  | cons l r ih =>
    have step : ((touchLine s ck l).core ck).dirty = (s.core ck).dirty ∧ ((touchLine s ck l).core ck).yields = (s.core ck).yields ∧
        ∀ a, memRead ((touchLine s ck l).core ck).snap a = memRead s.mem a := by
      show ((if Config.freeBit s.free then _ else _ : State).core ck).dirty = _ ∧
        ((if Config.freeBit s.free then _ else _ : State).core ck).yields = _ ∧
        ∀ a, memRead ((if Config.freeBit s.free then _ else _ : State).core ck).snap a = _
      by_cases hb : Config.freeBit s.free = true
      · simp only [if_pos hb, State.core_setCore_same]
        refine ⟨rfl, rfl, fun a => ?_⟩
        rw [memRead_copyLine]
        split
        · rfl
        · exact h a
      · simp only [if_neg hb]
        exact ⟨rfl, rfl, h⟩
    obtain ⟨cs, n, e⟩ := touchLine_eq s ck l
    have := ih (touchLine s ck l) (fun a => by rw [step.2.2 a, e])
    rw [step.1, step.2.1, show (touchLine s ck l).mem = s.mem by rw [e]] at this
    exact this

theorem viewByte_congr {c d : Core} (slot a : Nat) (hd : d.dirty = c.dirty) (hy : d.yields = c.yields) (hs : memRead d.snap a = memRead c.snap a) :
    viewByte d slot a = viewByte c slot a := by
  simp only [viewByte, dirtyByte, hd, hy, hs]

/-- A record that no poison meets, read where the snapshot reads as the memory point: the group's own view of it. -/
theorem readView_fresh (s : State) (k : Nat) (addrs : List Nat) (h : ∀ a, memRead (s.core (k / 16)).snap a = memRead s.mem a)
    (hp : s.poison = []) : ∃ cs n, readView s k addrs = 
      (some (addrs.map fun a => viewByte (s.core (k / 16)) (k % 16) a), { s with cores := cs, free := n }) ∧
      (∀ a, memRead (({ s with cores := cs, free := n } : State).core (k / 16)).snap a = memRead s.mem a) ∧
      (({ s with cores := cs, free := n } : State).core (k / 16)).dirty = (s.core (k / 16)).dirty := by
  let lines := (addrs.map fun a => a / 128).eraseDups
  obtain ⟨cs, n, e⟩ := touchLines_eq s (k / 16) lines
  obtain ⟨hd, hy, hs⟩ := touchLines_fresh s (k / 16) lines h
  refine ⟨cs, n, ?_, by rw [← e]; exact hs, by rw [← e]; exact hd⟩
  have hq : (addrs.any fun a => poisoned (touchLines s (k / 16) lines) (k / 16) (k % 16) a) = false := by
    simp [poisoned, e, hp]
  show (if (addrs.any fun a => poisoned (touchLines s (k / 16) lines) (k / 16) (k % 16) a) = true then _ else _) = _
  rw [if_neg (by simp [hq]), e, ← e]
  congr 2
  exact List.map_congr_left fun a _ => viewByte_congr _ _ hd hy (by rw [hs, h])

end Sys2Proof.Machine
end

