-- ==== Sys2Proof/Laws/Vector.lean ====
section
/-! SUPPORT. Lanes, vector registers and masks, and the one law of the fixed-latency vector forms. -/
namespace Sys2Proof.Machine

/-! ### Lanes -/

@[simp] theorem lane_genVec {n : Nat} (f : Nat → BitVec n) {l : Nat} (h : l < 32) : lane (genVec f) l = f l := by
  simp [lane, genVec, List.getD, h]

theorem genVec_congr {n : Nat} {f g : Nat → BitVec n} (h : ∀ l, l < 32 → f l = g l) : genVec f = genVec g := by
  simp only [genVec]
  congr 2
  exact List.map_congr_left fun l hl => h l (List.mem_range.1 hl)

theorem lane_mixVec {n : Nat} (mask : W32) (old new : Lanes n) {l : Nat} (h : l < 32) :
    lane (mixVec mask old new) l = if laneOn mask l then lane new l else lane old l := by
  simp [mixVec, h]

theorem lane_orFlags (mask : W32) (old new : Lanes 8) {l : Nat} (h : l < 32) :
    lane (orFlags mask old new) l = lane old l ||| (if laneOn mask l then lane new l else 0) := by
  simp only [orFlags, lane_genVec _ h]
  split <;> simp

theorem maskOf_aux (p : Nat → Bool) (n : Nat) (hn : n ≤ 32) (j : Nat) (hj : j < 32) :
    ((List.range n).foldl (fun m l => if p l then m ||| (1#32 <<< l) else m) (0 : W32)).getLsbD j = (decide (j < n) && p j) := by
  induction n with
  | zero => simp
  | succ n ih =>
    rw [List.range_succ, List.foldl_append, List.foldl_cons, List.foldl_nil]
    have e := ih (by omega)
    by_cases hp : p n
    · simp only [hp, if_true]
      rw [BitVec.getLsbD_or, e]
      by_cases h : j = n
      · subst h; simp [hp, hj]
      · have : j < n + 1 ↔ j < n := by omega
        simp only [this, BitVec.getLsbD_shiftLeft]
        by_cases h2 : j < n
        · simp [h2]
        · have : j - n ≠ 0 := by omega
          simp [h2, this, BitVec.getLsbD_one]
    · simp only [hp]
      rw [if_neg (by simp), e]
      by_cases h : j = n
      · subst h; simp [hp]
      · have : j < n + 1 ↔ j < n := by omega
        simp [this]

/-- The mask of the lanes where `p` holds has those bits. -/
theorem laneOn_maskOf (p : Nat → Bool) {l : Nat} (h : l < 32) : laneOn (maskOf p) l = p l := by
  have e := maskOf_aux p 32 (Nat.le_refl _) l h
  rw [show decide (l < 32) = true by simpa using h, Bool.true_and] at e
  exact e

/-! ### Vector registers -/

@[simp] theorem getVn_setVn_same (g : Slot) (r : Nat) (mask : W32) (x : Vec) :
    getVn (setVn g r mask x) r = mixVec mask (getVn g r) x := by simp [getVn, setVn]

theorem getVn_setVn_ne (g : Slot) {r q : Nat} (h : q ≠ r) (mask : W32) (x : Vec) :
    getVn (setVn g r mask x) q = getVn g q := by simp [getVn, setVn, tget_tset_ne _ h]

theorem getVn_setVx {g : Slot} {x2 : Bool} {d : VReg} {mask : W32} {f : Nat → Vec} {k : Nat} (hk : k < if x2 then 2 else 1) :
    getVn (setVx g x2 d mask f) (d.toNat + k) = mixVec mask (getVn g (d.toNat + k)) (f k) := by
  cases x2
  · obtain rfl : k = 0 := by simpa using hk
    simp [setVx]
  · have : k = 0 ∨ k = 1 := by simp at hk; omega
    rcases this with rfl | rfl
    · simp only [setVx, if_true, Nat.add_zero]
      rw [getVn_setVn_ne _ (by omega)]
      simp
    · simp only [setVx, if_true, getVn_setVn_same]
      rw [getVn_setVn_ne _ (by omega)]

theorem getVn_setVx_ne {g : Slot} {x2 : Bool} {d : VReg} {mask : W32} {f : Nat → Vec} {r : Nat}
    (h : r < d.toNat ∨ d.toNat + (if x2 then 2 else 1) ≤ r) : getVn (setVx g x2 d mask f) r = getVn g r := by
  cases x2
  · simp at h
    simp only [setVx, Bool.false_eq_true, if_false]
    exact getVn_setVn_ne _ (by omega) _ _
  · simp at h
    simp only [setVx, if_true]
    rw [getVn_setVn_ne _ (by omega), getVn_setVn_ne _ (by omega)]

theorem setVx_eq (g : Slot) (x2 : Bool) (d : VReg) (mask : W32) (f : Nat → Vec) :
    setVx g x2 d mask f = { g with v := (setVx g x2 d mask f).v } := by
  cases x2 <;> simp [setVx, setVn]

/-! ### The fixed-latency vector forms (R372, R373) -/

theorem vForm_does {i : Instr} {s : State} {h : Hdr} {x2 ok : Bool} {d : VReg} {f : Nat → LaneFn}
    (hi : exec i s = vForm s h x2 ok d f) (hok : ok = true) (hd : okVx s.grp x2 d = true) : VectorDoes i s h x2 d f := by
  refine ⟨_, hi.trans (checked_ok (by simp [hok, hd])), ?_⟩
  have hs := setVx_eq s.grp x2 d (activeSet s.grp h) fun half => genVec fun l => (f half l).bits
  refine ⟨?_, ?_, ?_, ?_, ?_⟩
  · intro k hk l hl
    rw [retire_eq, State.slot_setSlot_same]
    show lane (getVn (setVx _ _ _ _ _) _) _ = _
    rw [getVn_setVx hk, lane_mixVec _ _ _ hl, lane_genVec _ hl]
  · intro r hr
    rw [retire_eq, State.slot_setSlot_same]
    exact getVn_setVx_ne hr
  · intro l hl
    rw [retire_eq, State.slot_setSlot_same]
    have e := lane_orFlags (activeSet s.grp h) s.grp.fflags (genVec fun l => (f 0 l).ff ||| if x2 then (f 1 l).ff else 0) hl
    rw [lane_genVec _ hl] at e
    rw [hs]
    cases x2 <;> simpa [groupAfter, raise] using e
  · intro l hl
    rw [retire_eq, State.slot_setSlot_same]
    have e := lane_orFlags (activeSet s.grp h) s.grp.iflags (genVec fun l => (f 0 l).iff ||| if x2 then (f 1 l).iff else 0) hl
    rw [lane_genVec _ hl] at e
    rw [hs]
    cases x2 <;> simpa [groupAfter, raise] using e
  · rw [retire_eq, State.slot_setSlot_same]
    have := setSlot_onlyGroup s (groupAfter s (raise (setVx s.grp x2 d (activeSet s.grp h) fun half => genVec fun l => (f half l).bits)
      (activeSet s.grp h) (genVec fun l => (f 0 l).ff ||| if x2 then (f 1 l).ff else 0)
      (genVec fun l => (f 0 l).iff ||| if x2 then (f 1 l).iff else 0)) (nextPc s.grp.pc) h.sw)
    rw [hs] at this ⊢
    exact this

end Sys2Proof.Machine
end

