-- ==== Sys2Proof/Tests/Slice0.lean ====
section
/-! SUPPORT. Tests of the model, from the spec's worked examples and from the encodings of the spec laid out by hand, and for
each obligation a theorem that shows states and operands meeting its hypotheses, clause by clause. -/
namespace Sys2Proof.Tests
open Sys2Proof Sys2Proof.Machine
set_option Elab.async false

/-! ### States -/

/-- A group of two in slot 0, with 12 scalar registers, 16 vector registers, 4 tiles and 8 KiB of scratchpad; object 1 of its
address space is its code. -/
def group : Slot :=
  { bind := { sstate := .running, asid := 2, tenant := 3, block := 7, gcntm1 := 1, sregs := 12, vreg16 := 1, tiles := 4, scr4k := 2 },
    pc := 0x100000000000, em := 0xFFFFFFFF }

/-- The code object, one page at page 16 of die 0; object 5, two pages at page 32; object 6, the same for far-tier memory. -/
def codeObj : Obj := { state := .valid, x := true, r := true, bound := 4096, exts := [⟨0, 1, true, false, 0, 16⟩] }
def dataObj : Obj := { state := .valid, r := true, w := true, a := true, bound := 8192, exts := [⟨0, 1, true, false, 1, 32⟩] }

/-- The module once its lehr is done, with the two groups on core 0 of die 0. -/
def machine : State :=
  let s := State.reset
  let s := { s with lehr := .done, ids := 40, time := 1000, mgmt := { s.mgmt with online := 0xFF, present := 0xFF, lc := .deployed } }
  let s := s.setSlot 0 group
  let s := s.setSlot 1 { group with bind := { group.bind with gidx := 1 } }
  let s := s.setCore 0 { s.core 0 with awake := true }
  (s.setObj 2 1 codeObj).setObj 2 5 dataObj

/-- The machine with a change to the issuing group. -/
def withGroup (f : Slot → Slot) (s : State := machine) : State := s.setSlot 0 (f (s.slot 0))

/-- The machine with values in the issuing group's first scalar registers. -/
def withScalars (vs : List W64) (s : State := machine) : State := withGroup (fun g => { g with s := vs.zipIdx.map fun p => (p.2, p.1) }) s

/-- The machine with `n` operations outstanding. -/
def withOutst (n : Nat) (s : State := machine) : State := withGroup (fun g => { g with outst := List.replicate n ⟨3, 0, .wait, none⟩ }) s

/-- The machine with operands of an event. -/
def withArg (f : Args → Args) (s : State := machine) : State := { s with arg := f s.arg }

/-- The machine with a translation register and an offset in each lane of v2: eight bytes apart in object 5. -/
def withTrans (s : State := machine) : State := withGroup (fun g => { g with
  b := [(1, { obj := 5, base := 0x80, pfn := 32, lim := 2, set := true, r := true, w := true, a := true, v := true })],
  v := [(2, genVec fun l => BitVec.ofNat 32 (8 * l))] }) s

def kernelNode (trapv : W64) : Node := { addr := 0x700000000000, kind := .launch, trapv := trapv, state := .ready }

/-! ### Witnesses: scalar, mask and control instructions -/

theorem witness_ScalarArithmetic :
    okS machine.grp 11 ∧ okS machine.grp 0 ∧ okS machine.grp 5 ∧
    typed .i8 (getS (withScalars [0x1FF, 0]).grp 0) < typed .i8 (getS (withScalars [0x1FF, 0]).grp 1) ∧
    ¬ typed .n8 (getS (withScalars [0x1FF, 0]).grp 0) < typed .n8 (getS (withScalars [0x1FF, 0]).grp 1) ∧
    typed .i8 (immS .i8 0xFFFFFF80) = -128 := by decide

theorem witness_ScalarLogic : okS machine.grp 11 ∧ okS machine.grp 0 ∧ okS machine.grp 5 ∧ okS machine.grp 10 := by decide

theorem witness_MaskInstructions : okS machine.grp 11 ∧ okS machine.grp 0 ∧ maskReg machine.grp 0 = 0xFFFFFFFF ∧
    maskReg machine.grp 3 = 0 := by decide

/-- A target that cannot be fetched is legal (R360), as slot 4 of a line is; slot 5 is not. -/
theorem witness_ControlTransfers :
    targetBad machine 0 machine.grp.bind.asid.toNat 0x900000000004 = false ∧
    targetBad machine 0 machine.grp.bind.asid.toNat 0x900000000005 = true ∧
    getS (withScalars [0x900000000004, 0x900000000005, 0xFFFFFFFFFFFFFFFF]).grp 0 = 0x900000000004 ∧
    condHolds .lt (getS (withScalars [0, 5, 0xFFFFFFFFFFFFFFFF]).grp 2).toInt 0 ∧
    ¬ condHolds .lt (getS (withScalars [0, 5]).grp 0).toInt 0 ∧ maskReg machine.grp 0 ≠ 0 ∧ maskReg machine.grp 3 = 0 ∧
    okS machine.grp 11 := by
  refine ⟨by decide, by decide, by decide, ?_, ?_, by decide, by decide, by decide⟩
  · show (getS _ _).toInt < 0
    decide
  · show ¬ (getS _ _).toInt < 0
    decide

theorem witness_SpecialRegisters :
    okS machine.grp ((15 : VReg).setWidth 6) = false ∧ okS machine.grp ((11 : VReg).setWidth 6) ∧ okV machine.grp 15 ∧
    flagsPending machine.grp = false ∧ flagsPending (withOutst 1).grp = true ∧ (6 : BitVec 5).toNat < 7 ∧
    7 ≤ (7 : BitVec 5).toNat ∧ Spr.clock ≠ .fflags ∧ Spr.clock ≠ .iflags := by decide

def draining : State := withGroup fun g => { g with bind := { g.bind with sstate := .draining } }
def storing : State := withGroup fun g => { g with outst := [⟨3, 0, .mem ⟨.store 4, false, 5, [], []⟩, none⟩] }
/-- The block with the other group arrived at barrier 2, which expects two. -/
def oneArrived : State := machine.setBlock 0 { machine.block 0 with bars := [(2, ⟨2, 2⟩)] }

def barrier (s : State) : Barrier := tget (s.block s.lead).bars 2 {}
/-- The issuing group arrives there. -/
def arrives (s : State) : State :=
  s.setBlock s.lead { s.block s.lead with bars := tset (s.block s.lead).bars 2 ⟨2, (barrier s).arr ||| 1⟩ }

theorem witness_GroupStopsAndBarriers :
    machine.grp.bind.sstate ≠ .draining ∧ draining.grp.bind.sstate = .draining ∧
    (machine.grp.dfault = none ∧ machine.grp.outst = [] ∧ machine.grp.board = [] ∧ machine.grp.bind.sstate = .running ∧
      machine.grp.stopped = false ∧ (machine.die 0).halted = none) ∧
    ((withOutst 1).grp.dfault = none ∧ (withOutst 1).grp.outst ≠ []) ∧ storesPerformed storing.grp = false ∧
    storesPerformed machine.grp ∧ machine.grp.barrier = none ∧
    ((barrier machine).exp = 0 ∧ (barrier machine).arr.getLsbD 0 = false ∧ barrierFull (arrives machine) 0 2 = false) ∧
    ((barrier oneArrived).exp = 2 ∧ (barrier oneArrived).arr.getLsbD 0 = false ∧ (barrier oneArrived).arr.getLsbD 1 = true ∧
      barrierFull (arrives oneArrived) 0 2 ∧ barrierHeld (arrives oneArrived) 0 2 = false ∧
      (∀ j ∈ blockSlots oneArrived 0, (oneArrived.slot j).dfault = none ∧ (oneArrived.slot j).aside = none) ∧
      (barrier oneArrived).exp ≠ 0 ∧ (barrier oneArrived).exp ≠ (1 : BitVec 5).toNat) ∧
    (machine.grp.bind.gcntm1.toNat + 1 < (3 : BitVec 5).toNat ∧ (2 : BitVec 5).toNat ≤ machine.grp.bind.gcntm1.toNat + 1) := by
  decide

/-- The launch whose handler's line is at page 0 of an object that cannot be fetched, so its first slot is no reason to fault. -/
def launched (f : Slot → Slot) : State := withGroup (fun g => f { g with bind := { g.bind with node := 0x700000000000 } })
  { machine with graphs := [{ hdr := 0x600000000000, asid := 2, die := 0, gcompl := 0, nodes := [kernelNode 0x900000000040], edges := [] }] }
def handling (em : W32) (rpc : W64) : State := withScalars [0x100000000004, 5] (withGroup fun g =>
  { g with inHandler := true, frame := { g.frame with rpc := rpc, em := em } })
/-- Address space 2 is the device tenant's. -/
def reserved (s : State) : State := { s with mgmt := { s.mgmt with reservedAsids := [2] } }
/-- BRKHALT of the group's tenant is on; `u` is the tenant of the other block. -/
def breaking (u : W6) : State :=
  let s := (launched id).setIface 3 { machine.iface 3 with brkHalt := true }
  s.setSlot 1 { s.slot 1 with bind := { (s.slot 1).bind with tenant := u } }
/-- The handler that a group held at barrier 2 entered. -/
def handlingAside : State := let s := handling 0xFFFFFFFF 4; s.setSlot 0 { s.slot 0 with aside := some { pc := 4, barrier := some 2 } }

theorem witness_TrapsReturnsAndBreakpoints :
    handlerReady (launched id) ∧ machine.grp.inHandler = false ∧
    ((handling 5 0).grp.inHandler ∧ (handling 5 0).grp.em ≠ (handling 5 0).grp.frame.em) ∧
    ((handling 0xFFFFFFFF 4).grp.em = (handling 0xFFFFFFFF 4).grp.frame.em ∧
      ((4 : W64).extractLsb' 3 3 = 0 ∧ ((4 : W64).extractLsb' 0 3).toNat ≤ 4) ∧ ¬ (((5 : W64).extractLsb' 0 3).toNat ≤ 4) ∧
      getS (handling 0xFFFFFFFF 4).grp 0 = 0x100000000004 ∧ getS (handling 0xFFFFFFFF 4).grp 1 = 5 ∧ okS (handling 0xFFFFFFFF 4).grp 1) ∧
    ((handling 0xFFFFFFFF 4).grp.aside = none ∧ (handling 0xFFFFFFFF 4).grp.barrier = none ∧ handlingAside.grp.inHandler ∧
      handlingAside.grp.aside = some { pc := 4, barrier := some 2 } ∧ handlingAside.grp.frame.rpc = 4 ∧
      handlingAside.grp.em = handlingAside.grp.frame.em ∧ handlingAside.grp.bind.sstate ≠ .draining) ∧
    ((launched id).iface 3).brkHalt = false ∧ (reserved (launched id)).reserved 2 ∧ (breaking 3).reserved 2 = false ∧
    (breaking 4).reserved 2 = false ∧
    (((breaking 3).iface 3).brkHalt ∧ haltPermitted (breaking 3) 0 3) ∧
    (handlerReady (breaking 4) ∧ ((breaking 4).iface 3).brkHalt ∧ haltPermitted (breaking 4) 0 3 = false) := by decide

/-! ### Witnesses: vector instructions -/

theorem witness_VectorArithmetic : okVx machine.grp true 14 ∧ okVx machine.grp false 15 ∧ okVx machine.grp true 14 = true ∧
    okVx machine.grp true 15 = false := by decide

/-- Every word has its count of leading zeros. -/
theorem leading_zeros (w : W32) : ∀ j n, n + j = 32 → (∀ i, 32 - n ≤ i → i < 32 → w.getLsbD i = false) →
    ∃ n ≤ 32, (∀ i, 32 - n ≤ i → i < 32 → w.getLsbD i = false) ∧ (n < 32 → w.getLsbD (31 - n) = true)
  | 0, n, hn, h => ⟨n, by omega, h, by omega⟩
  | j + 1, n, hn, h => by
    by_cases hb : w.getLsbD (31 - n) = true
    · exact ⟨n, by omega, h, fun _ => hb⟩
    · refine leading_zeros w j (n + 1) (by omega) fun i h1 h2 => ?_
      by_cases hi : i = 31 - n
      · subst hi; simpa using hb
      · exact h i (by omega) h2

theorem witness_VectorLogic : okS machine.grp 11 ∧ okV machine.grp 15 ∧ okVx machine.grp true 14 ∧
    (∃ f : Nat → Bool, ∀ l, f l = true ↔ condHolds .eq (typed .i32 (lane (srcV machine.grp 0 15) l)) (typed .i32 (0 : W32))) ∧
    (∃ n : Nat → Nat → Nat, ∀ k l, n k l ≤ 32 ∧
      (∀ i, 32 - n k l ≤ i → i < 32 → (lane (srcV machine.grp k 14) l).getLsbD i = false) ∧
      (n k l < 32 → (lane (srcV machine.grp k 14) l).getLsbD (31 - n k l) = true)) := by
  refine ⟨by decide, by decide, by decide, ⟨fun l => decide (typed .i32 (lane (srcV machine.grp 0 15) l) = typed .i32 (0 : W32)),
    fun l => decide_eq_true_iff⟩, ?_⟩
  have h : ∀ k l, ∃ n, n ≤ 32 ∧ _ := fun k l => leading_zeros (lane (srcV machine.grp k 14) l) 32 0 rfl (by omega)
  exact ⟨fun k l => (h k l).choose, fun k l => (h k l).choose_spec⟩

theorem witness_VectorFloatingPoint : okV machine.grp 15 ∧ okVx machine.grp true 14 ∧ okVx machine.grp false 15 := by decide

theorem witness_CrossLaneAndTopK :
    okV machine.grp 15 ∧ outstFull (withOutst 64).grp ∧ outstFull (withOutst 63).grp = false ∧ okS2 machine.grp 10 ∧ okS machine.grp 11 ∧
    okVn machine.grp 2 14 ∧ laneOn (activeSet (withGroup fun g => { g with em := 0x80000000 }).grp ⟨false, 0⟩) 31 ∧
    ∀ i < 31, laneOn (activeSet (withGroup fun g => { g with em := 0x80000000 }).grp ⟨false, 0⟩) i = false := by decide

theorem witness_WideAccumulator : okV machine.grp 15 ∧ okV machine.grp 0 := by decide
/-! ### Witnesses: memory, tiles and the matrix engine -/

def noLanes (s : State := machine) : State := withGroup (fun g => { g with em := 0 }) s
def lane8 (base : Nat) (l : Nat) : Int := (base : Int) + (lane (getV withTrans.grp 2) l).toInt

/-- The lanes of v2, eight bytes apart from 80H on, lie in object 5, and those from 1F88H on pass its bound from lane 15 on. -/
theorem witness_MemoryAccesses :
    okV withTrans.grp 15 ∧ okV withTrans.grp 2 ∧ outstFull (withOutst 64).grp ∧ outstFull withTrans.grp = false ∧
    memActive (noLanes withTrans).grp ⟨false, 0⟩ = 0 ∧ memActive withTrans.grp ⟨false, 0⟩ = 0xFFFFFFFF ∧
    (∀ l < 32, transLane withTrans 0 2 (tget withTrans.grp.b 1 {}) (lane8 0x80 l) 4 4 .r = .ok (32 * 4096 + 0x80 + 8 * l)) ∧
    (∀ l < 32, transLane withTrans 0 2 (tget withTrans.grp.b 1 {}) (lane8 0x80 l) 4 4 .a = .ok (32 * 4096 + 0x80 + 8 * l)) ∧
    (transLane withTrans 0 2 (tget withTrans.grp.b 1 {}) (lane8 0x1F88 15) 4 4 .w = .fault 0x21 ∧
      ∀ l < 15, transLane withTrans 0 2 (tget withTrans.grp.b 1 {}) (lane8 0x1F88 l) 4 4 .w = .ok (33 * 4096 + 0xF88 + 8 * l)) ∧
    (∀ l < 32, scrLane withTrans.grp 0 (lane8 0x1F00 l) 4 = .ok (0x1F00 + 8 * l)) ∧
    (scrLane withTrans.grp 0 (lane8 0x1F88 15) 4 = .fault 0x28 ∧
      ∀ l < 15, ∀ c, scrLane withTrans.grp 0 (lane8 0x1F88 l) 4 ≠ .fault c) := by
  refine ⟨by decide, by decide, by decide, by decide, by decide, by decide, by decide, by decide, ⟨by decide, by decide⟩, by decide,
    by decide, ?_⟩
  have h : ∀ l < 15, scrLane withTrans.grp 0 (lane8 0x1F88 l) 4 = .ok (0x1F88 + 8 * l) := by decide
  intro l hl c
  rw [h l hl]
  simp

def tileBusy (reads writes : List Nat) (s : State := machine) : State :=
  withGroup (fun g => { g with board := [⟨3, 0, reads, writes, true, .zero 0 0⟩] }) s
/-- Rows 128 bytes apart, from the start of object 5. -/
def rowLanesAt (s : State := machine) : State := withGroup (fun g => { g with
  b := [(1, { obj := 5, pfn := 32, lim := 2, set := true, r := true, w := true, a := true, v := true })],
  v := [(2, genVec fun l => BitVec.ofNat 32 (128 * l))], tc := [(3, 0xFFC0)] }) s

theorem witness_TileRowsAndConfiguration :
    okT machine.grp 3 ∧ okV machine.grp 2 ∧ userOf (tileBusy [3] []).grp [3] ∧ userOf machine.grp [3] = false ∧
    writerOf (tileBusy [] [3]).grp [3] ∧ writerOf (tileBusy [3] []).grp [3] = false ∧ outstFull (withOutst 64).grp ∧
    memActive (noLanes rowLanesAt).grp ⟨false, 0⟩ = 0 ∧
    (∀ l < 32, transLane rowLanesAt 0 2 (tget rowLanesAt.grp.b 1 {}) (lane (getV rowLanesAt.grp 2) l).toInt 128 128 .r =
      .ok (32 * 4096 + 128 * l)) ∧
    (∀ l < 32, transLane rowLanesAt 0 2 (tget rowLanesAt.grp.b 1 {}) (lane (getV rowLanesAt.grp 2) l).toInt 128 128 .w =
      .ok (32 * 4096 + 128 * l)) ∧
    (bitsOf (tget rowLanesAt.grp.tc 3 0).toNat 10 6 = 31 ∧ bitsOf (tget rowLanesAt.grp.tc 3 0).toNat 15 11 = 31) ∧
    okS machine.grp 11 ∧ bitsOf (0x38 : Nat) 5 3 = 7 ∧ bitsOf (1 : Nat) 2 0 ≠ 0 ∧ bitsOf (0x10000 : Nat) 63 16 ≠ 0 ∧
    (bitsOf (0xFFC8 : Nat) 5 3 ≠ 7 ∧ bitsOf (0xFFC8 : Nat) 2 0 = 0 ∧ bitsOf (0xFFC8 : Nat) 63 16 = 0 ∧
      bitsOf (0xFFC8 : Nat) 15 6 = bitsOf (tget rowLanesAt.grp.tc 3 0).toNat 15 6 ∧
      bitsOf (0x7FC0 : Nat) 15 6 ≠ bitsOf (tget rowLanesAt.grp.tc 3 0).toNat 15 6) := by decide

def engineWaits : State := machine.setCore 0 { machine.core 0 with engine := List.replicate 4 (0, 3) }
def fp8 : Tmma := ⟨⟨false, 0⟩, .e4m3, .e4m3, false, true, 3, 2, 0, 14, 11⟩

theorem witness_MatrixInstructions :
    quartersUniform (activeSet (withGroup fun g => { g with em := 0x7F }).grp ⟨false, 0⟩) = false ∧
    quartersUniform (activeSet (withGroup fun g => { g with em := 0xFF0000FF }).grp ⟨false, 0⟩) ∧
    quartersUniform (activeSet machine.grp ⟨false, 0⟩) ∧ writerOf (tileBusy [] [2]).grp [2] ∧ userOf (tileBusy [3] []).grp [3] ∧
    writerOf machine.grp [2, 3] = false ∧ userOf machine.grp [3] = false ∧ engineFull engineWaits ∧ engineFull machine = false ∧
    outstFull (withOutst 64).grp ∧ outstFull machine.grp = false ∧ okT machine.grp 3 ∧ okV machine.grp 15 ∧ okS2 machine.grp 10 ∧
    okS machine.grp 11 ∧ (2 : TReg).toNat + 1 < machine.grp.bind.tiles.toNat ∧ okVn machine.grp 2 14 ∧ tmmaRegs machine.grp fp8 ∧
    ∀ b ∈ (quartersOf (activeSet machine.grp fp8.h)).map (fun k => if fp8.qd then
      (lane (getVn machine.grp (fp8.vs.toNat + 1)) (8 * k)).toNat % 8 else fp8.tb.toNat), b < machine.grp.bind.tiles.toNat := by decide

def withObj (n : Nat) (o : Obj) (s : State := machine) : State := s.setObj 2 n o

/-- Lanes 0 to 14 lie in the window of b1, and the others in a page of object 5 that is not present. -/
def halfPresent : State :=
  let o := machine.obj 2 5
  let s := withTrans (withObj 5 { o with exts := [⟨0, 1, true, false, 0, 32⟩, ⟨1, 1, false, true, 0, 0⟩] })
  withGroup (fun g => { g with b := [(1, { obj := 5, base := 0xF88, pfn := 32, lim := 1, set := true, r := true, w := true, a := true, v := true })] }) s

theorem witness_MemoryAccesses_parks :
    outstFull halfPresent.grp = false ∧ memActive halfPresent.grp ⟨false, 0⟩ = 0xFFFFFFFF ∧
    (∀ l < 15, transLane halfPresent 0 2 (tget halfPresent.grp.b 1 {}) (lane8 0xF88 l) 4 4 .r = .ok (32 * 4096 + 0xF88 + 8 * l)) ∧
    ∀ l < 32, 15 ≤ l → transLane halfPresent 0 2 (tget halfPresent.grp.b 1 {}) (lane8 0xF88 l) 4 4 .r = .park := by
  and_intros <;> decide +kernel

theorem witness_PrefetchAndTranslationRegisters :
    okV machine.grp 15 ∧ okS machine.grp 11 ∧
    (machine.obj 2 5).state ≠ .invalid ∧ (machine.obj 2 7).state = .invalid ∧
    ((withObj 5 { dataObj with state := .lost }).obj 2 5).state = .lost ∧
    (((withObj 5 { dataObj with kind := .far }).obj 2 5).state ≠ .lost ∧ ((withObj 5 { dataObj with kind := .far }).obj 2 5).kind ≠ .die) ∧
    ((withObj 5 { dataObj with home := 1 }).obj 2 5).home ≠ slotDie machine.cur ∧
    ((machine.obj 2 5).kind = .die ∧ (machine.obj 2 5).home = slotDie machine.cur) ∧
    ((machine.obj 2 5).bound ≤ 8192 ∧ 8191 < (machine.obj 2 5).bound) ∧
    (extentAt ((withObj 5 { dataObj with exts := [] }).obj 2 5) 8191 = none) ∧
    (extentAt ((withObj 5 { dataObj with exts := [⟨0, 1, false, false, 1, 32⟩] }).obj 2 5) 8191 = some ⟨0, 1, false, false, 1, 32⟩) ∧
    (extentAt (machine.obj 2 5) 8191 = some ⟨0, 1, true, false, 1, 32⟩ ∧ (machine.obj 2 5).state ≠ .moving) ∧
    ((withScalars [0x500000001FFF]).grp.s = [(0, 0x500000001FFF)] ∧ (0x500000001FFF : W64).toNat / 2 ^ 44 = 5) := by decide

def loading (s : State := machine) : State := withGroup (fun g => { g with outst := [⟨3, 0, .mem ⟨.load .b32 1, false, 5, [], []⟩, none⟩] }) s
/-- Group 0 has stored a byte that it has not published. -/
def stored (s : State := machine) : State := s.setCore 0 { s.core 0 with dirty := [(32 * 4096, 9, 0)] }
/-- A contribution of the group stays in the marver of port 0 for a queue of its own die. -/
def contributed : State := machine.setPort (portKey 0 0) { marver := [⟨0x28, 3, 1, 1, [], 0, [machine.grp.ctx], false⟩] }

theorem witness_Phases :
    (withGroup fun g => { g with phase := some ⟨3, true, none⟩ }).grp.phase.isSome ∧ machine.grp.phase = none ∧
    phaseReady loading.grp (machine.pkgid.toNat * 8 + 0) machine.ids = false ∧
    phaseReady machine.grp (machine.pkgid.toNat * 8 + 0) machine.ids ∧ dirtyLines (machine.core 0) [0] = [] ∧
    owesMerge machine 0 = false ∧ owesMerge contributed 0 ∧
    (∀ p ∈ machine.grp.pubs, p.2 < machine.ids) ∧ dirtyLines (stored.core 0) [0] ≠ [] := by decide

def withCounter (w : W64) (s : State := machine) : State := s.setBlock 0 { s.block 0 with tl := [(1, w)] }
/-- A claim that names object 5 from 2000 on. -/
def claiming (o : Obj) : State := withScalars [0x5000000007D0, 64] (withObj 5 o)

theorem witness_ClaimsAndTimelines :
    okS machine.grp 11 ∧ outstFull (withOutst 64).grp ∧ outstFull machine.grp = false ∧
    activeSet (noLanes machine).grp ⟨false, 0⟩ = 0 ∧ activeSet machine.grp ⟨false, 0⟩ ≠ 0 ∧
    claimFault ((claiming { dataObj with w := false }).obj 2 5) 5 2000 = some 0x22 ∧
    claimFault ((claiming { dataObj with bound := 2000 }).obj 2 5) 5 2000 = some 0x21 ∧
    (claimFault ((claiming dataObj).obj 2 5) 5 2000 = none ∧ ((claiming dataObj).obj 2 5).kind = .die ∧
      ((claiming dataObj).obj 2 5).home = 0) ∧
    (claimFault ((claiming { dataObj with home := 1 }).obj 2 5) 5 2000 = none ∧ ((claiming { dataObj with home := 1 }).obj 2 5).home ≠ 0) ∧
    (getS (claiming dataObj).grp 0 = 0x5000000007D0 ∧ (0x5000000007D0 : Nat) / 2 ^ 44 = 5 ∧ (0x5000000007D0 : Nat) % 2 ^ 44 = 2000) ∧
    -- the counter stands at 5: numbers 5 and 6, and a failure recorded at 5
    ((5 + 2 ^ 40 - 5) % 2 ^ 40 < 2 ^ 39 ∧ ¬ (5 + 2 ^ 40 - 6) % 2 ^ 40 < 2 ^ 39) ∧
    (bitsOf (0x0005800000000005 : Nat) 39 0 = 5 ∧ (0x0005800000000005 : W64).getLsbD 47 = true ∧
      (5 % 2 ^ 16 + 2 ^ 16 - bitsOf (0x0005800000000005 : Nat) 63 48) % 2 ^ 16 < 2 ^ 15) ∧
    tget ((withCounter 0x0005800000000005).block (withCounter 0x0005800000000005).lead).tl 1 0 = 0x0005800000000005 ∧
    (withScalars [5]).grp.twait = none ∧ (getS (withScalars [5]).grp 0).toNat % 2 ^ 40 = 5 := by decide

set_option maxRecDepth 20000 in
theorem witness_CopyIssue :
    okS machine.grp 11 ∧ activeSet (noLanes machine).grp ⟨false, 0⟩ ≠ 0xFFFFFFFF ∧ activeSet machine.grp ⟨false, 0⟩ = 0xFFFFFFFF ∧
    (withGroup fun g => { g with phase := some ⟨3, true, none⟩ }).grp.phase.isSome ∧
    bitsOf (tget ((withCounter 0x00007F0000000005).block 0).tl 1 0).toNat 46 40 = 127 ∧
    (machine.grp.phase = none ∧ blockCopies machine machine.lead < 16 ∧
      bitsOf (tget ((withCounter 0x00007E0000000005).block 0).tl 1 0).toNat 46 40 ≠ 127) ∧
    (∃ addrs, recWalk machine 0 2 0x500000000040 192 = .ok addrs ∧ ∀ a ∈ addrs, poisoned machine 0 0 a = false) := by
  refine ⟨by decide, by decide, by decide, by decide, by decide, by decide, (List.range 192).map (32 * 4096 + 0x40 + ·), ?_, ?_⟩
  · decide
  · decide

theorem witness_ExpertInstructions : activeSet (noLanes machine).grp ⟨false, 0⟩ = 0 ∧ activeSet machine.grp ⟨false, 0⟩ ≠ 0 ∧
    outstFull (withOutst 64).grp ∧ outstFull machine.grp = false ∧ okV machine.grp 15 ∧ okVn machine.grp 2 14 ∧ okVn machine.grp 6 10 ∧
    okS machine.grp 11 ∧ okS2 machine.grp 10 := by decide


/-! ### Witnesses: queue instructions -/

/-- Entry 1 of the table of address space 2 names queue 3 of port 1 of die 0 with every right, entry 2 gives no right, and entry 3
names a queue of package 7; scalar registers hold handles, a ticket of two, a large index, a descriptor's address and 255. -/
def queues (s : State := machine) : State :=
  let q : Qtte := { gen := 7, rights := 0x3F, valid := true, pqid := 0x00010003 }
  withScalars [0x70001, 0x70002, 0x80001, 0x70009, 0x0400000000000032, 2, 0x500000000040, 255, 256]
    { s with qtt := [(2 * 65536 + 1, q), (2 * 65536 + 2, { q with rights := 0 })] }
def fenced (ws : List (Flow × Nat)) (s : State := queues) : State := withGroup (fun g => { g with fence := some ⟨0, 1, ws⟩ }) s

theorem witness_QueueIssueAndTraps :
    (queues.mgmt.reservedAsids.contains queues.grp.bind.asid.toNat = false ∧
      (reserved queues).mgmt.reservedAsids.contains queues.grp.bind.asid.toNat) ∧
    (okS2 queues.grp 10 ∧ okS queues.grp 4 ∧ okS queues.grp 0 ∧ okElem queues.grp 15 3 ∧ okElem queues.grp 14 4) ∧
    activeSet (noLanes queues).grp ⟨false, 0⟩ = 0 ∧ activeSet queues.grp ⟨false, 0⟩ ≠ 0 ∧ outstFull (withOutst 64 queues).grp ∧
    outstFull queues.grp = false ∧
    (∀ r < 6, translate queues 2 0x80001 r = .error 0x11 ∧ translate queues 2 0x70002 r = .error 0x12 ∧
      translate queues 2 0x70009 r = .error 0x10 ∧ translate queues 2 0x70001 r = .ok 0x00010003) ∧
    (getS queues.grp 0 = 0x70001 ∧ getS queues.grp 1 = 0x70002 ∧ getS queues.grp 2 = 0x80001 ∧ getS queues.grp 3 = 0x70009) ∧
    queues.grp.slept = [] ∧ (fenced []).grp.fence.isSome ∧ (queues.grp.fence = none ∧ queues.grp.phase = none ∧ anyHeld queues.grp = false) ∧
    unreachable queues 0 0x00010003 = false ∧ inPackage queues (flowTo queues 0 0x00010003) ∧
    -- the ticket in s4 has N = 2: index 1 is below it, and 2 is not
    (ticketN (getS queues.grp 4) = 2 ∧ (1 : W6).toNat < 2 ∧ 2 ≤ (2 : W6).toNat ∧ 2 ≤ (getS queues.grp 5).toNat) ∧
    256 ≤ (getS queues.grp 8).toNat := by
  and_intros
  all_goals first
    | decide
    | (intro r hr; rcases r with _ | _ | _ | _ | _ | _ | r <;> first | exact ⟨rfl, rfl, rfl, rfl⟩ | omega)

/-- A descriptor of one row and one target at 40H of object 5, and its target table at 80H. -/
def scatterDesc : List W8 := leBytes 8 (2 ^ 56) ++ leBytes 24 0 ++ leBytes 8 0x500000000080 ++ List.replicate 24 0
def scatters : State :=
  let mem := memStore (memStore [] (32 * 4096 + 0x40) scatterDesc) (32 * 4096 + 0x80) [1, 0, 7, 0]
  ({ queues with mem := mem }).setCore 0 { queues.core 0 with snap := mem }
def scattered : State := queues.setDie 0 { queues.die 0 with dispatches :=
  [{ id := 9, slot := 0, lead := 0, asid := 2, tenant := 3, tl := 0, num := 6, esz := 0, topk := 0, ntok := 1, rows := 0, rowstr := 0, route := 0, targets := [], handles := [] }] }

theorem scatterRead_fresh {s : State} {d x n : Nat} {a : W64} {addrs : List Nat} (hp : s.poison = [])
    (hk : slotDie s.cur = d ∧ s.grp.bind.asid.toNat = x) (hw : recWalk s d x a n = .ok addrs)
    (h : ∀ a, memRead (s.core (s.cur / 16)).snap a = memRead s.mem a) (hd : (s.core (s.cur / 16)).dirty = []) :
    ∃ cs f, scatterRead s ⟨false, 0⟩ a n = .ok (addrs.map (memRead s.mem), { s with cores := cs, free := f }) ∧
      (∀ a, memRead (({ s with cores := cs, free := f } : State).core (s.cur / 16)).snap a = memRead s.mem a) ∧
      (({ s with cores := cs, free := f } : State).core (s.cur / 16)).dirty = [] := by
  obtain ⟨cs, f, e, hs, hd'⟩ := readView_fresh s s.cur addrs h hp
  refine ⟨cs, f, ?_, hs, hd'.trans hd⟩
  unfold scatterRead
  simp only [hk, hw, e, viewByte, dirtyByte, hd]
  simp [h]

theorem recWalk_cores (s : State) (cs : Tbl Core) (f d a : Nat) (x : W64) (n : Nat) :
    recWalk { s with cores := cs, free := f } d a x n = recWalk s d a x n := rfl

theorem translateAll_cores (s : State) (cs : Tbl Core) (f a : Nat) (l : List W32) :
    translateAll { s with cores := cs, free := f } a l = translateAll s a l := by
  induction l with
  | nil => rfl
  | cons h r ih =>
    show (match translate s a h rScat with | .error c => Except.error (c, h) | .ok p => _) = _
    rw [ih]
    rfl

theorem scatters_translate : translateAll scatters 2 [0x70001] = .ok [0x00010003] := rfl

theorem scatters_read : ∃ desc s₁ tab s₂ ts, scatterRead scatters ⟨false, 0⟩ (getS scatters.grp 6) 64 = .ok (desc, s₁) ∧
    scatterRead s₁ ⟨false, 0⟩ (BitVec.ofNat 64 (recNat desc 0x20 8)) (4 * (bitsOf (recCtl desc) 44 40 + 1)) = .ok (tab, s₂) ∧
    translateAll s₂ scatters.grp.bind.asid.toNat ((List.range (tab.length / 4)).map fun i => BitVec.ofNat 32 (recNat tab (4 * i) 4)) =
      .ok ts := by
  have hk : slotDie scatters.cur = 0 ∧ scatters.grp.bind.asid.toNat = 2 := by decide
  obtain ⟨cs, f, e, hs, hd⟩ := scatterRead_fresh (s := scatters) (a := getS scatters.grp 6) (n := 64)
    (addrs := (List.range 64).map (32 * 4096 + 0x40 + ·)) rfl hk (by decide +kernel) (fun _ => rfl) rfl
  obtain ⟨cs', f', e', -, -⟩ := scatterRead_fresh (s := { scatters with cores := cs, free := f }) (a := 0x500000000080) (n := 4)
    (addrs := (List.range 4).map (32 * 4096 + 0x80 + ·)) rfl hk ((recWalk_cores ..).trans (by decide +kernel)) hs hd
  refine ⟨scatterDesc, { scatters with cores := cs, free := f }, [1, 0, 7, 0], { scatters with cores := cs', free := f' }, [0x00010003],
    e.trans ?_, ?_, ?_⟩
  · rw [show ((List.range 64).map (32 * 4096 + 0x40 + ·)).map (memRead scatters.mem) = scatterDesc by decide +kernel]
  · rw [show BitVec.ofNat 64 (recNat scatterDesc 0x20 8) = 0x500000000080 by decide +kernel,
      show 4 * (bitsOf (recCtl scatterDesc) 44 40 + 1) = 4 by decide +kernel]
    exact e'.trans (by rw [show ((List.range 4).map (32 * 4096 + 0x80 + ·)).map (memRead scatters.mem) = [1, 0, 7, 0] by decide +kernel])
  · rw [hk.2, show (List.range (([1, 0, 7, 0] : List W8).length / 4)).map (fun i => BitVec.ofNat 32 (recNat [1, 0, 7, 0] (4 * i) 4)) =
      [0x70001] by decide +kernel]
    exact (translateAll_cores ..).trans scatters_translate

set_option maxRecDepth 4000 in
theorem witness_MergesFencesAndDispatches :
    (queues.mgmt.reservedAsids.contains queues.grp.bind.asid.toNat = false ∧
      (reserved queues).mgmt.reservedAsids.contains queues.grp.bind.asid.toNat) ∧
    (activeSet (noLanes queues).grp ⟨false, 0⟩ = 0 ∧ activeSet queues.grp ⟨false, 0⟩ = 0xFFFFFFFF) ∧
    (queues.grp.fence = none ∧ queues.grp.phase = none ∧ anyHeld queues.grp = false ∧ queues.grp.flows = []) ∧
    ((withGroup (fun g => { g with flows := [⟨0, 0, 0, 0⟩] }) queues).grp.flows ≠ [] ∧
      ∀ f ∈ (withGroup (fun g => { g with flows := [⟨0, 0, 0, 0⟩] }) queues).grp.flows, f.dpkg = queues.pkgid) ∧
    (okS queues.grp 0 ∧ okS queues.grp 7 ∧ okElem queues.grp 14 4 ∧ (getS queues.grp 7).toNat < 256) ∧
    (translate queues 2 0x70001 rMerge = .ok 0x00010003 ∧ unreachable queues 0 0x00010003 = false) ∧
    (outstFull (withOutst 64 queues).grp ∧ outstFull queues.grp = false) ∧
    (scattering scattered 0 ∧ scattering queues 0 = false) ∧ (fenced []).grp.fence.isSome ∧
    (bitsOf (tget (scatters.block scatters.lead).tl 1 0).toNat 46 40 ≠ 127 ∧
      bitsOf (tget ((withCounter 0x00007F0000000005 scatters).block 0).tl 1 0).toNat 46 40 = 127) ∧
    (∃ desc s₁ tab s₂ ts, scatterRead scatters ⟨false, 0⟩ (getS scatters.grp 6) 64 = .ok (desc, s₁) ∧
      scatterRead s₁ ⟨false, 0⟩ (BitVec.ofNat 64 (recNat desc 0x20 8)) (4 * (bitsOf (recCtl desc) 44 40 + 1)) = .ok (tab, s₂) ∧
      translateAll s₂ scatters.grp.bind.asid.toNat ((List.range (tab.length / 4)).map fun i => BitVec.ofNat 32 (recNat tab (4 * i) 4)) =
        .ok ts) ∧
    (scatters.die 0).dispatches = [] ∧
    ((scattered.die 0).dispatches ≠ [] ∧ ∀ y ∈ (scattered.die 0).dispatches, y.id < scattered.ids) := by
  and_intros
  all_goals first
    | decide
    | rfl
    | exact scatters_read

/-! ### Witnesses: reset, power and heat -/

def lehrIn (l : Lehr) (t : Nat) : State := { State.reset with lehr := l, lehrAt := 7, time := t, ids := 1 }
def badImage : Mgmt := { State.reset.mgmt with svn := 2, flash := { version := 1 } }

theorem witness_ResetAndLehr :
    (imageGood State.reset.mgmt ∧ imageGood badImage = false) ∧ (withArg fun a => { a with idx := 33 }).arg.idx < 34 ∧
    ((lehrIn .stageA 300007).lehr = .stageA ∧ (lehrIn .stageA 300007).lehrAt + 300000 ≤ 300007) ∧
    ((lehrIn (.stageB 7) 120007).lehr = .stageB 7 ∧ (lehrIn (.stageB 7) 120007).lehrAt + 120000 ≤ 120007) ∧
    ((lehrIn (.stageB 8) 80007).lehr = .stageB 8 ∧ (lehrIn (.stageB 8) 80007).lehrAt + 80000 ≤ 80007) ∧
    ((lehrIn (.stageB 31) 150007).lehr = .stageB 31 ∧ (lehrIn (.stageB 31) 150007).lehrAt + 150000 ≤ 150007) ∧
    ((lehrIn (.stageB 32) 120007).lehr = .stageB 32 ∧ (lehrIn (.stageB 32) 120007).lehrAt + 120000 ≤ 120007) ∧
    (socketPresent machine 0 ∧ ∀ j, 34 ≤ j → j < 34 → socketPresent machine j = false) ∧
    ((lehrIn .stageC 21475007).lehr = .stageC ∧ (lehrIn .stageC 21475007).lehrAt + 21475000 ≤ 21475007) ∧
    ((lehrIn (.stageD 319) 638007).lehr = .stageD 319 ∧ (lehrIn (.stageD 319) 638007).lehrAt + 2000 * 319 ≤ 638007) ∧
    (machine.mgmt.present.getLsbD (319 % 8) = true ∧ homeSound machine (319 % 8) ∧
      homeSound { machine with mgmt := { machine.mgmt with failed := [7] } } 7 = false) ∧
    ({ machine with wakeQ := [(0, 319)] }.wakeQ = (0, 319) :: [] ∧ machine.lehr = .done ∧ machine.wakeAt + 2000 ≤ 2000) := by
  and_intros <;> first | decide | (intro j h1 h2; omega)

/-- Die 0 and die 3 report the same power, above the others. -/
def powered (mean : W64) (pts : Nat → BitVec 2) : State :=
  let s := withArg (fun a => { a with v := mean, words := [310, 300, 0, 310, 299, 0, 0, 0] }) { machine with time := 1000000, mgmt := { machine.mgmt with present := 0x1F } }
  (List.range 8).foldl (fun s e => s.setDie e { s.die e with cur := pts e, powerPt := pts e }) s
def mayStep (s : State) (e : Nat) (down : Bool) : Bool :=
  s.mgmt.present.getLsbD e && if down then (s.die e).cur != 3 else (s.die e).powerPt != 0
def powerOf (s : State) (e : Nat) : Nat := ((s.arg.words.getD e 0).setWidth 16 : W16).toNat

theorem witness_ClustersAndOperatingPoints :
    (machine.lehr = .done ∧ machine.mgmt.online.getLsbD 7 ∧ (machine.core (coreKey 7 (4 * 39))).awake = false ∧
      (∀ e ∈ machine.wakeQ, e.2 ≠ 319) ∧ machine.wakeQ = [] ++ [] ∧ (∀ i, i < 4 → coreIdle machine (coreKey 7 (4 * 39 + i))) ∧
      (∀ i, i < 4 → (machine.core (coreKey 7 (4 * 39 + i))).dirty = [])) ∧
    -- a request at the time of others takes its place among them
    (∀ e ∈ [(machine.time, 318)], e.2 < 319) ∧ (∀ e, ([] : List (Nat × Nat)).head? = some e → 319 < e.2) ∧
    (lehrIn .stageA 0).lehr ≠ .done ∧
    95 ≤ (95 : W64).toNat ∧ 95 ≤ (300 : W64).toNat ∧ (89 : W64).toNat < 90 ∧ 90 ≤ (94 : W64).toNat ∧ (94 : W64).toNat < 95 ∧
    ({ powered 2600 fun _ => 0 with powerOver := true }.powerOver ∧ min (2600 : W64).toNat 65535 = 2600) ∧
    (2600 < min (2601 : W64).toNat 65535 ∧ (powered 2601 fun _ => 0).powerAt + 100000 ≤ (powered 2601 fun _ => 0).time ∧
      (powered 2601 fun _ => 0).arg.words.length = 8) ∧
    mayStep (powered 2601 fun _ => 2) 0 true ∧
    (∀ e, e < 8 → mayStep (powered 2601 fun _ => 2) e true → powerOf (powered 2601 fun _ => 2) e < powerOf (powered 2601 fun _ => 2) 0 ∨
      (powerOf (powered 2601 fun _ => 2) e = powerOf (powered 2601 fun _ => 2) 0 ∧ 0 ≤ e)) ∧
    (min (2469 : W64).toNat 65535 < 2470 ∧ (powered 2469 fun _ => 1).powerAt + 1000000 ≤ (powered 2469 fun _ => 1).time) ∧
    mayStep (powered 2469 fun _ => 1) 2 false ∧
    (∀ e, e < 8 → mayStep (powered 2469 fun _ => 1) e false →
      powerOf (powered 2469 fun _ => 1) 2 < powerOf (powered 2469 fun _ => 1) e ∨
      (powerOf (powered 2469 fun _ => 1) 2 = powerOf (powered 2469 fun _ => 1) e ∧ e ≤ 2)) := by
  decide +kernel

/-! ### Witnesses: results, memory and tiles -/

def withOps (os : List Outst) (f : Args → Args) (s : State := machine) : State :=
  withArg f (withGroup (fun g => { g with outst := os }) { s with graphs := [] })
def deferred : Trap := { cause := 9, code := 5, precise := false, lanes := 7, fpc := 0x100000000000 }
def result (r : Result) : Outst := ⟨7, 0x100000000000, .wait, some r⟩
def half : Result := { vw := [⟨3, 0x0000FFFF, genVec fun l => BitVec.ofNat 32 l⟩] }
/-- The group's launch has a handler. -/
def trapping (s : State) : State :=
  { s with graphs := [{ asid := 2, hdr := 0x200000000000, nodes := [{ addr := 0x300000000000, kind := .launch, trapv := 0x900000000000, state := .ready }], die := 0, gcompl := 0, edges := [] }] }.setSlot 0
    { (s.slot 0) with bind := { (s.slot 0).bind with node := 0x300000000000 } }

set_option maxRecDepth 20000
theorem quiet_of {g : Slot} (h : g.dfault = none ∧ g.exiting = false ∧ g.phase = none)
    (ho : ∀ o ∈ g.outst, (match o.op with | .queue q => decide (q.st ≠ .held) | _ => true) = true) : Quiet g := by
  refine ⟨h.1, h.2.1, h.2.2, ?_⟩
  intro o hm q hq _
  have := ho o hm
  rw [hq] at this
  simpa using this

theorem names_of {s : State} {g : Slot} {o : Outst} (h : o ∈ g.outst ∧ o.id = s.arg.idx ∧ ∀ x ∈ g.outst, x.id = o.id → x = o) :
    Names s g o := h

theorem witness_ResultsReturn :
    (Names (withOps [result half] fun a => { a with idx := 7, lanes := 0x5 }) (withOps [result half] id).grp (result half) ∧
      Quiet (withOps [result half] id).grp ∧ (0x5 : W32) ≠ 0 ∧ (0x0000FFFF : W32) &&& ~~~0x5 ≠ 0 ∧ half.fault = none ∧ half.sw = []) ∧
    (Names (withOps [result { sw := [(11, 5)] }] fun a => { a with idx := 7 }) (withOps [result { sw := [(11, 5)] }] id).grp (result { sw := [(11, 5)] })) ∧
    ((withOps [result { fault := some deferred }] id).grp.outst.filter (fun x => x.id != 7) = [] ∧
      (withOps [result { fault := some deferred }, ⟨8, 0, .wait, none⟩] id).grp.outst.filter (fun x => x.id != 7) ≠ [] ∧
      deferred.cause ≠ 0x0C) ∧
    (machine.grp.stopped = false ∧ machine.grp.inHandler = false ∧ (trapping machine).trapv (trapping machine).grp.bind ≠ 0 ∧
      machine.grp.barrier = none ∧ machine.grp.fpark = none ∧ (machine.die 0).halted = none ∧
      entryBad (trapping machine) 0 2 ((trapping machine).trapv (trapping machine).grp.bind) = false) := by
  and_intros
  all_goals first
    | decide
    | (apply names_of; decide)
    | (apply quiet_of <;> decide)

def memOp (m : MemOp) : Outst := ⟨7, 0x100000000000, .mem m, none⟩
def accesses (m : MemOp) (f : Args → Args := id) : State := withOps [memOp m] (fun a => f { a with idx := 7, lanes := 0xFFFFFFFF })
def dieLoad : MemOp := ⟨.load .i16 3, false, 5, [⟨0, 4, 32 * 4096 + 4, [], 0⟩, ⟨31, 4, 32 * 4096 + 4, [], 0⟩], []⟩
def dieStore : MemOp := ⟨.store 2, false, 5, [⟨0, 4, 32 * 4096 + 4, [1, 2], 0⟩, ⟨31, 5, 32 * 4096 + 5, [0, 9], 0⟩], []⟩

theorem witness_LoadsAndStores :
    (Names (accesses dieLoad) (accesses dieLoad).grp (memOp dieLoad) ∧ Quiet (accesses dieLoad).grp ∧
      readsFirst (accesses dieLoad).grp 7 dieLoad ∧ (accesses dieLoad).arg.lanes = 0xFFFFFFFF ∧ (accesses dieLoad).poison = [] ∧
      (∀ x ∈ dieLoad.lanes, x.lane < 32) ∧ dieLoad.lanes.Pairwise (fun x y => x.lane ≠ y.lane)) ∧
    (Names (accesses dieStore) (accesses dieStore).grp (memOp dieStore) ∧ Quiet (accesses dieStore).grp ∧
      readsFirst (accesses dieStore).grp 7 dieStore) ∧
    -- both bytes of lane 31's store stay, and the lower byte of lane 0's
    dieStore.lanes = [] ++ ⟨0, 4, 32 * 4096 + 4, [1, 2], 0⟩ :: [⟨31, 5, 32 * 4096 + 5, [0, 9], 0⟩] ∧
    (∀ y ∈ [(⟨31, 5, 32 * 4096 + 5, [0, 9], 0⟩ : LaneOp)], 32 * 4096 + 4 + 0 < y.addr ∨ y.addr + y.data.length ≤ 32 * 4096 + 4 + 0) := by
  and_intros
  all_goals first
    | decide
    | (apply names_of; decide)
    | (apply quiet_of <;> decide)

def dieAtomic : MemOp := ⟨.atom .cas .b32 none, false, 5, [⟨31, 4, 32 * 4096 + 4, [9, 0, 0, 0x80], 0⟩], []⟩
def publishing : State := withArg (fun a => { a with addr := 1024 })
  (withGroup (fun g => { g with pubs := [(1024, 3)] }) (machine.setCore 0 { machine.core 0 with dirty := [(32 * 4096 + 4, 9, 1), (32 * 4096 + 4, 8, 0)] }))

/-- Lanes 0 and 31 of an atomic on one word, of which lane 0 has performed; the group has stored to the word. -/
def twoAtomics : MemOp :=
  ⟨.atom .add .n32 (some 3), false, 5, [⟨0, 4, 32 * 4096 + 4, [1, 0, 0, 0], 0⟩, ⟨31, 4, 32 * 4096 + 4, [2, 0, 0, 0], 0⟩], [(0, 7)]⟩
def adding (poison : List Nat) (dirty : List (Nat × W8 × Nat)) : State :=
  withArg (fun a => { a with lanes := 31 })
    ((accesses twoAtomics).setCore 0 { machine.core 0 with dirty := dirty, snap := [] } |> fun s => { s with poison := poison })

theorem witness_MemoryPoints_lanes :
    (∀ s ∈ [adding [] [(32 * 4096 + 4, 9, 0), (32 * 4096 + 5, 8, 1)], adding [(32 * 4096 + 4) / 64] []],
      Names s s.grp (memOp twoAtomics) ∧ Quiet s.grp ∧ readsFirst s.grp 7 { twoAtomics with lanes := [⟨31, 4, 32 * 4096 + 4, [2, 0, 0, 0], 0⟩] } ∧
      s.arg.lanes.toNat = 31) ∧
    (⟨31, 4, 32 * 4096 + 4, [2, 0, 0, 0], 0⟩ : LaneOp) ∈ twoAtomics.lanes ∧
    twoAtomics.lanes.Pairwise (fun y z => y.lane ≠ z.lane) ∧ (∀ p ∈ twoAtomics.got, p.1 ≠ 31) ∧
    (∀ y ∈ twoAtomics.lanes, y.addr = 32 * 4096 + 4 → y.lane < 31 → ∃ p ∈ twoAtomics.got, p.1 = y.lane) ∧
    (∀ d ∈ ((adding [(32 * 4096 + 4) / 64] []).core 0).dirty, d.2.2 ≠ 0) ∧
    ((twoAtomics.lanes.filter fun y => !(twoAtomics.got.any fun p => p.1 == y.lane)).filter fun y =>
      (adding [(32 * 4096 + 4) / 64] []).poison.contains (y.addr / 64)) = [⟨31, 4, 32 * 4096 + 4, [2, 0, 0, 0], 0⟩] := by
  and_intros
  · intro s hs
    simp only [List.mem_cons, List.not_mem_nil, or_false] at hs
    obtain rfl | rfl := hs
    all_goals
      and_intros
      all_goals first
        | decide
        | (apply names_of; decide)
        | (apply quiet_of <;> decide)
  all_goals decide

/-- A load of which lane 31 reads poison, with another operation outstanding. -/
def poisonedLoad : State :=
  { accesses dieLoad with poison := [(32 * 4096 + 4) / 64] } |> withGroup fun g => { g with outst := [memOp dieLoad, ⟨8, 0, .wait, none⟩] }

theorem witness_LoadsAndStores_poison :
    Names poisonedLoad poisonedLoad.grp (memOp dieLoad) ∧ Quiet poisonedLoad.grp ∧ readsFirst poisonedLoad.grp 7 dieLoad ∧
    poisonedLoad.grp.outst.filter (fun y => y.id != 7) ≠ [] ∧ poisonedLoad.arg.lanes = 0xFFFFFFFF ∧
    (dirtyByte (poisonedLoad.core 0) 0 (32 * 4096 + 4)).isNone := by
  and_intros
  all_goals first
    | decide
    | (apply names_of; decide)
    | (apply quiet_of <;> decide)

theorem witness_MemoryPoints :
    (0 < 16 ∧ ∃ p ∈ (publishing.slot 0).pubs, p.1 = publishing.arg.addr) ∧ Quiet (publishing.slot 0) ∧
    (∀ i, i < 16 → i ≠ 0 → ∀ p ∈ (publishing.slot i).pubs, p.1 ≠ publishing.arg.addr) ∧ (publishing.die 0).dispatches = [] ∧
    ((32 * 4096 + 4) / 128 = publishing.arg.addr ∧
      (publishing.core 0).dirty = [(32 * 4096 + 4, 9, 1)] ++ (32 * 4096 + 4, 8, 0) :: []) ∧
    (Names (accesses dieAtomic) (accesses dieAtomic).grp (memOp dieAtomic) ∧ Quiet (accesses dieAtomic).grp ∧
      readsFirst (accesses dieAtomic).grp 7 dieAtomic ∧ (accesses dieAtomic).poison = [] ∧
      (accesses dieAtomic (fun a => { a with lanes := 31 })).arg.lanes.toNat = 31 ∧
      (∀ d ∈ ((accesses dieAtomic).core 0).dirty, d.1 / 128 ≠ (32 * 4096 + 4) / 128)) := by
  and_intros
  all_goals first
    | decide
    | (apply names_of; decide)
    | (apply quiet_of <;> decide)

def retiring (kind : TileKind) (s : State := machine) : State :=
  withArg (fun a => { a with idx := 7 }) ((withGroup (fun g => { g with board := [⟨7, 9, [2, 1], [2], true, kind⟩] }) s).setCore 0
    { s.core 0 with engine := [(0, 7), (1, 1)] })

theorem witness_TileRetirement :
    ∀ kind ∈ [TileKind.zero 2 0x80000001, .movVt ⟨⟨false, 0⟩, 3, 2, 31⟩ 0x80000001 (genVec fun l => BitVec.ofNat 32 l),
        .movTv ⟨⟨false, 0⟩, 3, 2, 31⟩ 0x80000001, .mma ⟨⟨false, 0⟩, .i8, .i8, false, false, 2, 1, 3, 2, 4⟩ 0xFF0000FF zeroVec zeroVec 0,
        .mma ⟨⟨false, 0⟩, .e4m3, .e5m2, true, true, 2, 1, 3, 2, 4⟩ 0xFF0000FF zeroVec zeroVec 0,
        .sparse ⟨⟨false, 0⟩, .e4m3, .e4m3, false, 2, 1, 3, 2, 4, 6⟩ 0xFF0000FF zeroVec zeroVec 1 0 5,
        .conv ⟨⟨false, 0⟩, .rn, true, 2, 1⟩ 0xFF0000FF, .draw ⟨⟨false, 0⟩, 2, 1, 3, 4, 6⟩ 0xFF0000FF zeroVec 1 0 5],
      (⟨7, 9, [2, 1], [2], true, kind⟩ : TileOp) ∈ (retiring kind).grp.board ∧ (retiring kind).arg.idx = 7 ∧
      ((retiring kind).core 0).engine = (0, 7) :: [(1, 1)] ∧ Quiet (retiring kind).grp ∧
      (∀ x ∈ (retiring kind).grp.outst, x.id = 7 → x.res = none) := by
  intro kind hk
  refine ⟨List.mem_singleton.2 rfl, rfl, rfl, ⟨rfl, rfl, rfl, ?_⟩, ?_⟩
  · intro o ho
    exact absurd ho List.not_mem_nil
  · intro o ho
    exact absurd ho List.not_mem_nil

def tileLoad : MemOp := ⟨.tload 2 128, false, 5, [⟨0, 0, 32 * 4096, [], 0⟩, ⟨31, 128, 32 * 4096 + 128, [], 0⟩], []⟩

theorem witness_TileRetirement_load :
    readsFirst (retiring (.load tileLoad)).grp 7 tileLoad ∧ (retiring (.load tileLoad)).poison = [] ∧ 128 ≤ 128 ∧
    (∀ x ∈ tileLoad.lanes, x.lane < 32) ∧ tileLoad.lanes.Pairwise (fun x y => x.lane ≠ y.lane) ∧
    (⟨7, 9, [2, 1], [2], true, .load tileLoad⟩ : TileOp) ∈ (retiring (.load tileLoad)).grp.board := by
  and_intros <;> decide

/-! ### Witnesses: the engines of a die -/

/-- A copy of one dimension: `n` elements of four bytes from `src` to `dst`. -/
def record (src dst n : Nat) (bad : Nat := 0) : List W8 :=
  leBytes 8 (2 ^ 60 + 2 ^ 56 + 2 * 2 ^ 54 + bad) ++ leBytes 8 src ++ leBytes 8 dst ++ leBytes 4 n ++ leBytes 4 1 ++ leBytes 4 1 ++
    List.replicate 156 0
def copyOf (r : List W8) : Copy := { id := 7, slot := 0, lead := 0, asid := 2, record := r, tl := 0, num := 6 }
def farObj : Obj := { state := .valid, kind := .far, r := true, w := true, bound := 65536, extbase := 0x1000 }
def copying (c : Copy) : State :=
  let s := withObj 11 farObj (withObj 12 { farObj with kind := .host })
  withArg (fun a => { a with idx := 7 }) ((s.setBlock 0 { s.block 0 with tl := [(0, 0x0005820000000005)] }).setDie 0
    { s.die 0 with copies := [c] })
def twoWords : Copy := copyOf (record 0x500000000000 0x500000000800 2)
def started (c : Copy) : Copy := { c with started := true }

/-- The copy's counter: VAL 5, two pending. -/
def copyCounter (c : Copy) : W64 := tget ((copying c).block 0).tl 0 0

theorem witness_CopyEngine :
    (twoWords ∈ ((copying twoWords).die 0).copies ∧ (copying twoWords).arg.idx = 7 ∧
      (∀ x ∈ ((copying twoWords).die 0).copies, x.id = 7 → x = twoWords)) ∧
    (inEngine ((copying twoWords).die 0) 7 ∧ publishDone ((copying twoWords).slot 0) 0) ∧
    (recBad (record 0x500000000000 0x500000000800 2 1) ∧ recBad twoWords.record = false ∧ recCount twoWords.record = 2 ∧
      recCount (record 0x500000000000 0x500000000800 0) = 0) ∧
    sideFault (copying (copyOf (record 0x900000000000 0x500000000800 2))) (copyOf (record 0x900000000000 0x500000000800 2)) 0 true =
      some 0x20 ∧
    ((started twoWords).done < recCount (started twoWords).record * recB (started twoWords).record) ∧
    (∀ i, i < 8 → placeAt (copying (started twoWords)) (started twoWords) 0 true ((chunkBytes (started twoWords)).getD i (0, 0)).1 =
        .ok (.mem (32 * 4096 + i)) ∧
      placeAt (copying (started twoWords)) (started twoWords) 0 false ((chunkBytes (started twoWords)).getD i (0, 0)).2 =
        .ok (.mem (32 * 4096 + 0x800 + i))) ∧
    (∀ i j, i < 8 → j < 8 → 32 * 4096 + 0x800 + i = 32 * 4096 + 0x800 + j → i = j) ∧ (copying twoWords).poison = [] ∧
    ((6 : BitVec 40).toNat = (bitsOf (copyCounter twoWords).toNat 39 0 + 1) % 2 ^ 40 ∧ 1 ≤ bitsOf (copyCounter twoWords).toNat 46 40 ∧
      ((copying twoWords).block 0).fin = []) := by
  and_intros
  all_goals first
    | decide +kernel
    | (intro i j _ _ h; omega)

def waitsForPage : Copy := { copyOf (record 0xC00000000000 0x500000000800 2) with started := true, prq := true, stop := .page }
def readsFar : Copy := started (copyOf (record 0xB00000000000 0x500000000800 2))

theorem witness_HostAndFarTier :
    (∀ x ∈ ((copying twoWords).die 0).copies, x.id = (copying twoWords).arg.idx → x.prq = false ∨ x.resp.isSome) ∧
    (waitsForPage ∈ ((copying waitsForPage).die 0).copies ∧ waitsForPage.prq = true ∧ waitsForPage.resp = none ∧
      waitsForPage.stop ≠ .saved ∧
      (∀ e, e < 8 → ∀ x ∈ ((copying waitsForPage).die e).copies, x.resp.isSome → x.stop = .saved)) ∧
    (readsFar ∈ ((copying readsFar).die 0).copies ∧ copyPort (copying readsFar) readsFar = some 0 ∧ readsFar.stop = .none ∧
      readsFar.stat = 0 ∧ readsFar.done < recCount readsFar.record * recB readsFar.record) ∧
    ((withArg (fun a => { a with port := 5 })).arg.port.toNat < 6 ∧ (∀ e, e < 8 → (machine.die e).fetches = []) ∧ machine.farUp.length = 6) := by
  and_intros <;> decide +kernel

def claimOp : Outst := ⟨7, 0x100000000000, .claim 3 0x500000000000 8192, none⟩
def claimReq (dest : Nat) : ClaimReq := { slot := 0, op := 7, asid := 2, obj := 5, lo := 0, hi := 8192, dest := dest, lanes := 0xFFFFFFFF }
def claimed (dest : Nat) (s : State := machine) : State :=
  (withGroup (fun g => { g with outst := [claimOp] }) s).setDie 0 { s.die 0 with claims := [claimReq dest] }
def holdsPool (s : State) : State :=
  { s with pools := [((0 * 64 + 3) * 16 + 2, { asid := 2, base := 0x500000000000, fsize := 1, nf := 2, free := [0, 1] })] }
def parked : State := (withGroup (fun g => { g with fpark := some ⟨none, 70, false, 5, 8191⟩ })).setDie 0
  { machine.die 0 with faults := [{ id := 70, slot := some 0, asid := 2, obj := 5, off := 8191 }] }

theorem witness_ShootdownsAndClaims :
    accessing machine 2 5 = false ∧
    (({ machine with qtt := [(2 * 65536 + 3, { left := 0x80 })] }.qtte 2 3).left.getLsbD 7 ∧ unissued machine 7 2 3 = false) ∧
    ((parked.die 0).faults ≠ [] ∧ unresolvable parked { id := 70, slot := some 0, asid := 2, obj := 5, off := 8191 } = false ∧
      (parked.slot 0).fpark = some ⟨none, 70, false, 5, 8191⟩ ∧ (parked.slot 0).stopped = false ∧
      (∀ x, extentAt (parked.obj 2 5) 8191 = some x → x.p = true)) ∧
    (((claimed 0).die 0).claims ≠ [] ∧ (claimReq 0).step = .wait ∧ claimStuck (claimed 0) 0 (claimReq 0) = false ∧
      claimFault ((claimed 0).obj 2 5) 5 0 = none ∧ claimOp ∈ ((claimed 0).slot 0).outst ∧
      (∀ y ∈ ((claimed 0).slot 0).outst, y.id = 7 → y = claimOp)) ∧
    (((claimed 0).obj 2 5).kind = .die ∧ ((claimed 0).obj 2 5).home = 0 ∧ 0 ≠ (claimReq 1).dest) ∧
    (objBusy (holdsPool (claimed 1)) 2 5 ∧ objBusy (claimed 1) 2 5 = false) ∧
    freePages { machine.die 1 with free := [(0, 1)] } < 8192 / 4096 - 0 / 4096 := by
  and_intros
  all_goals first
    | decide +kernel
    | (intro x hx; cases hx; rfl)

/-- The object moves to die 1, which has room for its two pages; or it lies in the far tier. -/
def moves (s : State := machine) : State :=
  (claimed 1 (s.setDie 1 { s.die 1 with free := [(40, 1), (60, 5)] })).setDie 0 { machine.die 0 with claims := [{ claimReq 1 with step := .moving }] }

theorem witness_ShootdownsAndClaims_moves :
    8192 / 4096 - 0 / 4096 ≤ freePages ((moves).die 1) ∧ ((moves).die 0).claims = [{ claimReq 1 with step := .moving }] ∧
    accessing moves 2 5 = false ∧ claimOp ∈ ((moves).slot 0).outst ∧ (∀ y ∈ ((moves).slot 0).outst, y.id = 7 → y = claimOp) ∧
    dieOnline moves 1 ∧ dieOnline { moves with mgmt := { moves.mgmt with online := 1 } } 1 = false ∧
    (((moves).die 1).free.flatMap fun y => (List.range y.2).map fun i => y.1 + i) = [40, 60, 61, 62, 63, 64] ∧
    [40, 60, 61, 62, 63, 64].Nodup ∧ (∀ y ∈ [40, 60, 61, 62, 63, 64], y < 2 ^ 28) ∧
    8192 / 4096 ≤ (((moves).obj 2 5).bound + 4095) / 4096 ∧
    (((moves).obj 2 5).kind = .die ∧ ((moves).obj 2 5).home ≠ 1 ∧
      ∀ y ∈ ((moves).obj 2 5).exts, y.p → y.pfn + (y.ngm1 + 1) * y.gran ≤ 2 ^ 28) := by
  and_intros <;> decide +kernel

/-- A group of die 1 sleeps on a queue of die 0. -/
def lateSleeper : Sleeper := { entry := 3, queue := 40, who := .group 9 5, flow := ⟨machine.pkgid, 1, machine.pkgid, 0⟩, kind := .dequeue, all := false }
def sleepsAtDie0 : State := (machine.setPort 1 { machine.port 1 with sleepers := [lateSleeper] }).setQueue (queueKey 0 1 40) { state := .active }

theorem witness_ErrorsFusesAndOfflineDies_sleeper :
    (sleepsAtDie0.graphs = [] ∧ lateSleeper ∈ (sleepsAtDie0.port (portKey 0 1)).sleepers ∧ asleepOn 40 lateSleeper ∧
      (sleepsAtDie0.qref ⟨0, 1, 40⟩).state ≠ .free ∧ (∀ y ∈ (sleepsAtDie0.port (portKey 0 1)).sleepers, y = lateSleeper) ∧
      (sleepsAtDie0.die 0).saved = [] ∧ (sleepsAtDie0.qref ⟨0, 1, 40⟩).slots = []) ∧
    (∀ j, (sleepsAtDie0.slot j).ctx ≠ 9) ∧ ∀ i y, y ∈ (sleepsAtDie0.port (portKey 0 i)).sleepers → y.flow.ddie = 0 := by
  refine ⟨by decide +kernel, fun j => ?_, fun i => ?_⟩
  · exact tget_all (P := fun g : Slot => g.ctx ≠ 9) (t := sleepsAtDie0.slots) (by decide +kernel) (by decide +kernel) j
  · exact tget_all (P := fun x : Port => ∀ y, y ∈ x.sleepers → y.flow.ddie = 0) (by decide +kernel) (by decide +kernel) (portKey 0 i)

def offline (b : W8) (s : State := { machine with slots := [] }) : State := { s with mgmt := { s.mgmt with online := b } }
def commands (arg : W64) (d : Option Nat := none) : State :=
  { machine with slots := [], mgmt := { machine.mgmt with mbcmd := 7, mbstat := .busy, mbarg := arg, dieoff := d } }

theorem witness_ErrorsFusesAndOfflineDies :
    ((2 ^ 37 - 1 : Nat) < 2 ^ 37 ∧ (machine.die 7).fetches = []) ∧
    ((machine.slot (slotKey 7 159 15)).bind.sstate = .empty) ∧
    (39 < 40 ∧ (∀ i, i < 4 → ((List.range 4).foldl (fun s i => s.setCore (coreKey 0 (156 + i)) { s.core 0 with awake := true }) machine).core
      (coreKey 0 (4 * 39 + i)) = { machine.core 0 with awake := true } ∧ coreIdle machine (coreKey 0 (4 * 39 + i)))) ∧
    (socketDie 8 = some 0 ∧ 8 ∉ machine.mgmt.failed ∧ machine.mgmt.online.getLsbD 0 ∧ (machine.slot 0).bind.sstate = .running) ∧
    ((machine.block (leadOf 0 (machine.slot 0))).dead = false ∧ machine.graphs = [] ∧ (machine.die 0).bound = [] ∧ heldLine stored 0 1024) ∧
    ((commands 7).mgmt.mbarg = BitVec.ofNat 64 7 ∧ (commands 7).mgmt.online.getLsbD 7 ∧ 8 ≤ (commands 8).mgmt.mbarg.toNat) ∧
    (∀ p ∈ (commands 7 (some 7)).objs, ¬ (p.2.kind = .die ∧ p.2.home = 7 ∧ (p.2.state = .valid ∨ p.2.state = .moving))) ∧
    ((offline 0xFE).mgmt.online.getLsbD 0 = false ∧
      (∃ p ∈ (offline 0xFE).objs, p.2.kind = .die ∧ p.2.home = 0 ∧ (p.2.state = .valid ∨ p.2.state = .moving)) ∧
      ((offline 0xFE).objs.map (·.1)).Nodup ∧ (∀ p ∈ (offline 0xFE).objs, p.1 < 2 ^ 32)) := by
  and_intros <;> decide +kernel

/-! ### Witnesses: queues at their homes -/

def toHome : Flow := ⟨0, 1, 0, 0⟩
/-- A request to queue 40 of port 1 of die 0. -/
def request (ty : MsgType) : Msg := { flow := toHome, typ := ty, port := 1, queue := 40, fseq := 9, ctx := .group 77 5, esz := some 0, data := List.replicate 16 7 }
/-- An Active plain queue with a window of four, two more slots spilled, and three slots in use from 10 on. -/
def plainQueue : Queue := { state := .active, winM1 := 3, spillN := 2, head := 10, tail := 13, slots := [(10, .filled (List.replicate 16 7)), (11, .granted (.group 4 4)), (12, .void)] }
def mergeQueue : Queue := { state := .active, kind := 1, keysM1 := 1, fanin := 3, round := 1, winM1 := 3 }
def homed (q : Queue) (m : Msg) (ss : List Sleeper := []) : State :=
  let s := withArg (fun a => { a with flow := toHome, port := 1, idx := 40 }) { machine with queues := [(queueKey 0 1 40, q)] }
  let s := s.setPort (portKey 0 1) { s.port (portKey 0 1) with sleepers := ss, queue := 40, result := .busy }
  s.setFlow toHome { s.flow toHome with arrived := [m] }
def sleeper (k : Nat) (kind : SleepKind) : Sleeper := ⟨k, 40, .group 5 7, toHome, kind, false, none⟩

theorem arrives_of {s : State} {m : Msg} {ty : MsgType} (h : (s.arg.flow.dpkg = s.pkgid ∧ s.arg.flow.spkg = s.pkgid) ∧
    (s.flow s.arg.flow).arrived.head? = some m ∧ m.flow = s.arg.flow ∧ m.typ = ty ∧ homeFault s (reqRef m) = none) : Arrives s m ty :=
  ⟨h.1, h.2.1, h.2.2.1, h.2.2.2.1, h.2.2.2.2⟩

theorem witness_QueueFills :
    (Arrives (homed plainQueue (request .reserve)) (request .reserve) .reserve ∧ Arrives (homed plainQueue (request .push)) (request .push) .push ∧
      Arrives (homed plainQueue (request .write)) (request .write) .write) ∧
    (∀ ty ∈ [MsgType.reserve, .push, .write], (homed plainQueue (request ty)).qref (reqRef (request ty)) = plainQueue ∧
      claimable (homed plainQueue (request ty)) (reqRef (request ty)) (request ty) true = none) ∧
    (plainQueue.kind = 0 ∧ (plainQueue.tail - plainQueue.head).toNat = 3 ∧ plainQueue.winM1 + 1 + plainQueue.spillN = 6) ∧
    -- three slots are free: a reservation of 3 fits, one of 4 waits, one of 7 can never fit
    (3 ≤ 6 - 3 ∧ 6 - 3 < 4 ∧ 4 ≤ 6 ∧ 6 < 7) ∧
    (∀ e ∈ [sleeper 3 .dequeue], e.queue = 40 → e.woken = none → isReserver e.kind = false) ∧
    isReserver (sleeper 3 (.reserve 4)).kind = true ∧
    freeEntry ((homed plainQueue (request .reserve) [sleeper 0 .dequeue]).port (portKey 0 1)) = some 1 ∧
    freeEntry { sleepers := List.replicate 4096 (sleeper 0 .dequeue) } = none ∧
    (request .push).data.length = 16 * 2 ^ plainQueue.esize.toNat ∧
    (plainQueue.slot 10 = .filled (request .write).data ∧ plainQueue.slot 11 = .granted (.group 4 4) ∧ plainQueue.slot 12 = .void) ∧
    -- 12 is in use, 13 lies beyond T, 9 below H
    ((12 - plainQueue.head).toNat < 3 ∧ 3 ≤ (13 - plainQueue.head).toNat ∧ (13 - plainQueue.head).toNat < 2 ^ 47 ∧
      2 ^ 47 ≤ (9 - plainQueue.head).toNat) := by
  and_intros
  all_goals first
    | (apply arrives_of; decide)
    | decide +kernel

theorem witness_QueueTakes :
    (Arrives (homed plainQueue (request .dequeue)) (request .dequeue) .dequeue ∧ Arrives (homed plainQueue (request .sleep)) (request .sleep) .sleep) ∧
    (claimable (homed plainQueue (request .dequeue)) (reqRef (request .dequeue)) (request .dequeue) false = none ∧
      (request .dequeue).esz = some plainQueue.esize) ∧
    ((plainQueue.tail - plainQueue.head).toNat ≠ 0 ∧ ({ plainQueue with head := 13 }.tail - (13 : BitVec 48)).toNat = 0) ∧
    -- H at 10, at 12 and at 11
    (plainQueue.slot 10 = .filled (List.replicate 16 7) ∧ plainQueue.slot 12 = .void ∧ plainQueue.slot 11 = .granted (.group 4 4)) ∧
    freeEntry ((homed plainQueue (request .sleep)).port (portKey 0 1)) = some 0 ∧
    -- one slot from H is ready, and the second is not
    (1 ≤ 3 ∧ (∀ i, i < 1 → (plainQueue.slot (plainQueue.head + BitVec.ofNat 48 i)).ready) ∧
      (1 < 3 → (plainQueue.slot (plainQueue.head + BitVec.ofNat 48 1)).ready = false)) ∧
    (plainQueue.slot plainQueue.head).ready ∧ ([sleeper 0 .dequeue, sleeper 4 (.reserve 2)].map (·.entry)).Nodup ∧
    ((sleeper 4 (.reserve 2)).flow = toHome ∧ isReserver (sleeper 4 (.reserve 2)).kind ∧ (sleeper 4 (.reserve 2)).woken = none) := by
  and_intros
  all_goals first
    | (apply arrives_of; decide)
    | decide +kernel

def mergeOf (ty : MsgType) (k : W8) : Msg := { request ty with mrg := true, key := k, parts := [(k, List.replicate 16 7)] }

theorem witness_ReleasesAndRounds :
    Arrives (homed plainQueue (request .release)) (request .release) .release ∧ (request .release).mrg = false ∧
    Arrives (homed mergeQueue (mergeOf .release 1)) (mergeOf .release 1) .release ∧ Arrives (homed mergeQueue (mergeOf .merge 1)) (mergeOf .merge 1) .merge ∧
    (mergeQueue.kind ≠ 0 ∧ mergeQueue.heldRel = [] ∧ mergeQueue.refused = [] ∧ mergeQueue.round + 1 < mergeQueue.fanin) ∧
    -- the last key, and the first beyond it
    ((1 : W8).toNat ≤ mergeQueue.keysM1.toNat ∧ mergeQueue.keysM1.toNat < (2 : W8).toNat ∧ (mergeOf .merge 1).data.length = 16) ∧
    ((homed { mergeQueue with round := 3 } (request .merge)).qref ⟨0, 1, 40⟩ = { mergeQueue with round := 3 } ∧ mergeQueue.fanin ≤ 3 ∧
      mergeQueue.keysM1.toNat + 1 ≤ mergeQueue.winM1 + 1 + mergeQueue.spillN - (mergeQueue.tail - mergeQueue.head).toNat) := by
  and_intros
  all_goals first
    | (apply arrives_of; decide)
    | decide

/-- The release that closes the round, with room for the K elements and without, and one that arrives while the closure waits. -/
theorem witness_ReleasesAndRounds_last :
    (∀ q ∈ [{ mergeQueue with round := mergeQueue.fanin - 1 }, { mergeQueue with round := mergeQueue.fanin - 1, winM1 := 0, spillN := 0 },
        { mergeQueue with round := mergeQueue.fanin }],
      Arrives (homed q (mergeOf .release 1)) (mergeOf .release 1) .release ∧ (mergeOf .release 1).mrg = true ∧
      (homed q (mergeOf .release 1)).qref (reqRef (mergeOf .release 1)) = q ∧ q.kind ≠ 0 ∧ q.state = .active ∧ q.refused = [] ∧
      q.heldRel = [] ∧ q.fanin ≠ 0) ∧
    mergeQueue.fanin - 1 + 1 = mergeQueue.fanin ∧ mergeQueue.fanin ≤ mergeQueue.fanin ∧
    1 - (mergeQueue.tail - mergeQueue.head).toNat < mergeQueue.keysM1.toNat + 1 := by
  and_intros
  · intro q hq
    simp only [List.mem_cons, List.not_mem_nil, or_false] at hq
    obtain rfl | rfl | rfl := hq
    all_goals
      and_intros
      all_goals first
        | (apply arrives_of; decide)
        | decide
  all_goals decide

theorem witness_QueueLifecycle :
    ((homed {} (request .push)).port (portKey 0 1)).result = .busy ∧ ((homed {} (request .push)).port (portKey 0 1)).queue.toNat < 4096 ∧
    4096 ≤ (4096 : W16).toNat ∧ descBad (homed {} (request .push)) ⟨0, 1, 40⟩ {} = false ∧ descBad (homed {} (request .push)) ⟨0, 1, 40⟩ { esize := 5 } ∧
    (homed {} (request .push)).mgmt.online.getLsbD 0 = true ∧
    -- the last window that fits, and one that does not
    (8191 + (((({ winM1 := 15, winOff := 8191 } : Queue).winM1 + 1) * (16 * 2 ^ 0)) + 255) / 256 ≤ 8192 ∧
      8192 < 8191 + (((({ winM1 := 16, winOff := 8191 } : Queue).winM1 + 1) * (16 * 2 ^ 0)) + 255) / 256) ∧
    (plainQueue.state = .active ∧ plainQueue.heldRel = []) ∧ ({ plainQueue with state := .closing, head := 13 }.tail = 13) ∧
    ([sleeper 0 .dequeue, sleeper 4 (.reserve 2)].map (·.entry)).Nodup := by decide

def asked : QOp := { kind := .get, pqid := 0x00010028, handle := 0x70001, d := 11, v := 3, st := .sent toHome }
def askedOp (q : QOp) : Outst := ⟨9, 0x100000000000, .queue q, none⟩
def backHome : Flow := revFlow toHome
def answer (ty : MsgType) (code : W8) : Msg := { flow := backHome, typ := ty, port := 1, queue := 40, code := code, seq := 0x1005, ctx := .group 77 9 }
def answered (q : QOp) (m : Msg) : State :=
  let s := withGroup fun g => { g with ctx := 77, outst := [askedOp q] }
  let s := withArg (fun a => { a with flow := backHome }) s
  s.setFlow backHome { s.flow backHome with arrived := [m] }

theorem witness_QueueAnswers :
    (backHome.dpkg = machine.pkgid ∧ backHome.spkg = machine.pkgid ∧
      ((answered asked (answer .reply 0)).flow backHome).arrived.head? = some (answer .reply 0) ∧ (answer .reply 0).ctx = .group 77 9 ∧
      findOp (answered asked (answer .reply 0)) 77 9 = some (0, askedOp asked, asked) ∧ Quiet ((answered asked (answer .reply 0)).slot 0) ∧
      askedOp asked ∈ ((answered asked (answer .reply 0)).slot 0).outst ∧
      (∀ x ∈ ((answered asked (answer .reply 0)).slot 0).outst, x.id = 9 → x = askedOp asked)) ∧
    ((0x0F : W8).toNat < 0x10 ∧ 0x10 ≤ (0x10 : W8).toNat ∧ (0x10 : W8) ≠ 0x3F ∧ (0x10 : W8) ≠ 0x3E) ∧
    -- an element of 128 bytes fills one register, one of 256 bytes two
    (¬ 128 < 16 * 2 ^ (3 : W4).toNat ∧ 128 < 16 * 2 ^ (4 : W4).toNat) ∧
    ((answered asked (answer .reply 0)).flow (revFlow backHome)).refusedMerge = [] ∧ ((answered asked (answer .wake 0)).die 0).halted = none ∧
    ((answered asked (answer .wake 0)).slot 0).sleepStop = false ∧ ((answered asked (answer .wake 0)).slot 0).fence = none ∧
    pqPkg asked.pqid = (answered asked (answer .wake 0)).pkgid ∧
    (((answered { asked with st := .parked 0 } (answer .wake 0)).slot 0).outst = [askedOp { asked with st := .parked 0 }] ∧
      0 ≤ ((answered asked (answer .wake 0)).die 0).clock.toNat ∧ ((answered asked (answer .wake 0)).die 0).dispatches = []) := by
  and_intros
  all_goals first
    | decide
    | (apply quiet_of <;> decide)

/-! ### Witnesses: the Nymold fabric -/

def linkIn (st : LinkState) : Link := { state := st, rx0 := ⟨some 5, 7⟩, rx1 := ⟨some 6, 3⟩, tx0 := ⟨some 5, 9⟩, tx1 := ⟨some 4, 4⟩ }
/-- The module with PKGID 0, link 3 as given, and link 5 up. -/
def linked (x : Link) (f : Args → Args := id) (t : Nat := 1000000000) : State :=
  withArg (fun a => f { a with link := 3, pkg := 9 }) { machine with links := [(3, x), (5, linkIn .up)], time := t, fabric := { machine.fabric with enable := true, pkgid := some 0, noPath := [] } }
def inFlow : Flow := ⟨9, 0, 0, 1⟩
def outFlow : Flow := ⟨0, 1, 9, 0⟩
def sentMsg (ty : MsgType) (f : Flow) (q : W16) : Msg := { flow := f, typ := ty, port := 1, queue := 40, fseq := q, esz := if ty = .push then some 0 else none, data := if ty = .push then List.replicate 16 7 else [], ctx := .group 77 5 }
def flows (f : Flow) (x : FlowState) (y : FlowState := {}) (s : State := linked (linkIn .up)) : State :=
  withArg (fun a => { a with flow := f, die := 1 }) ((s.setFlow (revFlow f) y).setFlow f x)

theorem witness_LinksAndKeys :
    ((linked (linkIn .training)).arg.flag = false ∧ (linked (linkIn .training)).fabric.enable = true ∧ (linkIn .training).disable = false ∧
      (linkIn .training).exhausted = false) ∧
    ((linked (linkIn .training)).fabric.pkgid = some 0 ∧ (linked (linkIn .training) fun a => { a with pkg := 0 }).arg.pkg = 0 ∧
      (linked (linkIn .training)).arg.pkg ≠ 0) ∧
    ((linked (linkIn .up)).link 3).state = .up ∧
    16 ≤ ((List.replicate 16 999000001).filter fun n => decide ((linked (linkIn .up)).time < n + 1000000)).length ∧
    ¬ 16 ≤ ((List.replicate 16 999000000).filter fun n => decide ((linked (linkIn .up)).time < n + 1000000)).length ∧
    2 ^ 48 ≤ { linkIn .up with tx0 := ⟨some 5, 2 ^ 48⟩ }.tx0.ctr ∧ (linkIn .up).txKey = false ∧
    ((linked (linkIn .up) fun a => { a with flag := true }).arg.flag = true ∧ (3, 9) ∉ (linked (linkIn .up)).fabric.badPaths) ∧
    -- a message on link 3 has link 5 to go to, and to package 9 once the path of link 3 to it has failed
    ((⟨sentMsg .push outFlow 4, 3, 0, 0⟩ : Unacked) ∈ ((flows outFlow { unacked := [⟨sentMsg .push outFlow 4, 3, 0, 0⟩] }).flow outFlow).unacked ∧
      upLinks (linked (linkIn .down)) 9 = [5] ∧
      upLinks { linked (linkIn .up) with fabric := { (linked (linkIn .up)).fabric with badPaths := [(3, 9)] } } 9 = [5]) ∧
    ((linked (linkIn .up) fun a => { a with v := 0x200 }).arg.v.getLsbD 9 = true ∧ (linked (linkIn .up)).arg.v.getLsbD 9 = false) ∧
    (if (linkIn .up).txKey then (linkIn .up).tx0 else (linkIn .up).tx1).key.isSome ∧
    (let x := { linkIn .up with rxNew := some true, rxRun := (true, 1024), txNew := some false, txRun := 1024 };
      (x.rxNew = some x.rxRun.1 ∧ 1024 ≤ x.rxRun.2) ∧ (x.txNew = some x.txKey ∧ 1024 ≤ x.txRun)) := by
  and_intros <;> decide +kernel

def pushCell (q : W16) : Cell := cellOf (sentMsg .push inFlow q) 0
/-- Type 13 is reserved. -/
def badCell : Cell := { pushCell 0 with hdr := (pushCell 0).hdr ||| 13#128 <<< 74 }
def frameOf (cs : List Cell) (ctr : Nat := 7) : LFrame := sealFrame false 5 (nonceOf (linkId 0 3 true) ctr) cs
/-- The slots, the nonce and the bytes in clear that frames on link 3 must have. -/
def authentic (fr : LFrame) : Prop := (linkIn .up).rx0.key = some fr.key ∧ fr.slot = false ∧
  fr.nonce = nonceOf (linkId (linked (linkIn .up)).pkgid 3 true) (linkIn .up).rx0.ctr ∧ fr.aad = aadOf fr.cells ∧
  ∀ c ∈ fr.cells, c.hdr.getLsbD 7 = fr.slot

theorem witness_CellsAndFrames :
    (upLinks (linked (linkIn .up)) 9 = [3, 5] ∧ ((linked (linkIn .up)).link 3).tx.length = ((linked (linkIn .up)).link 5).tx.length ∧
      (sentMsg .push outFlow 4).typ ≠ .flush ∧ resetting (linked (linkIn .up)) (sentMsg .push outFlow 4) = false ∧
      (0 : Int) ≤ min 16384 ((-5 : Int) + ((1000000000 - 999999900) * 512 * 25 : Nat))) ∧
    ((0 : Nat) + 10000 ≤ (linked (linkIn .up)).time) ∧
    (∀ e ∈ [(0 : Nat), 10001], ¬ (0 < e ∧ e ≤ 0 + 10000)) ∧ (∃ e ∈ [(10000 : Nat)], 0 < e ∧ e ≤ 0 + 10000) ∧
    (malformed badCell ∧ malformed (pushCell 6) = false) ∧
    (∃ m, msgOf [pushCell 6] = some m ∧ accessPasses (linked (linkIn .up)) 3 m = false ∧
      accessPasses (linked { linkIn .up with access := [(1023, 0x81201102802803C0)] }) 3 m ∧ m.flow = inFlow ∧ m.typ = .push) ∧
    (authentic (frameOf []) ∧ authentic (frameOf [badCell]) ∧ authentic (frameOf [pushCell 0]) ∧ ¬ authentic (frameOf [] 8)) ∧
    (∀ c ∈ (frameOf []).cells, c.type = 15 ∧ malformed c = false) ∧
    (∃ c cs, (frameOf [badCell]).cells = c :: cs ∧ malformed c ∧ ∀ d ∈ cs, d.type = 15 ∧ malformed d = false) ∧
    (∃ c cs m, (frameOf [pushCell 0]).cells = c :: cs ∧ malformed c = false ∧ (∀ d ∈ cs, d.type = 15 ∧ malformed d = false) ∧
      msgOf [c] = some m ∧ c.flow.dpkg = (linked (linkIn .up)).pkgid ∧ numbered m.typ ∧ ¬ (m.typ = .reply ∧ m.code = 0x18) ∧
      c.fseq = ((linked (linkIn .up)).flow inFlow).expect ∧ c.clast = 0) ∧
    (reorderLoad (linked (linkIn .up)) 1 < 16384 ∧ ((linked (linkIn .up)).flow inFlow).gathered = [] ∧
      ((linked (linkIn .up)).flow inFlow).reorder = [] ∧ ((linked (linkIn .up)).flow inFlow).toAck < 63) ∧
    seqLe ((linked (linkIn .up)).flow inFlow).expect 0xFFFF = false := by
  unfold authentic
  refine ⟨by decide +kernel, by decide, by decide, by decide, by decide +kernel, ⟨_, rfl, by decide +kernel, by decide +kernel, rfl, rfl⟩,
    by and_intros <;> decide +kernel, by decide +kernel, ⟨_, _, rfl, by decide +kernel, by decide +kernel⟩,
    ⟨_, _, _, rfl, by decide +kernel, by decide +kernel, rfl, by decide +kernel, by decide +kernel, by decide +kernel, by decide +kernel,
      by decide +kernel⟩, by decide +kernel, by decide⟩

def ownFlow : Flow := ⟨0, 0, 0, 1⟩
def flushAnswer : Msg := { sentMsg .flushAck ownFlow 3 with num := 8 }
def flushed : State :=
  (flows ownFlow { arrived := [flushAnswer] } { flushes := [⟨8, 3, 0, [], 1, false⟩] }).setSlot 2560 { group with fence := some ⟨5, 1, [(⟨0, 1, 0, 0⟩, 8)]⟩ }

theorem tget_all {α : Type} (P : Nat → α → Prop) (z : α) : ∀ t : Tbl α, (∀ p ∈ t, P p.1 p.2) → (∀ i, P i z) → ∀ i, P i (tget t i z) := by
  intro t h hz i
  induction t with
  | nil => exact hz i
  | cons p r ih =>
    obtain ⟨k, x⟩ := p
    by_cases he : k = i
    · subst he
      simpa [tget] using h (k, x) List.mem_cons_self
    · simpa [tget, he] using ih fun q hq => h q (List.mem_cons_of_mem _ hq)

theorem flushed_alone : ∀ i, i ≠ 2560 → (flushed.slot i).fence = none :=
  tget_all (fun i (g : Slot) => i ≠ 2560 → g.fence = none) {} flushed.slots (by decide +kernel) fun _ _ => rfl

def marker (fs : W16) : Msg := { sentMsg .flush inFlow fs with num := 8, n := 1 }
def resetMsg (n : Nat) : Msg := { sentMsg .flowReset inFlow 0 with n := n }

/-- Package 9 has had no path for UNREACH ms; the group of slot 2560, on die 1, as given, and what the flow to the package waits for. -/
def cutOff (g : Slot → Slot) (ans : List Asked) (halt : Option W6 := none) : State :=
  let s := flows outFlow { unacked := [⟨sentMsg .push outFlow 3, 3, 999900000, 90⟩], answers := ans }
  let s := s.setDie 1 { s.die 1 with halted := halt }
  { s with slots := [(2560, g { machine.grp with ctx := 77, dfault := none, outst := [] })], fabric := { s.fabric with noPath := [(512, 100)] } }
def toLost (st : QState) : Outst := askedOp { asked with st := st, pqid := 0x04810028 }

theorem witness_AcksAndUnreachablePackages_lost :
    (∀ s ∈ [cutOff (fun g => { g with outst := [toLost (.sent outFlow)] }) [{ fseq := 3, who := .group 77 9, typ := .push }],
        cutOff (fun g => { g with outst := [toLost (.asleep outFlow 1 4)] }) [], cutOff (fun g => { g with outst := [toLost (.asleep outFlow 1 4)] }) [] (some 3),
        cutOff (fun g => { g with fence := some ⟨5, 1, [(outFlow, 8)]⟩ }) []],
      unreachDue s 1 9 ∧ s.graphs = [] ∧ (s.limiter (limKey 1 9)).unreachable = false ∧ s.arg.pkg = 9 ∧ s.arg.die = 1 ∧ (9 : BitVec 9) ≠ s.pkgid ∧
      (ownFlows s).filter (fun z => z.sdie.toNat == 1 && z.dpkg == 9) = [outFlow] ∧ (s.flow outFlow).held = [] ∧ (s.die 1).dispatches = [] ∧
      Quiet (s.slot 2560) ∧ slotDie 2560 = 1 ∧ s.slots.map (·.1) = [2560] ∧ (s.slot 2560).sleepStop = false) ∧
    findOp (cutOff (fun g => { g with outst := [toLost (.sent outFlow)] }) []) 77 9 =
      some (2560, toLost (.sent outFlow), { asked with st := .sent outFlow, pqid := 0x04810028 }) := by
  and_intros
  · intro s hs
    simp only [List.mem_cons, List.not_mem_nil, or_false] at hs
    obtain rfl | rfl | rfl | rfl := hs
    all_goals
      and_intros
      all_goals first
        | decide +kernel
        | (apply quiet_of <;> decide +kernel)
  all_goals decide +kernel

theorem witness_AcksAndUnreachablePackages :
    (inFlow.dpkg = (linked (linkIn .up)).pkgid ∧ inFlow.spkg ≠ (linked (linkIn .up)).pkgid) ∧
    ((flows inFlow { ackSince := some 7 }).flow inFlow).ackSince.isSome ∧
    (((flows inFlow { arrived := [sentMsg .push inFlow 8, sentMsg .ack inFlow 9] }).flow inFlow).arrived.find? (fun y => y.typ == .ack) =
      some (sentMsg .ack inFlow 9) ∧ (sentMsg .ack inFlow 9).echo = false ∧ ((flows inFlow {}).flow outFlow).held = []) ∧
    (((flows outFlow { unacked := [⟨sentMsg .push outFlow 3, 3, 999900000, 90⟩] }).flow outFlow).unacked = [⟨sentMsg .push outFlow 3, 3, 999900000, 90⟩] ∧
      ((flows outFlow {}).flow outFlow).resetAt = none ∧
      999900000 + max 1 (linked (linkIn .up)).fabric.rto.toNat * 10000 ≤ (linked (linkIn .up)).time ∧
      (∃ p ∈ upLinks (linked (linkIn .up)) 9, p ≠ 3)) ∧
    ¬ 999900001 + max 1 (linked (linkIn .up)).fabric.rto.toNat * 10000 ≤ (linked (linkIn .up)).time ∧
    (seqLe ((4 : W16) + 1) 5 ∧ seqLe ((5 : W16) + 1) 5 = false) ∧
    ((flows ownFlow { arrived := [{ sentMsg .flush ownFlow 3 with num := 8 }] }).flow ownFlow).arrived.head? =
      some { sentMsg .flush ownFlow 3 with num := 8 } ∧
    (((flows inFlow { arrived := [marker 4], expect := 5 }).flow inFlow).arrived.find? (fun y => y.typ == .flush) = some (marker 4) ∧
      (marker 4).n = 1 ∧ ((flows inFlow { arrived := [marker 5], expect := 5 }).flow inFlow).gathered = []) ∧
    ((flushed.flow ownFlow).arrived.head? = some flushAnswer ∧ flushAnswer.typ = .flushAck ∧
      slotDie 2560 = (revFlow ownFlow).sdie.toNat ∧ (flushed.slots.map (·.1)).Nodup ∧ 2560 ∈ flushed.slots.map (·.1) ∧
      (∀ i, i ≠ 2560 → (flushed.slot i).fence = none) ∧ (flushed.slot 2560).fence = some ⟨5, 1, [(revFlow ownFlow, 8)]⟩ ∧
      Quiet (flushed.slot 2560) ∧ (flushed.slot 2560).outst = []) ∧
    (outFlow.dpkg ≠ (linked (linkIn .up)).pkgid ∧
      ((flows outFlow { flushes := [⟨8, 3, 0, [3], 999900000, false⟩] }).flow outFlow).flushes = [⟨8, 3, 0, [3], 999900000, false⟩]) ∧
    (unreachDue { linked (linkIn .down) with fabric := { (linked (linkIn .up)).fabric with noPath := [(512, 100)] } } 1 9 ∧
      (9 : BitVec 9) ≠ (linked (linkIn .up)).pkgid ∧
      (linked (linkIn .up)).graphs = [] ∧ (∀ e ∈ (linked (linkIn .up)).flows, e.1.dpkg ≠ 9) ∧
      ((linked (linkIn .up)).limiter (limKey 1 9)).unreachable = false) ∧
    (7 < 8 ∧ 511 / 64 = 7 ∧ (0x8000000000000000 : W64).getLsbD (511 % 64) ∧
      ({ machine with limiters := [(limKey 7 511, { unreachable := true })] }.limiter (limKey 7 511)).unreachable) ∧
    (∀ n ∈ [0, 1], ((flows inFlow { arrived := [resetMsg n] } { resetAt := some 3 }).flow inFlow).arrived.find?
        (fun y => y.typ == .flowReset && y.n == n) = some (resetMsg n)) ∧
    (let back := (flows inFlow {} { resetAt := some 3 }).flow outFlow;
      back.unacked = [] ∧ back.answers = [] ∧ back.held = [] ∧ back.flushes = [] ∧ back.resetAt.isSome ∧
      ((linked (linkIn .up)).limiter (limKey 1 9)).waiting = []) ∧
    (({} : FlowState).wasReset = false ∧ ((flows inFlow { wasReset := true }).flow inFlow).wasReset = true) ∧
    ((flows outFlow { resetAt := some 999900000 }).flow outFlow).resetAt = some 999900000 := by
  and_intros
  all_goals first
    | exact flushed_alone
    | decide +kernel
    | (apply quiet_of <;> decide)

/-! ### Witnesses: interfaces, trust and registers -/

/-- Tenant 3 with its interface as given; its address space 5 is 197. -/
def tenant3 (i : Iface) (f : Args → Args := id) (s : State := machine) : State :=
  withArg (fun a => f { a with tenant := 3, flag := true }) (s.setIface 3 i)

theorem witness_InterfaceStates :
    (spdmUp machine ∧ machine.mgmt.lc = .deployed ∧ machine.mgmt.romhold = false ∧ machine.lehr = .done ∧ ((tenant3 {}).iface 3).tdisp = .unlocked ∧
      ((tenant3 {}).iface 3).wiping = false) ∧
    { machine.mgmt with lc := .provisioned }.lc ≠ .deployed ∧ ((tenant3 { tdisp := .locked }).iface 3).tdisp = .locked ∧
    (((tenant3 { wiping := true }).iface 3).wiping = true ∧ tenantQuiet ((tenant3 { wiping := true }).setSlot 0 {} |>.setSlot 1 {}) 3) ∧
    ((15 : Nat) < 16 ∧ 0x178 = 0x100 + 8 * 15 ∧ 0x278 = 0x200 + 8 * 15 ∧ (127 : Nat) < 128 ∧ 0x83F8 = 0x8000 + 8 * 127) ∧
    (isBinding 0x100 ∧ isBinding 0x278 ∧ isBinding 0x83FF ∧ isBinding 0x180 = false ∧
      ((tenant3 { tdisp := .run }).iface 3).tdisp = .run ∧ ((tenant3 { tdisp := .run }).iface 3).erred = false ∧
      ((tenant3 { tdisp := .run, erred := true }).iface 3).erred = true) ∧
    -- a block of tenant 3 runs, and a queue of it is Active
    (let s := (withGroup (fun g => { g with bind := { g.bind with tenant := 3, asid := 197 } }) (tenant3 { tdisp := .run })).setQueue 0 { state := .active, tenant := 3, asid := 197 };
      (s.slot 0).bind.sstate ≠ .empty ∧ (s.slot 0).bind.tenant.toNat = 3 ∧ (s.qref ⟨0, 0, 0⟩).state = .active ∧ s.reserved 197 = false ∧
      ∀ k, (s.slot k).bind.sstate ≠ .empty → (s.block (leadOf k (s.slot k))).dead = false) := by
  and_intros
  all_goals first
    | decide +kernel
    | exact fun _ _ => rfl

def command (op : W8) (x y z : W64) : State := tenant3 { tdisp := .run, result := .busy, op := op, carg0 := x, carg1 := y, carg2 := z }
def space (s : State) (queues : Bool := false) : State :=
  s.setAsid 197 { s.asid 197 with inUse := true, launchQ := if queues then [(0, 0x00010003)] else [], ctrlQ := if queues then [(0, 0x00010004)] else [] }
/-- An object of address space 197 that holds the queue's entry of R330: a plain queue on die 0, port 4. -/
def entryBytes : List W8 := leBytes 8 (2 ^ 57 + 0x2F * 2 ^ 51 + 4 * 2 ^ 44) ++ leBytes 8 (7 * 2 ^ 52) ++ leBytes 32 0
def withEntry (s : State) : State :=
  let s := s.setObj 197 5 { state := .valid, r := true, bound := 48, exts := [⟨0, 1, true, false, 0, 96⟩] }
  { s with mem := memStore s.mem (96 * 4096) entryBytes }
def tableOf (es : List (Nat × Qtte)) (s : State) : State := { s with qtt := es.map fun e => (197 * 65536 + e.1, e.2) }

theorem asidQueues_some : (asidQueues ((command 1 5 0 0).setAsid 197 { inUse := true }) 197 ((List.range 8).filter (dieOnline (command 1 5 0 0)))).isSome := by
  decide +kernel

theorem witness_InterfaceCommands :
    (∀ op < 8, ((command (BitVec.ofNat 8 op) 5 0 0).iface 3).result = .busy ∧ ((command (BitVec.ofNat 8 op) 5 0 0).iface 3).tdisp = .run ∧
      ((command (BitVec.ofNat 8 op) 5 0 0).iface 3).erred = false) ∧
    ((63 : W64).toNat < 64 ∧ 64 ≤ (64 : W64).toNat) ∧ (64 * 3 + 5 % 64 = 197 ∧ ((command 1 5 0 0).asid 197).inUse = false ∧
      197 ∉ (command 1 5 0 0).mgmt.reservedAsids ∧
      197 ∈ { command 1 5 0 0 with mgmt := { machine.mgmt with reservedAsids := [197] } }.mgmt.reservedAsids) ∧
    (((space (command 2 5 0 0)).asid 197).inUse = true ∧ (∀ g ∈ (space (command 2 5 0 0)).graphs, g.asid.toNat ≠ 197) ∧
      bindsAsid ((space (command 2 5 0 0)).iface 3) 5 = false ∧ bindsAsid { apcfg := [(15, 0x8500000000000000)] } 5) ∧
    -- OBJNEW of die memory on die 7 and of host memory, each bound of the length once
    ((0x8705 : W64).toNat < 2 ^ 18 ∧ (0x8705 : W64).toNat / 64 % 4 = 0 ∧ (0x8705 : W64).toNat / 256 % 8 = 7 ∧ (0x8705 : W64).toNat.testBit 15 ∧
      (0x8705 : W64).toNat.testBit 14 = false ∧ (0x0745 : W64).toNat / 64 % 4 = 1 ∧ (0x07C5 : W64).toNat / 64 % 4 = 3 ∧
      0 < 2 ^ 44 - 1 ∧ 2 ^ 44 - 1 < 2 ^ 44 ∧ dieOnline machine 7) ∧
    freeObj (space (command 3 0x8705 1 0)) 197 = some 1 ∧
    (addrObj (0x500000000000 : W64) ≠ 0 ∧ ((withEntry (space (command 4 5 0x500000000000 0))).obj 197 5).state ≠ .invalid ∧
      ((withEntry (space (command 4 5 0x500000000000 0))).obj 197 6).state = .invalid ∧
      objBusy (withEntry (space (command 4 5 0x500000000000 0))) (BitVec.ofNat 12 197) 5 = false ∧
      accessing (withEntry (space (command 4 5 0x500000000000 0))) (BitVec.ofNat 12 197) 5 = false) ∧
    (addrOff (0x500000000000 : W64) + 48 ≤ 48 ∧ ((withEntry (space (command 5 5 0x500000000000 0))).obj 197 5).state = .valid ∧
      ((withEntry (space (command 5 5 0x500000000000 0))).obj 197 5).kind = .die ∧
      (parseEntry (readObj (withEntry (space (command 5 5 0x500000000000 0)))
        ((withEntry (space (command 5 5 0x500000000000 0))).obj 197 5) 0 48)).isSome) ∧
    (((tableOf [(1, { gen := 7, valid := true, pqid := 0x10003 })] (space (command 6 5 0x70001 0))).qtte 197 1).gen =
        (0x70001 : W64).extractLsb' 16 16 ∧
      (∀ x ∈ (tableOf [(1, { gen := 8, pqid := 0x10003 })] (space (command 6 5 0x70001 0))).qtt, x.2.left = 0) ∧
      ((tableOf [(1, { gen := 8, pqid := 0x10003 })] (space (command 6 5 0x70001 0))).qtte 197 1).gen = (0x70001 : W64).extractLsb' 16 16 + 1 ∧
      pqPkg 0x10003 = machine.pkgid) ∧
    (tfind ((space (command 7 5 0 0) true).asid 197).launchQ 0 = some 0x10003 ∧
      handleOf (tableOf [(1, { gen := 7, valid := true, pqid := 0x10003 }), (2, { gen := 9, valid := true, pqid := 0x10004 })] (space (command 7 5 0 0) true))
        197 0x10004 = some 0x90002) := by
  and_intros <;> decide +kernel

/-- QNEW of the entry finds a queue that is free on die 0, and the table a free entry. -/
def qnewFits (s : State) : Bool :=
  match parseEntry (readObj s (s.obj 197 5) 0 48) with
  | none => false
  | some (q, _, d, ports) => dieOnline s d && match makeQueue s d { q with tenant := 3, asid := 197 } ports with
    | .made _ u => !(u.qtte 197 65535).valid && (u.qtte 197 65535).pqid == 0
    | _ => false

theorem witness_InterfaceCommands_qnew : qnewFits (withEntry (space (command 5 5 0x500000000000 0))) = true := by decide +kernel

def bound3 (k : Nat) (image : Aperture) (cfg : W64) (off : Nat := 0) (v : W64 := 0) (win : W64 := 0) : State :=
  withArg (fun a => { a with idx := k, off := off, v := v, words := [0x1122334455667788] })
    (tableOf [(1, { gen := 7, rights := 0x3F, valid := true, pqid := 0x10003 })]
      (withEntry (tenant3 { tdisp := .run, apcfg := [(15, cfg)], wincfg := [(0, win)], apertures := [(15, image)] })))

theorem witness_AperturesAndWindows :
    (((bound3 15 {} 0x8500000000070001).iface 3).tdisp = .run ∧ ((bound3 15 {} 0x8500000000070001).iface 3).erred = false ∧
      (bound3 15 {} 0x8500000000070001).arg.flag = true ∧ (15 : Nat) < 16 ∧ (0x8500000000070001 : W64).getLsbD 63 = true ∧
      64 * 3 + ((0x8500000000070001 : W64).extractLsb' 56 6).toNat = 197 ∧
      197 ∉ (bound3 15 {} 0x8500000000070001).mgmt.reservedAsids ∧
      (tget ((bound3 15 {} 0x8500000000070001).iface 3).apertures 15 {}).inFlight = false) ∧
    (translate (bound3 15 {} 0x8500000000070001) 197 0x70001 rEnq = .ok 0x10003 ∧ pqPkg 0x10003 = (bound3 15 {} 0x8500000000070001).pkgid ∧
      translate (bound3 15 {} 0x8500000000080001) 197 0x80001 rEnq = .error 0x11) ∧
    (tget ((bound3 15 { result := some 5 } 0).iface 3).apertures 15 {}).result = some 5 ∧
    -- the last byte of the object's 48
    ((0x8500005000000000 : W64).getLsbD 63 = true ∧ ((0x8500005000000000 : W64).extractLsb' 36 20).toNat = 5 ∧
      ((bound3 1 {} 0 47 0 0x8500005000000000).obj 197 5).state = .valid ∧ 47 + 1 ≤ ((bound3 1 {} 0 47 0 0x8500005000000000).obj 197 5).bound ∧
      ((bound3 1 {} 0 47 0 0x8500005000000000).obj 197 5).r = true) ∧
    (∀ j, j < 8 → (objByteAddr { state := .valid, w := true, bound := 48, exts := [⟨0, 1, true, false, 0, 96⟩] } (40 + j)) = some (96 * 4096 + 40 + j)) ∧
    ((bound3 8 {} 0).arg.words.flatMap fun x => leBytes 8 x.toNat).length = 8 := by
  refine ⟨by decide, ⟨rfl, by decide, rfl⟩, by decide, by decide, by decide, by decide⟩

def negotiated (n : Nat) (f : Args → Args := id) (lms : Nat := 0) (ss : List Session := []) : State :=
  withArg f { machine with spdm := { negotiated := n, sessions := ss }, mgmt := { machine.mgmt with identity := some 4, lmsUsed := lms } }

theorem witness_Attestation :
    ((negotiated 3).lehr = .done ∧ (negotiated 3).mgmt.romhold = false ∧ (negotiated 3).mgmt.identity.isSome ∧ (negotiated 3).mgmt.lc ≠ .returned) ∧
    ((negotiated 2 fun a => { a with v := 2, w := 0x80, idx := 2 }).arg.v.getLsbD 1 = true ∧ (0x80 : W64).getLsbD 7 = true ∧
      (2 : Nat).testBit 1 = true ∧ (0 : Nat).testBit 1 = false) ∧
    ((negotiated 2).spdm.negotiated < 3 ∧ 3 ≤ (negotiated 3).spdm.negotiated) ∧
    ((negotiated 3 id (2 ^ 30 - 1)).mgmt.lmsUsed < 2 ^ 30 ∧ 2 ^ 30 ≤ (negotiated 3 id (2 ^ 30)).mgmt.lmsUsed) ∧
    measurement (negotiated 3) 2 = some (negotiated 3).mgmt.running.digest ∧
    ((negotiated 3 id 0 ((List.range 7).map fun i => ⟨i, true, 0⟩)).spdm.sessions.length < 8 ∧
      8 ≤ (negotiated 3 id 0 ((List.range 8).map fun i => ⟨i, true, 0⟩)).spdm.sessions.length) ∧
    (⟨7, false, 0⟩ ∈ (negotiated 3 (fun a => { a with idx := 7 }) 0 [⟨6, true, 1⟩, ⟨7, false, 0⟩]).spdm.sessions ∧
      (∀ y ∈ (negotiated 3 (fun a => { a with idx := 7 }) 0 [⟨6, true, 1⟩, ⟨7, false, 0⟩]).spdm.sessions, y.id = 7 → y = ⟨7, false, 0⟩)) ∧
    ((tenant3 {}).iface 3).tdisp = .unlocked ∧ ((tenant3 { tdisp := .locked }).iface 3).tdisp ≠ .unlocked := by
  and_intros
  all_goals first
    | rfl
    | decide

def mailbox (c : W4) (lc : LcState) (rom : Bool := false) (nonce : Option W64 := none) (owner : Option (BitVec 384) := some 9)
    (ident : Option Nat := some 4) : State :=
  { machine with mgmt := { machine.mgmt with mbcmd := c, mbstat := .busy, lc := lc, romhold := rom, mbnonce := nonce, owner := owner, identity := ident } }

/-- Where the configuration lets a buffer's signatures verify, and a token's fields be those asked for, every other hypothesis
holds; and either they verify or they do not. -/
theorem witness_LifecycleCommands (c : W4) (lc : LcState) (rom : Bool) :
    let s := mailbox c lc rom
    (s.mgmt.mbstat = .busy ∧ s.mgmt.mbcmd = c ∧ s.mgmt.lc = lc ∧ s.mgmt.romhold = rom) ∧
    (s.ifaces.filter fun e => e.2.tdisp != .unlocked).length = 0 ∧
    ((tenant3 { tdisp := .locked } id s).ifaces.filter fun e => e.2.tdisp != .unlocked).length ≠ 0 ∧
    (Config.pairVerifies 0 ((hostBuffer s s.mgmt.mbarg).take 2048) ((hostBuffer s s.mgmt.mbarg).drop 2048) = true ∨
      ¬ Config.pairVerifies 0 ((hostBuffer s s.mgmt.mbarg).take 2048) ((hostBuffer s s.mgmt.mbarg).drop 2048) = true) ∧
    (∀ k, (mailbox c lc rom (some (Config.tokenNonce k))).mgmt.mbnonce = some (Config.tokenNonce k) ∧ s.mgmt.mbnonce ≠ some (Config.tokenNonce k)) ∧
    (∀ k n, Config.tokenIdentity k = some n → (mailbox c lc rom none (some 9) (some n)).mgmt.identity = Config.tokenIdentity k) ∧
    s.mgmt.owner.isSome ∧ s.mgmt.svn ≤ s.mgmt.svn ∧ s.lehr = .done :=
  ⟨⟨rfl, rfl, rfl, rfl⟩, rfl, Nat.one_ne_zero, Classical.em _, fun _ => ⟨rfl, by simp [mailbox, machine, State.setCore, State.setSlot, State.setObj, State.reset]⟩,
    fun k n h => by simp [mailbox, h], rfl, by simp, rfl⟩

def registers (sp : RegSpace) (off : Nat) (v : W64) (f : Iface → Iface := id) : State :=
  tenant3 (f { tdisp := .run }) (fun a => { a with space := sp, off := off, v := v })

theorem witness_RegisterWrites :
    ((registers .pf0 8 0).arg.space = .pf0 ∧ (registers .pf0 8 0).lehr = .done ∧ (registers .pf0 0x800 7).mgmt.mbstat ≠ .busy ∧
      (registers .pf0 (0x400 + 16 * 63) 0).arg.off = 0x400 + 16 * 63) ∧
    ((registers .pf0 8 0).mgmt.romhold = false ∧
      ({ registers .bar0 8 0 with mgmt := { (registers .bar0 8 0).mgmt with romhold := true } } : State).arg.space = .bar0) ∧
    (((registers .bar0 0x400 0x0700000000000000).iface 3).result ≠ .busy ∧ (0x0700000000000000 : W64).extractLsb' 56 8 ≠ 0) ∧
    ((registers .punty (0x400000 + 0x40000 * 15 + 0x40 * 4095 + 8 * 7) 0).mgmt.online.getLsbD 0 = true ∧ (15 : Nat) < 16 ∧ (4095 : Nat) < 4096 ∧
      ((registers .punty 0 0).qref ⟨0, 15, 4095⟩).state = .free ∧ ((registers .punty 0 0).port (portKey 0 15)).result ≠ .busy ∧
      ((0x0400000000000000 : W64).extractLsb' 56 4).toNat ≤ 4) ∧
    (isBinding 0x83F8 ∧ isBinding 0x300 = false ∧ (0x1C ≤ 0x20 ∧ 0x20 ≤ 0x24)) ∧
    ((2 : W64).getLsbD 1 = ({ disable := true } : Link).disable ∧ (0 : W64).getLsbD 1 = ((registers .pf0 (0x400 + 16 * 63) 0).link 63).disable) ∧
    (quotasOk ((registers .dvsec 0x24 0).setIface 0 { ecnt := 1 }) ∧ quotasOk ((registers .dvsec 0x24 0).setIface 0 { ebase := 65535, ecnt := 2 }) = false ∧
      ((registers .dvsec 0x24 0).iface 0).tdisp = .unlocked) ∧
    (((registers .bar0 0x500 0x8000000000001005).iface 3).fdrBase = 0 ∧ (0x8000000000001005 : W64) &&& ~~~0xFFF#64 ≠ 0) ∧
    ((0x80 : W64).setWidth 16 = (1#16 <<< 7) ∧ (∀ c, c < 8 → ((registers .bar0 0 0x80).die c).halted = none) ∧
      (∀ x ∈ (registers .bar0 0 0x80).slots, slotDie x.1 = 7 → x.2.bind.sstate ≠ .empty → x.2.bind.tenant = 3 ∧ (registers .bar0 0 0x80).reserved x.2.bind.asid = false) ∧
      (∃ x ∈ ((registers .bar0 0 0x80).setSlot (2560 * 7) { group with bind := { group.bind with tenant := 4 } }).slots,
        slotDie x.1 = 7 ∧ x.2.bind.sstate ≠ .empty ∧ ¬ (x.2.bind.tenant = 3 ∧ (registers .bar0 0 0x80).reserved x.2.bind.asid = false))) := by
  and_intros <;> decide +kernel

/-- Tenant 3 samples its node on core 0 of die 0, in the ring at 80H of object 5. -/
def sampling (b : Collector) : State :=
  let s := tenant3 { tdisp := .run, smpBuf := 0x500000000080, smpNode := 0, smpEnable := true, smpLog2n := 4, smpDies := [(0, b)] }
  s.setCore 0 { s.core 0 with cycle := some 0, samp := [(3, { due := [0], lastSlot := some 0 })] }
def loads (st : W8) (word : W64) (bytes : List W8 := entryBytes) : State :=
  let s := withEntry (space (tenant3 { tdisp := .run, imgstat := st, imgload := word, wincfg := [(8, 0x8500005000000000)] }))
  { s with mem := memStore [] (96 * 4096) bytes }

theorem witness_SamplesAndImages :
    ((registers .bar0 0 0x00800001).cores ≠ [] ∧ ((registers .bar0 0 1).iface 3).smpEnable = false ∧ (1 : W64).getLsbD 0 = true ∧
      tfind ((registers .bar0 0 1).core 0).samp 3 = none ∧ ((sampling {}).iface 3).smpEnable = true ∧ (16 : W64).getLsbD 0 = false) ∧
    (((sampling { asid := some 2, wr := 17, rd := 2 }).die 0).halted = none ∧
      cycleDone (sampling { asid := some 2, wr := 17, rd := 2 }) 0 ∧
      nextSample (sampling { asid := some 2, wr := 17, rd := 2 }) 3 0 (some 0) = some 1 ∧
      structOk (sampling { asid := some 2, wr := 17, rd := 2 }) 0 2 (ringAddr ((sampling { asid := some 2, wr := 17, rd := 2 }).iface 3) 0) (64 + 16 * 16) .w ∧
      ((17 : W32) - 2).toNat ≠ 16 ∧ ((17 : W32) - 1).toNat = 16) ∧
    (∀ j, j < 64 + 16 * 16 → objByteAddr dataObj (0x80 + j) = some (32 * 4096 + 0x80 + j)) ∧
    ((loads 0 0x8000000000000000).iface 3).imgstat ≠ 1 ∧ ((loads 1 0x8000000000000000).iface 3).imgstat = 1 ∧
    (imagePlace (loads 1 0x9000000000000000) 3 = none ∧ imagePlace (loads 1 0x8000000000000000) 3 = some (197, 5, 0)) ∧
    -- a length below 64, and one beyond the object's 48 bytes
    (leNat (readObj (loads 1 0) ((loads 1 0).obj 197 5) 8 8) = 7 * 2 ^ 52 ∧ ((loads 1 0).obj 197 5).bound < 0 + 64) ∧
    (∀ img, signatureOk img = true ∨ signatureOk img = false) := by
  and_intros
  all_goals first
    | decide +kernel
    | (intro img; cases signatureOk img <;> simp)

/-! ### Witnesses: launches, blocks, gangs and experts -/

/-- The launch of two blocks of one group each, at priority 3 on dies 0 and 1, that has been started. -/
def startedNode : Node :=
  { addr := 0x500000000400, kind := .launch, prio := 3, diemask := 3, wdog := 5, budget := 1000000, maxcore := 3, kernel := 0x100000000000,
    countW := 2, count := 2, sregs := 10, vreg16 := 1, tiles := 2, scr4k := 2, state := .ready, compl := 0x500000000800 }
def startedGraph (n : Node) : Graph := { hdr := 0x500000000080, asid := 2, die := 0, gcompl := 0, nodes := [n], edges := [] }
def startedQueue : RQueue := { id := 1, graph := 0x500000000080, asid := 2, node := 0, prio := 3, deficit := 1 }
/-- The machine with the launch queued on die 0, and with its slots empty. -/
def launching (n : Node) (d : Die → Die := id) (f : Args → Args := id) : State :=
  let s := { machine with slots := [], graphs := [startedGraph n] }
  let s := s.setDie 0 (d { s.die 0 with rqs := [startedQueue] })
  withArg (fun a => f { a with asid := 2, node := ⟨2, 0x500000000080, 0⟩ }) s

/-- A graph of one launch as its arrays hold it: a header, a node array, and the node. -/
def graphBytes : List (Nat × Nat) :=
  [(0x80, 0x500000000200), (0x88, 1), (0x200, 0x500000000400), (0x400, 1 * 2 ^ 60 + 0xFF * 2 ^ 52 + 3 * 2 ^ 49 + 3 * 2 ^ 40 + 5), (0x410, 1000000),
   (0x418, 3), (0x430, 0x500000000800), (0x440, 0x100000000000), (0x450, 2), (0x458, 1 * 2 ^ 47 + 10 * 2 ^ 40 + 2 * 2 ^ 36 + 2 * 2 ^ 29)]
def startElement (w0 w1 : Nat) (gs : List Graph) : State :=
  let s := { machine with graphs := gs, queues := [(queueKey 0 1 40, { state := .active, head := 5, tail := 6, winM1 := 3, slots := [(5, .filled (leBytes 8 w0 ++ leBytes 8 w1))] })] }
  let s := s.setAsid 2 { s.asid 2 with inUse := true, launchQ := [(0, 0x00010028)] }
  withArg (fun a => { a with asid := 2 }) { s with mem := graphBytes.foldl (fun m e => memStore m (32 * 4096 + e.1) (leBytes 8 e.2)) [] }
def oneLaunch : Bool :=
  match validate (startElement 0x500000000080 0 []) 0 2 0x500000000080 0 with
  | some g => match g.nodes with
    | [n] => n.kind == .launch && !n.isGang && n.parlen == 0 && !n.cntind && n.countW.toNat % 2 ^ 32 != 0 && n.diemask &&& machine.mgmt.online != 0 && (!n.ovr.getLsbD 6 || n.budget != 0)
    | _ => false
  | none => false

def ringOf (n hd tl : W16) (x : Die) : Die := { x with drbase := 0x90000, drsize := n, drhead := hd, drtail := tl, drseen := hd }
/-- The ring of die 0 holds one event of a kind, for core 0 and lead slot 0. -/
def eventRing (kind block : Nat) (s : State) : State :=
  { (s.setDie 0 (ringOf 16 0 1 (s.die 0))) with mem := memStore s.mem 0x90000 (leBytes 8 (kind * 2 ^ 60 + block)) }
def boundBlock (ended : Option Nat) : Bound :=
  { core := 0, lead := 0, graph := 0x500000000080, asid := 2, node := 0, block := 7, order := 3, page := 600, pages := 20, ended := ended }
def holdsBlock (ended : Option Nat) (n : Node := { startedNode with live := 1 }) (prio : W3 := 3) : State :=
  let s := { machine with graphs := [startedGraph n] }
  let s := s.setDie 0 { s.die 0 with rqs := [{ startedQueue with prio := prio }], bound := [boundBlock ended] }
  withArg (fun a => { a with asid := 2, node := ⟨2, 0x500000000080, 0⟩ }) s
/-- Its first group has faulted, and the firmware has yet to handle the event. -/
def blockFaulted : State :=
  let s := (eventRing 4 7 (holdsBlock none)).setSlot 0 { group with faulted := true, bind := { group.bind with sstate := .faulted } }
  s.setDie 0 { s.die 0 with notes := [⟨0, 0, group.bind, {}, none, some { startedNode with live := 1 }, some (boundBlock none), 5, false⟩] }
/-- The launch that waits needs more scratchpad than any core has left, and has priority over the block that is bound. -/
def outranked : State :=
  let s := holdsBlock none { startedNode with scr4k := 63, live := 1, next := 1 } 7
  s.setDie 0 { s.die 0 with clock := 200000 }

theorem witness_Launches :
    (tfind ((startElement 0x500000000080 0 []).asid 2).launchQ 0 = some 0x00010028 ∧ dieOnline (startElement 0 0 []) 0 ∧
      (startElement 0 0 []).mgmt.lc ≠ .returned ∧ (startElement 0 0 []).lehr = .done ∧ ((startElement 0 0 []).qref (qrefOf 0x00010028)).slot 5 = .filled (leBytes 16 0)) ∧
    (∃ g ∈ (startElement 0x500000000080 0 [startedGraph startedNode]).graphs, g.asid = 2 ∧ g.hdr = 0x500000000080) ∧
    (0x500000000081 % 128 ≠ 0 ∧ structWords (startElement 0x600000000081 0 []) 0 2 0x600000000000 4 = none) ∧ oneLaunch = true ∧
    (drrSelects (launching startedNode) 0 = some startedQueue ∧ mayClaim (launching startedNode) startedQueue ∧ startedNode.again = [] ∧
      ((launching startedNode).die 0).rqs = [startedQueue] ∧ startedQueue.granted = none ∧ startedQueue.refused = false ∧ queueNode startedQueue = ⟨2, 0x500000000080, 0⟩ ∧
      (launching startedNode).launchNode ⟨2, 0x500000000080, 0⟩ = some (startedGraph startedNode, startedNode) ∧
      claimAllowed (launching startedNode) (startedGraph startedNode) 0 0) ∧
    ((159 : W8).toNat < 160 ∧ ((launching startedNode).die 0).halted = none ∧ (0 : Int) < startedQueue.deficit ∧
      maxcoreOk (launching startedNode) (startedGraph startedNode) 0 0 ∧ fitsCore startedNode ∧
      (∀ k ∈ coreSlots 0, ((launching startedNode).slot k).bind.sstate = .empty) ∧
      (roomOn (launching startedNode) 0 (needOf startedNode) 2 0x500000000400).isSome ∧
      (takePages 1 ((saveSize (bindOf (startedGraph startedNode) startedNode 0) + 4095) / 4096) ((launching startedNode).die 0).free).isSome) ∧
    ((launching startedNode).reserved 2 = false ∧ (startedGraph startedNode).gcompl = 0 ∧ (startedGraph startedNode).guest = none ∧
      startedNode.state = .ready ∧ startedNode.stop = false ∧ startedNode.live = 0 ∧ startedNode.gang = none ∧ startedNode.parent = none) ∧
    (startedNode.readyAt + startedNode.wdog.toNat * 1000000 ≤ 5000000 ∧ ¬ startedNode.readyAt + startedNode.wdog.toNat * 1000000 ≤ 4999999) ∧
    (((eventRing 1 7 (holdsBlock (some 77))).die 0).drseen ≠ ((eventRing 1 7 (holdsBlock (some 77))).die 0).drtail ∧
      bitsOf (memNat (eventRing 1 7 (holdsBlock (some 77))).mem 0x90000 8) 63 60 = 1 ∧
      ((eventRing 1 7 (holdsBlock (some 77))).die 0).bound.find? (fun y => y.core == 0 && y.lead == 0 && y.ended.isSome) = some (boundBlock (some 77))) ∧
    (bitsOf (memNat blockFaulted.mem 0x90000 8) 63 60 = 4 ∧ (blockFaulted.die 0).drseen ≠ (blockFaulted.die 0).drtail ∧
      (blockFaulted.die 0).notes.map (fun f => (f.void, f.own, f.node.isSome, f.ctx)) = [(false, some (boundBlock none), true, 0)] ∧
      contextSlot blockFaulted 0 0 = some 0 ∧ liveGroup (blockFaulted.slot 0) ∧ blockFaulted.reserved 2 = false ∧
      (∀ g ∈ blockFaulted.graphs, ∀ n ∈ g.nodes, n.stop = false ∧ n.fpol = 0) ∧ (blockFaulted.block (leadOf 0 (blockFaulted.slot 0))).dead = false ∧
      1 ∈ blockSlots blockFaulted (leadOf 0 (blockFaulted.slot 0)) ∧ liveGroup (blockFaulted.slot 1) ∧ (blockFaulted.slot 1).dfault = none) := by
  and_intros <;> decide +kernel

theorem witness_Launches_preempt :
    ((outranked.die 0).rqs.find? (fun y => queueNode y == ⟨2, 0x500000000080, 0⟩) = some { startedQueue with prio := 7 } ∧
      findGraph outranked 2 0x500000000080 = some (startedGraph { startedNode with scr4k := 63, live := 1, next := 1 })) ∧
    (∀ o ∈ offers outranked 0 { startedQueue with prio := 7 }, ∀ c ∈ dieCores 0, takesOffer outranked { startedQueue with prio := 7 } c o = false) ∧
    Machine.draining outranked 0 { startedQueue with prio := 7 } < waitingBlocks outranked 0 (startedGraph { startedNode with scr4k := 63, live := 1, next := 1 }) { startedQueue with prio := 7 } ∧
    (outranked.die 0).bound.filter (victimOk outranked 0 7) = [boundBlock none] ∧ (outranked.block (slotKey 0 0 0)).killed = 0 ∧
    (outranked.die 0).halted = none ∧ (boundBlock none).core < 160 ∧ (boundBlock none).lead < 16 := by
  and_intros <;> decide +kernel

def bindWords (resume : Nat) (gc : Nat := 0) (lead : Nat := 0) : List W64 :=
  [BitVec.ofNat 64 (1 * 2 ^ 60 + resume * 2 ^ 59 + gc * 2 ^ 50 + lead * 2 ^ 46 + 3 * 2 ^ 43 + 2 * 2 ^ 31 + 3 * 2 ^ 25 + 3 * 2 ^ 19 + 10 * 2 ^ 12),
   0x100000000000, 0x200000, BitVec.ofNat 64 (7 * 2 ^ 32 + 1 * 2 ^ 20 + 2 * 2 ^ 10), BitVec.ofNat 64 (2 * 2 ^ 57), 0, 0x500000000400, 0]
def binding (ws : List W64) : State :=
  let s := { machine with slots := [] }
  withArg (fun a => { a with words := ws }) (s.setDie 0 (ringOf 16 0 3 (s.die 0)))
/-- The two groups in a state, with a ring that has room or is full. -/
def blockIn (st : SState) (room : Bool := true) (s : State := machine) : State :=
  let s := (s.setSlot 0 { group with bind := { group.bind with sstate := st }, stopped := true }).setSlot 1
    { group with bind := { group.bind with sstate := st, gidx := 1 }, stopped := true }
  s.setDie 0 (ringOf 16 (if room then 0 else 4) 3 (s.die 0))
def lone (st : SState) : State :=
  let s := ({ machine with slots := [] }).setSlot 0 { group with bind := { group.bind with sstate := st, gcntm1 := 0, save := 0x200000 }, stopped := true }
  s.setDie 0 (ringOf 16 0 3 (s.die 0))

theorem witness_Blocks :
    ((machine.slot 0).bind.sstate ≠ .empty ∧ inTable machine 16 = false ∧ inTable (binding (bindWords 0)) 0 ∧
      ((binding (bindWords 0)).die 0).halted = none) ∧
    (((binding (bindWords 0)).slot 0).bind.sstate = .empty ∧ ((binding (bindWords 0)).core 0).awake = true ∧ (parseBind (bindWords 0)).sstate = .ready) ∧
    (readySlots ((binding (bindWords 0 1)).setSlot 0 { bind := parseBind (bindWords 0 1) }) 0 0 = [0] ∧ (parseBind (bindWords 0 1)).gcntm1.toNat ≠ 0) ∧
    (blockBad ((binding (bindWords 0 0 1)).setSlot 0 { bind := parseBind (bindWords 0 0 1) }) 0 [0] (parseBind (bindWords 0 0 1)) ∧
      readySlots ((binding (bindWords 0 0 1)).setSlot 0 { bind := parseBind (bindWords 0 0 1) }) 0 1 = [0] ∧ ringRoom ((binding (bindWords 0)).die 0)) ∧
    (blockBad ((binding (bindWords 0)).setSlot 0 { bind := parseBind (bindWords 0) }) 0 [0] (parseBind (bindWords 0)) = false ∧
      saveOutside (parseBind (bindWords 0)) = false ∧ (parseBind (bindWords 0)).resume = false) ∧
    (blockBad ((binding (bindWords 1)).setSlot 0 { bind := parseBind (bindWords 1) }) 0 [0] (parseBind (bindWords 1)) = false ∧
      savedAt (binding (bindWords 1)) 0 (parseBind (bindWords 1)) = none ∧ (parseBind (bindWords 1)).gidx = 0) ∧
    (blockSlots (blockIn .running) 0 ≠ [] ∧ ((blockIn .running).block 0).dead = false ∧ ((blockIn .running).block 0).killed = 0 ∧
      (∀ j ∈ blockSlots (blockIn .running) 0, ((blockIn .running).slot j).bind.sstate = .running)) ∧
    (ringRoom ((blockIn .running).die 0) ∧ ringRoom ((blockIn .running false).die 0) = false) ∧
    (1 ∈ blockSlots (blockIn .running) (leadOf 0 group) ∧ liveGroup ((blockIn .running).slot 0) ∧ liveGroup ((blockIn .running).slot 1)) ∧
    drainOver (blockIn .draining) 0 ∧
    (let g := (blockIn .faulted).slot 0;
      g.bind.sstate = .faulted ∧ g.aside = none ∧ g.held = none ∧ g.dfault = none ∧ g.exiting = false ∧ g.phase = none ∧
        anyHeld g = false ∧ ((blockIn .faulted).die 0).halted = none) ∧
    (((blockIn .running).setDie 0 { machine.die 0 with halted := some 3 }).die 0).halted.isSome ∧
    (blockSlots (lone .saving) 0 = [0] ∧ saveReady (lone .saving) 0 ∧ ((lone .saving).slot 0).bind.gidx = 0 ∧
      ((lone .saving).slot 0).bind.gcntm1 = 0 ∧ stopKind ((lone .saving).block 0).killed ((lone .saving).slot 0) = 2 ∧
      physKey 0 (0x90000 + 16 * 3) + 16 ≤ saveBase 0 ((lone .saving).slot 0).bind) ∧
    retirable (blockIn .retiring) 0 := by
  and_intros <;> decide +kernel

/-- No block is bound, and no interface samples. -/
theorem witness_Blocks_calm : (∀ h ∈ (blockIn .running).graphs, ∀ n ∈ h.nodes, n.stop = false) ∧ ((blockIn .running).die 0).bound = [] ∧
    ∀ j, ((blockIn .running).iface j).smpEnable = false := ⟨by decide, rfl, fun _ => rfl⟩

def ganged (y : Option Gang) (st : NodeState := .ready) (v : W64 := 0) : State :=
  let s := { (launching { startedNode with isGang := true, gang := y, state := st }) with time := 9 }
  let s := { s with graphs := s.graphs.map fun (g : Graph) => { g with guest := some 0 } }
  withArg (fun a => { a with pkg := 5, v := v }) s
def nodeOf (s : State) : Option (Option Gang) := (s.launchNode ⟨2, 0x500000000080, 0⟩).map (·.2.gang)

/-- The running graph of address space 2 comes from the image of digest 7, and another image of digest 8 has no graph to be read. -/
def withImages (s : State) : State :=
  withArg (fun a => { a with digest := 7 }) (s.setAsid 2 { s.asid 2 with graphs := [(0x500000000080, 7), (0x600000000000, 8)] })

theorem witness_Gangs :
    (graphOf machine 2 7 = none ∧ graphOf (withImages (ganged none)) 2 (withImages (ganged none)).arg.digest = some 0x500000000080) ∧
    (graphOf (withImages machine) 2 8 = some 0x600000000000 ∧ findGraph (withImages machine) 2 0x600000000000 = none ∧
      validate (withImages machine) ((withImages machine).obj 2 (addrObj 0x600000000000)).home 2 0x600000000000 0 = none) ∧
    machine.launchNode ⟨2, 0x500000000080, 0⟩ = none ∧
    ((withImages (ganged none .waiting)).launchNode ⟨2, 0x500000000080, 0⟩).map (fun p => (p.2.kind, p.2.isGang, p.2.state, p.2.gang)) =
      some (.launch, true, .waiting, none) ∧
    ((launching startedNode).launchNode ⟨2, 0x500000000080, 0⟩).map (fun p => p.2.isGang) = some false ∧
    (nodeOf (withImages (ganged none .waiting)) = some none ∧
      nodeOf (withImages (ganged (some { home := 7 }))) = some (some { home := 7 })) ∧
    (nodeOf (ganged none .waiting) = some none ∧ nodeOf (ganged (some { home := 0, others := [5, 6] })) = some (some { home := 0, others := [5, 6] })) ∧
    ((0 : Nat) = machine.pkgid.toNat ∧ 5 ∈ [5, 6] ∧ (255 : W64).toNat % 256 ≠ 0 ∧ (256 : W64).toNat % 256 = 0) ∧
    (let y : Gang := { home := 0, others := [5, 6], reported := [6], told := some 0 };
      y.told = some 0 ∧ y.final = none ∧ y.aborted = none ∧ (∀ q ∈ y.others, q = 5 ∨ q ∈ y.reported) ∧
        budgetSpent (startedGraph { startedNode with isGang := true, gang := some y }) 0 = false) ∧
    ((ganged none).time = 9 ∧ ({ home := 0, others := [5, 6], acked := [6], deadline := 9 } : Gang).deadline ≤ 9 ∧ 5 ∉ [6]) ∧
    (({ home := 7 } : Gang).home ≠ machine.pkgid.toNat ∧ (∀ g ∈ (ganged (some { home := 7 })).graphs, g.guest = some 0 ∧ g.gcompl = 0 ∧ ∀ n ∈ g.nodes, n.stop = false)) := by
  and_intros <;> decide +kernel

theorem witness_Gangs_calm (y : Option Gang) : ∀ e, ((ganged y).die e).bound = [] ∧ ((ganged y).die e).saved = [] := by
  intro e
  show (tget [(0, _)] e _ : Die).bound = [] ∧ (tget [(0, _)] e _ : Die).saved = []
  by_cases h : (0 : Nat) = e <;> simp [tget, h, State.die, machine, State.setSlot, State.setObj, State.setCore, State.reset]

/-- Tenant 0 has the expert entries 10 to 29 of each die; its address space 2 has a control queue, a wait queue and a combine queue
on die 0, a far-tier object 11, a read-only object 13, and a pool of two frames. -/
def expert : Ert := { eid := 9, valid := true, asid := 2, pool := 2, size := 1, wq := 0x00010029, src := 0xB00000000000, srcBase := 0x1000 }
def pool2 (free : List Nat) : Pool := { asid := 2, base := 0xD00000000000, fsize := 1, nf := 2, free := free }
def element (cmd idx eid addr w2 w3 w4 : Nat) : List W8 :=
  leBytes 8 (cmd * 2 ^ 56 + idx * 2 ^ 32 + eid) ++ leBytes 8 addr ++ leBytes 8 w2 ++ leBytes 8 w3 ++ leBytes 8 w4 ++ leBytes 24 0
def experts (e : Ert) (free : List Nat) (bs : List W8 := []) (fetches : List Fetch := []) (ps : Bool := true) : State :=
  let s := (withObj 11 farObj (withObj 13 { dataObj with w := false, exts := [⟨0, 1, true, false, 1, 128⟩] })).setIface 0 { ebase := 10, ecnt := 20 }
  let plain : Queue := { state := .active, tenant := 0, asid := 2, winM1 := 3 }
  let s := { s with
    erts := [(12, e), (13, { expert with eid := 10, state := .resident, frame := 1, lastuse := 5 })]
    pools := if ps then [(2, pool2 free)] else []
    qtt := [(2 * 65536 + 1, { gen := 7, rights := 0x3F, valid := true, pqid := 0x00010029 }), (2 * 65536 + 2, { gen := 7, rights := 0x3F, valid := true, pqid := 0x0001002A })]
    queues := [(queueKey 0 1 40, { plain with esize := 2, head := 5, tail := 6, slots := [(5, .filled bs)] }),
      (queueKey 0 1 41, { plain with tail := 1, slots := [(0, .granted (.fetch 0 70))] }), (queueKey 0 1 42, { plain with kind := 2, esize := 2, fanin := 2 })] }
  let s := s.setAsid 2 { s.asid 2 with inUse := true, ctrlQ := [(0, 0x00010028)] }
  withArg (fun a => { a with asid := 2, idx := if fetches.isEmpty then 12 else 70 }) (s.setDie 0 { s.die 0 with fetches := fetches })
def registerCmd : List W8 := element 1 12 9 0xB00000000000 (1 * 2 ^ 32 + 2 * 2 ^ 16) 0x70001 0
def splitCmd : List W8 := element 3 12 9 0 (1 * 2 ^ 32) 0 (1 * 2 ^ 53 + 1 * 2 ^ 50 + 0x70002)
def poolCmd : List W8 := element 6 2 0 0xD00000000000 (1 * 2 ^ 32 + 1) 0 0
def fetching (st : FetchStep) : Fetch := { id := 70, idx := 12, demand := true, seq := 0, step := st }

theorem witness_Experts :
    (tfind ((experts expert []).asid 2).ctrlQ 0 = some 0x00010028 ∧ dieOnline (experts expert []) 0 ∧ ctrlBusy (experts expert []) 0 2 = false ∧
      ((experts expert [] registerCmd).qref (qrefOf 0x00010028)).slot 5 = .filled registerCmd) ∧
    (∀ bs ∈ [registerCmd, splitCmd, poolCmd], (parseCtrl bs).bad = false ∧ (parseCtrl bs).compl = 0) ∧
    (ctrlCheck (experts {} [] registerCmd) 0 2 (parseCtrl registerCmd) = none ∧ tfind (experts {} []).pools (poolKey 0 (tenantOf 2) 2) = some (pool2 []) ∧
      queueIs (experts {} []) 0x00010029 0 (fun z => z.kind == 0 && z.esizeB == 16) ∧ farHolds (experts {} []) 2 0xB00000000000 4096 ∧ farObj.r = true) ∧
    (ctrlCheck (experts expert [] splitCmd) 0 2 (parseCtrl splitCmd) = none ∧ ((experts expert []).qref (qrefOf 0x0001002A)).kind = 2 ∧
      pqPkg 0x0001002A = machine.pkgid ∧ qrefOf 0x0001002A ≠ qrefOf 0x00010028) ∧
    ((∀ y ∈ (experts {} [] poolCmd).erts, y.2.valid → y.2.tenant.toNat = 0 → y.2.pool.toNat ≠ 3) ∧ addrOff 0xD00000000000 + 2 * 1 * 4096 ≤ 8192) ∧
    ((experts expert [] [] [fetching .ready]).fetch 0 70 = some (fetching .ready) ∧ (experts expert []).pool 0 expert = some (pool2 []) ∧
      nextFetch (experts expert [] [] [fetching .ready]) 0 = some (fetching .ready) ∧ victimOf (experts expert []) 0 expert = some 13) ∧
    victimOf { experts expert [] with erts := [(12, expert)] } 0 expert = none ∧
    (sourceGood (experts expert []) { expert with srcBase := 0 } 0 = false ∧ sourceGood (experts expert []) expert 0) ∧
    (homeFault (experts expert []) (waitRef expert) = none ∧ ((experts expert []).qref (waitRef expert)).slot 0 = .granted (.fetch 0 70) ∧
      ((((experts expert []).qref (waitRef expert)).slot 0).ready = false)) ∧
    objByteAddr { dataObj with w := false, exts := [⟨0, 1, true, false, 1, 128⟩] } 4096 = some (129 * 4096) := by
  and_intros
  all_goals decide +kernel

theorem witness_Experts_translates : translate (experts {} []) 2 0x70001 rEnq = .ok 0x00010029 ∧ translate (experts expert []) 2 0x70002 rMerge = .ok 0x0001002A :=
  ⟨rfl, rfl⟩

/-- An expert operation of the group at the controller, with an operation after it that is still outstanding. -/
def served (kind : XKind) (xs : List XLane) : State :=
  withArg (fun a => { a with idx := 7, lanes := 0xFFFFFFFF })
    (withGroup (fun g => { g with outst := [⟨7, 9, .expert kind xs 3, none⟩, ⟨8, 9, .wait, none⟩] }) ((experts expert [0]).setIface 3 { ebase := 10, ecnt := 20 }))
def expertLane (l : Nat) (idx : W16) (eid : W32) (token : W32 := 4) : XLane := ⟨l, idx, eid, 0x10000, token, 0, 0⟩

theorem witness_Experts_controller :
    (∀ p ∈ [(XKind.look true 3, [expertLane 0 13 10, expertLane 31 12 9]), (.drop, [expertLane 0 13 10]), (.park 9, [expertLane 0 12 9]),
        (.fetch, [expertLane 0 12 9]), (.pin 9, [expertLane 0 13 10]), (.unpin, [expertLane 0 13 10]), (.stat 9, [expertLane 0 12 9])],
      Names (served p.1 p.2) (served p.1 p.2).grp ⟨7, 9, .expert p.1 p.2 3, none⟩ ∧ Quiet (served p.1 p.2).grp ∧
      (∀ x ∈ p.2, expertCode (served p.1 p.2) 0 (served p.1 p.2).grp.bind.tenant (served p.1 p.2).grp.bind.asid x.idx x.eid = none) ∧
      (served p.1 p.2).grp.outst.filter (fun x => x.id != 7) ≠ []) ∧
    -- an entry outside the range, one that is not valid, another expert, and a token that marks a landing record
    (let s := served .drop [expertLane 0 40 9]
     (40 : W16).toNat ≥ (s.iface 3).ebase.toNat + (s.iface 3).ecnt.toNat ∧ (s.ert 0 14).valid = false ∧ (s.ert 0 13).eid ≠ 9 ∧
      (s.ert 0 12).state = .absent ∧ (s.ert 0 13).state = .resident ∧ (s.block (leadOf 0 s.grp)).holds.Nodup ∧
      [expertLane 0 12 9 0xFFFFFFFF].filter (fun x => x.token == 0xFFFFFFFF) ≠ [] ∧
      -- a wait queue with room, and no other that waits there
      homeFault s (waitRef expert) = none ∧ (s.qref (waitRef expert)).kind = 0 ∧ (s.qref (waitRef expert)).esize = 0 ∧ expert.wait ≤ 0xFFFFFF ∧
      (s.die 0).fetches = [] ∧ (s.port (waitRef expert).pkey).sleepers = [] ∧ pinFull s 0 12 expert = false ∧
      pinFull { s with pools := [] } 0 12 expert) := by
  and_intros
  · intro p hp
    simp only [List.mem_cons, List.not_mem_nil, or_false] at hp
    obtain rfl | rfl | rfl | rfl | rfl | rfl | rfl := hp
    all_goals
      and_intros
      all_goals first
        | decide +kernel
        | (apply names_of; decide)
        | (apply quiet_of <;> decide)
  all_goals decide +kernel

/-- A dispatch that has ended and completes on the counter of `copyCounter`. -/
def ended : State := ((scattered.setBlock 0 { scattered.block 0 with tl := [(0, 0x0005820000000005)] }).setDie 0
  { scattered.die 0 with dispatches := (scattered.die 0).dispatches.map fun x => { x with finished := some true } })

theorem witness_Experts_dispatch :
    ((ended.disp 0 9).map fun z => (z.finished, z.withdrawn, z.num)) = some (some true, false, 6) ∧
    (6 : BitVec 40).toNat = (bitsOf (tget (ended.block 0).tl 0 0).toNat 39 0 + 1) % 2 ^ 40 ∧
    1 ≤ bitsOf (tget (ended.block 0).tl 0 0).toNat 46 40 ∧ (ended.block 0).fin = [] := by decide +kernel

set_option maxRecDepth 20000 in
/-- The operands of `witness_PrefetchAndTranslationRegisters`, `witness_CopyIssue` and `witness_MergesFencesAndDispatches`, here together. -/
theorem witness_GroupsGoOn :
    (okV machine.grp 15 ∧ okS machine.grp 0 ∧ activeSet machine.grp ⟨false, 0⟩ = 0xFFFFFFFF) ∧
    (let s := withScalars [0x500000001FFF];
      let n := (getS s.grp 0).toNat / 2 ^ 44;
      let off := (getS s.grp 0).toNat % 2 ^ 44;
      n = 5 ∧ (s.obj 2 n).state = .valid ∧ (s.obj 2 n).kind = .die ∧ (s.obj 2 n).home = slotDie s.cur ∧ off < (s.obj 2 n).bound ∧
        extentAt (s.obj 2 n) off = some ⟨0, 1, true, false, 1, 32⟩) ∧
    (let s := withScalars [0x500000000040];
      s.grp.phase = none ∧ blockCopies s s.lead < 16 ∧ bitsOf (tget (s.block s.lead).tl 1 0).toNat 46 40 ≠ 127 ∧
        recWalk s 0 2 (getS s.grp 0) 192 = .ok ((List.range 192).map (32 * 4096 + 0x40 + ·)) ∧
        ∀ x ∈ (List.range 192).map (32 * 4096 + 0x40 + ·), poisoned s 0 0 x = false) ∧
    (queues.grp.flows = [] ∧ queues.grp.fence = none ∧ queues.grp.phase = none ∧ anyHeld queues.grp = false ∧ outstFull queues.grp = false ∧
      okElem queues.grp 14 4 ∧ (getS queues.grp 7).toNat < 256 ∧ translate queues 2 ((getS queues.grp 0).setWidth 32) rMerge = .ok 0x00010003 ∧
      unreachable queues 0 0x00010003 = false) := by
  and_intros <;> first | decide +kernel | rfl

/-! ### Witnesses: encodings, issue and the whole machine -/

/-- A line of five words under version 1, with its parity. -/
def lineOfWords (ws : List Nat) (top : Nat := 2 ^ 17 + 31 * 2 ^ 12) : Nat :=
  let body := (ws.mapIdx fun i w => w * 2 ^ (96 * i)).foldl (· + ·) 0
  body + 2 ^ 480 * (top + stripeParity body)

/-- Core 0 has the next turn, and the group of slot 0 stands at slot 1 of a line that holds the given word there. -/
def atWord (w : Nat) (top : Nat := 2 ^ 17 + 31 * 2 ^ 12) (flip : Nat := 0) (f : Slot → Slot := id) : State :=
  let s := { machine with mem := memStore [] (16 * 4096 + 64) (leBytes 64 (lineOfWords [0, w, 0, 0, 0] top ^^^ flip)) }
  let s := withGroup (fun g => f { g with pc := 0x100000000041, last := some 1 }) s
  let s := s.setSlot 1 { s.slot 1 with last := some 2 }
  let s := s.setDie 0 { s.die 0 with clock := 50 }
  { s with agenda := [.core 0 0] }
def tried (s : State) : State := (phased { s with agenda := [] } 0).foldl settle (beginCycle { s with agenda := [] } 0)
def lineAt (s : State) : List W8 := fetchLine (tried s) 0 2 ((tried s).slot 0).pc
def lineFailsAt (s : State) : Bool := lineFails (turnTo (tried s) 0) (lineAt s)
def theAdd : Instr := .saddImm ⟨false, .i32, 5, 6, 100⟩
def theAddWord : Nat := 0x010005060120000000000064

theorem witness_EncodingRoundTrip : theAdd.wf = true ∧ encode theAdd = some 0x010005060120000000000064 ∧ theAdd ∉ deviceEvents ∧
    Instr.scrub ∈ deviceEvents ∧ deviceEvents.length = 157 := by decide +kernel

theorem witness_StepRunsDecodedInstruction :
    (atWord theAddWord).agenda = [.core 0 0] ∧ pickGroup (tried (atWord theAddWord)) 0 [] = some 0 ∧
    hadCycle { atWord theAddWord with agenda := [] } 0 = false ∧
    (let s := (atWord theAddWord).setCore 0 { (atWord theAddWord).core 0 with cycle := some 50 };
      s.agenda = .core 0 0 :: [] ∧ hadCycle { s with agenda := [] } 0) ∧
    fetchFault (tried (atWord theAddWord)) 0 2 0x100000000041 = none ∧ lineFailsAt (atWord theAddWord) = false ∧
    ((tried (atWord theAddWord)).slot 0).count < 8192 ∧ lineReserved (lineAt (atWord theAddWord)) = false ∧ (0x100000000041 : W64).toNat % 8 ≤ 4 ∧
    lineVer (lineAt (atWord theAddWord)) = 1 ∧ (decode (lineSlot (lineAt (atWord theAddWord)) 1)).toOption = some theAdd := by
  and_intros <;> decide +kernel

/-- The step of that state adds 100 to s6: 5 into s5, and goes on to slot 2 of the line. -/
def stepped : Option State :=
  match step (atWord theAddWord 0x3F000 0 fun g => { g with s := [(6, 5)] }) with
  | .next t => some t
  | _ => none

theorem test_step_runs : (stepped.map fun t => ((t.slot 0).pc, getS (t.slot 0) 5, getS (t.slot 0) 6, t.agenda)) =
    some (0x100000000042, 105, 5, []) := by decide +kernel

theorem witness_FetchTraps :
    (fetchFault (tried (atWord theAddWord)) 0 2 0x100000000041 = none ∧ lineFailsAt (atWord theAddWord 0x3F000 8)) ∧
    (pickGroup (tried (atWord theAddWord 0x3F000 0 fun g => { g with pc := 0x900000000000 })) 0 [] = some 0 ∧ addrObj (0x900000000000 : W64) ≠ 0 ∧
      (machine.obj 2 9).state = .invalid) ∧
    ((machine.obj 2 1).bound < addrOff (lineOf 0x100000001001) + 64 ∧ addrOff (lineOf 0x100000000FC1) + 64 ≤ (machine.obj 2 1).bound) ∧
    ((machine.obj 2 1).x = true ∧ extentIn (codeExts { codeObj with exts := [] } 0) 0x40 = none) ∧
    (lineReserved (lineAt (atWord theAddWord 0x13F000)) ∧ lineVer (lineAt (atWord theAddWord 0x5F000)) ≠ 1 ∧ 4 < (0x100000000045 : W64).toNat % 8) ∧
    (lineFailsAt (atWord 0xFF0000000000000000000000) = false ∧ (decode 0xFF0000000000000000000000).toOption = none) := by
  and_intros <;> decide +kernel

def aTrap : Trap := { cause := 0x05, fpc := 0x100000000000, rpc := 0x100000000000 }
theorem witness_TrapEntry :
    (aTrap.fpc = (trapping machine).grp.pc ∧ handlerReady (trapping machine)) ∧
    (withGroup fun g => { g with inHandler := true }).grp.inHandler = true ∧
    (machine.grp.inHandler = false ∧ machine.trapv machine.grp.bind = 0 ∧ machine.grp.inner = none) ∧
    (ringRoom ((blockIn .running).die 0) ∧ ((blockIn .running).die 0).halted = none ∧ ringRoom ((blockIn .running false).die 0) = false) := by decide

theorem witness_UnallocatedRegisters :
    machine.grp.bind.sregs.toNat ≤ (12 : SReg).toNat ∧ machine.grp.bind.sregs.toNat ≤ (63 : SReg).toNat ∧
    16 * machine.grp.bind.vreg16.toNat ≤ (16 : VReg).toNat ∧ machine.grp.bind.tiles.toNat ≤ (4 : TReg).toNat ∧
    -- the last register of each kind has no second
    machine.grp.bind.sregs.toNat ≤ (11 : SReg).toNat + 1 ∧ 16 * machine.grp.bind.vreg16.toNat ≤ (15 : VReg).toNat + 1 ∧
    machine.grp.bind.tiles.toNat ≤ (3 : TReg).toNat + 1 := by decide

/-- A state that no run from reset is needed for: its memory holds a byte, and the next step is a store's publish. -/
theorem witness_MemoriesStaySound : (Memory.wf publishing.mem = true ∧ Memory.wf publishing.scr = true ∧ Memory.wf publishing.far = true ∧
    Memory.wf publishing.hostMem = true) ∧ (Memory.wf (atWord theAddWord).mem = true) ∧ stepped.isSome := by
  and_intros <;> decide +kernel

/-! ### Words written out from the encoding tables

Each word below is laid out by hand from the field tables of the instruction's format and its row of the opcode
tables, with the operands beside it; together they cover every instruction of Unori version 1. -/

/-- Every word of the list decodes to the instruction beside it. -/
def decodesAll (l : List (BitVec 96 × Instr)) : Bool :=
  l.all fun p => decide ((decode p.1).toOption = some p.2)

theorem test_decode_scalar_0 : decodesAll [
    (0x800000000000000000000000, .nop true),
    (0x80003D211200011000000000, .sadd ⟨true, .i16, 61, 33, 18⟩),
    (0x0100222F01100000FFFF8001, .saddImm ⟨false, .i16, 34, 47, 0xFFFF8001⟩),
    (0x80003D211200026000000000, .ssub ⟨true, .n32, 61, 33, 18⟩),
    (0x0100222F02600000FFFF0001, .ssubImm ⟨false, .n32, 34, 47, 0xFFFF0001⟩),
    (0x80003D211200039000000000, .smul ⟨true, .b64, 61, 33, 18⟩),
    (0x0100222F03900000F0000003, .smulImm ⟨false, .b64, 34, 47, 0xF0000003⟩),
    (0x80003D211200042000000000, .smulh ⟨true, .i32, 61, 33, 18⟩),
    (0x0100222F0420000080000001, .smulhImm ⟨false, .i32, 34, 47, 0x80000001⟩),
    (0x80003D211200050000000000, .sdiv ⟨true, .i8, 61, 33, 18⟩),
    (0x0100222F05000000FFFFFF80, .sdivImm ⟨false, .i8, 34, 47, 0xFFFFFF80⟩),
    (0x80003D211200065000000000, .srem ⟨true, .n16, 61, 33, 18⟩),
    (0x0100222F0650000000008002, .sremImm ⟨false, .n16, 34, 47, 0x8002⟩),
    (0x80003D211200074000000000, .smin ⟨true, .n8, 61, 33, 18⟩),
    (0x0100222F07400000000000FE, .sminImm ⟨false, .n8, 34, 47, 0xFE⟩),
    (0x80003D211200082000000000, .smax ⟨true, .i32, 61, 33, 18⟩),
    (0x0100222F0820000080000001, .smaxImm ⟨false, .i32, 34, 47, 0x80000001⟩),
    (0x80003D211200099000000000, .sand ⟨true, .b64, 61, 33, 18⟩),
    (0x0100222F09900000F0000003, .sandImm ⟨false, .b64, 34, 47, 0xF0000003⟩),
    (0x80003D2112000A9000000000, .sor ⟨true, .b64, 61, 33, 18⟩)] = true := by decide +kernel

theorem test_decode_scalar_1 : decodesAll [
    (0x0100222F0A900000F0000003, .sorImm ⟨false, .b64, 34, 47, 0xF0000003⟩),
    (0x80003D2112000B9000000000, .sxor ⟨true, .b64, 61, 33, 18⟩),
    (0x0100222F0B900000F0000003, .sxorImm ⟨false, .b64, 34, 47, 0xF0000003⟩),
    (0x80003D2112000C9000000000, .sshl ⟨true, .b64, 61, 33, 18⟩),
    (0x0100222F0C9000000000003F, .sshlImm ⟨false, .b64, 34, 47, 0x3F⟩),
    (0x80003D2112000D9000000000, .sshr ⟨true, .b64, 61, 33, 18⟩),
    (0x0100222F0D9000000000003F, .sshrImm ⟨false, .b64, 34, 47, 0x3F⟩),
    (0x80003D2112000E9000000000, .ssra ⟨true, .b64, 61, 33, 18⟩),
    (0x0100222F0E9000000000003F, .ssraImm ⟨false, .b64, 34, 47, 0x3F⟩),
    (0x80003D2112000F9000000000, .srotl ⟨true, .b64, 61, 33, 18⟩),
    (0x0100222F0F9000000000003F, .srotlImm ⟨false, .b64, 34, 47, 0x3F⟩),
    (0x80003D211200156000000000, .sofs ⟨true, .n32, 61, 33, 18⟩),
    (0x0100222F15600000FFFF0001, .sofsImm ⟨false, .n32, 34, 47, 0xFFFF0001⟩),
    (0x8000320C0000109000000000, .sclz ⟨true, 50, 12⟩),
    (0x0000320C0000119000000000, .spopc ⟨false, 50, 12⟩),
    (0x8000320C0000149000000000, .smov ⟨true, 50, 12⟩),
    (0x000001020304129000000000, .ssel ⟨false, 1, 2, 3, 4⟩),
    (0x810001021290000380000005, .sselImm ⟨true, 1, 2, 3, 0x80000005⟩),
    (0x800005060700134006000000, .scmp ⟨true, .n8, .ge, 5, 6, 7⟩),
    (0x0100050613000300FFFFFFFF, .scmpImm ⟨false, .i8, .lt, 5, 6, 0xFFFFFFFF⟩)] = true := by decide +kernel

theorem test_decode_scalar_2 : decodesAll [
    (0x02002800FEDCBA9876543210, .smovImm64 ⟨false, 40, 0xFEDCBA9876543210⟩)] = true := by decide +kernel

theorem test_decode_masks_0 : decodesAll [
    (0x00010F090600000000000000, .mand ⟨false, 15, 9, 6⟩),
    (0x80010F090600010000000000, .mor ⟨true, 15, 9, 6⟩),
    (0x00010F090600020000000000, .mxor ⟨false, 15, 9, 6⟩),
    (0x80010F090600030000000000, .mandn ⟨true, 15, 9, 6⟩),
    (0x00010D0B0000040000000000, .mnot ⟨false, 13, 11⟩),
    (0x80010D0B0000050000000000, .mmov ⟨true, 13, 11⟩),
    (0x82000E010000000089ABCDEF, .mmovImm64 ⟨true, 14, 0x89ABCDEF⟩),
    (0x000107000000060000000000, .mrdem ⟨false, 7⟩),
    (0x800100070000070000000000, .mwrem ⟨true, 7⟩),
    (0x00013E050000080000000000, .mpopc ⟨false, 62, 5⟩),
    (0x80013D060000090000000000, .mffs ⟨true, 61, 6⟩),
    (0x00010A3C00000A0000000000, .mfroms ⟨false, 10, 60⟩),
    (0x00013B0800000B0000000000, .mtos ⟨false, 59, 8⟩)] = true := by decide +kernel

theorem test_decode_control_0 : decodesAll [
    (0x0400110000500000FFFFFFF4, .br ⟨false, some .gt, 17, 0x1FFFFFFE, 4⟩),
    (0x840000000000000080000001, .br ⟨true, none, 0, 0x10000000, 1⟩),
    (0x84000300010000000000004B, .brmz ⟨true, 3, 9, 3⟩),
    (0x04000C0002000000FFFFFFFA, .brmnz ⟨false, 12, 0x1FFFFFFF, 2⟩),
    (0x040000140300000000000038, .call ⟨false, 20, 7, 0⟩),
    (0x840014000400000000000000, .ret ⟨true, 20⟩),
    (0x040015000500000000000000, .jmp ⟨false, 21⟩),
    (0x0700C8000000000000000000, .srd ⟨false, .lane, 0, 200⟩),
    (0x8700C8000001000000000000, .srd ⟨true, .quarter, 0, 200⟩),
    (0x07003C000002000000000000, .srd ⟨false, .group, 0, 60⟩),
    (0x87003C000003000000000000, .srd ⟨true, .block, 0, 60⟩),
    (0x07003C000004000000000000, .srd ⟨false, .core, 0, 60⟩),
    (0x87003C000005000000000000, .srd ⟨true, .die, 0, 60⟩),
    (0x07003C000006000000000000, .srd ⟨false, .pkg, 0, 60⟩),
    (0x87003C000007000000000000, .srd ⟨true, .clock, 0, 60⟩),
    (0x0700C8000008000000000000, .srd ⟨false, .fflags, 0, 200⟩),
    (0x8700C8000009000000000000, .srd ⟨true, .iflags, 0, 200⟩),
    (0x07003C00000A1F0000000000, .srd ⟨false, .trap, 31, 60⟩),
    (0x87003C00000B000000000000, .srd ⟨true, .safe, 0, 60⟩),
    (0x870000FA0108000000000000, .swr ⟨true, .fflags, 250⟩)] = true := by decide +kernel

theorem test_decode_control_1 : decodesAll [
    (0x0700003F0109000000000000, .swr ⟨false, .iflags, 63⟩),
    (0x07010000000000000000BEEF, .safept ⟨false, 0xBEEF⟩),
    (0x870100000100000000000000, .exit true),
    (0x070100000200000000001F0E, .sbwait ⟨false, 14, 31⟩),
    (0x870100000300000000001001, .sbmark ⟨true, 1, 16⟩),
    (0x0701000004000000000000A5, .trap ⟨false, 0xA5⟩),
    (0x070100000500000000000000, .tret false),
    (0x8701002C0600000000000000, .tretReg ⟨true, 44⟩),
    (0x070100000700000000000000, .brk false)] = true := by decide +kernel

theorem test_decode_vector_int_0 : decodesAll [
    (0x480282C94D00000300000000, .vadd ⟨⟨false, 9⟩, .i8, true, true, 130, 201, 77⟩),
    (0xB10283CA00030000FFFFFF80, .vaddImm ⟨⟨true, 6⟩, .i8, true, true, 131, 202, 0xFFFFFF80⟩),
    (0x480282C94D00015200000000, .vsub ⟨⟨false, 9⟩, .n16, true, false, 130, 201, 77⟩),
    (0xB10283CA0152000000008002, .vsubImm ⟨⟨true, 6⟩, .n16, true, false, 131, 202, 0x8002⟩),
    (0x480282C94D00028100000000, .vmul ⟨⟨false, 9⟩, .b32, false, true, 130, 201, 77⟩),
    (0xB10283CA02810000F0F0F0F1, .vmulImm ⟨⟨true, 6⟩, .b32, false, true, 131, 202, 0xF0F0F0F1⟩),
    (0x480282C94D00038000000000, .vmulh ⟨⟨false, 9⟩, .b32, false, false, 130, 201, 77⟩),
    (0xB10283CA03800000F0F0F0F1, .vmulhImm ⟨⟨true, 6⟩, .b32, false, false, 131, 202, 0xF0F0F0F1⟩),
    (0x480282C94D00052100000000, .vdiv ⟨⟨false, 9⟩, .i32, false, true, 130, 201, 77⟩),
    (0xB10283CA0521000080000001, .vdivImm ⟨⟨true, 6⟩, .i32, false, true, 131, 202, 0x80000001⟩),
    (0x480282C94D00064000000000, .vrem ⟨⟨false, 9⟩, .n8, false, false, 130, 201, 77⟩),
    (0xB10283CA06400000000000FE, .vremImm ⟨⟨true, 6⟩, .n8, false, false, 131, 202, 0xFE⟩),
    (0x480282C94D00071100000000, .vmin ⟨⟨false, 9⟩, .i16, false, true, 130, 201, 77⟩),
    (0xB10283CA07110000FFFF8001, .vminImm ⟨⟨true, 6⟩, .i16, false, true, 131, 202, 0xFFFF8001⟩),
    (0x480282C94D00086000000000, .vmax ⟨⟨false, 9⟩, .n32, false, false, 130, 201, 77⟩),
    (0xB10283CA08600000FFFF0001, .vmaxImm ⟨⟨true, 6⟩, .n32, false, false, 131, 202, 0xFFFF0001⟩),
    (0x480282C94D000B8100000000, .vand ⟨⟨false, 9⟩, .b32, false, true, 130, 201, 77⟩),
    (0xB10283CA0B810000F0F0F0F1, .vandImm ⟨⟨true, 6⟩, .b32, false, true, 131, 202, 0xF0F0F0F1⟩),
    (0x480282C94D000C8000000000, .vor ⟨⟨false, 9⟩, .b32, false, false, 130, 201, 77⟩),
    (0xB10283CA0C800000F0F0F0F1, .vorImm ⟨⟨true, 6⟩, .b32, false, false, 131, 202, 0xF0F0F0F1⟩)] = true := by decide +kernel

theorem test_decode_vector_int_1 : decodesAll [
    (0x480282C94D000D8100000000, .vxor ⟨⟨false, 9⟩, .b32, false, true, 130, 201, 77⟩),
    (0xB10283CA0D810000F0F0F0F1, .vxorImm ⟨⟨true, 6⟩, .b32, false, true, 131, 202, 0xF0F0F0F1⟩),
    (0x480282C94D000F2000000000, .vshl ⟨⟨false, 9⟩, .i32, false, false, 130, 201, 77⟩),
    (0xB10283CA0F2000000000001F, .vshlImm ⟨⟨true, 6⟩, .i32, false, false, 131, 202, 0x1F⟩),
    (0x480282C94D00108100000000, .vshr ⟨⟨false, 9⟩, .b32, false, true, 130, 201, 77⟩),
    (0xB10283CA108100000000001F, .vshrImm ⟨⟨true, 6⟩, .b32, false, true, 131, 202, 0x1F⟩),
    (0x480282C94D00115000000000, .vsra ⟨⟨false, 9⟩, .n16, false, false, 130, 201, 77⟩),
    (0xB10283CA115000000000001F, .vsraImm ⟨⟨true, 6⟩, .n16, false, false, 131, 202, 0x1F⟩),
    (0xF80280402010044200000000, .vmad ⟨⟨true, 15⟩, .n8, true, false, 128, 64, 32, 16⟩),
    (0x090280400411002000007FFF, .vmadImm ⟨⟨false, 1⟩, .i16, false, true, 128, 64, 32, 0x7FFF⟩),
    (0x10025B5C0000090200000000, .vabs ⟨⟨false, 2⟩, .i8, true, false, 91, 92⟩),
    (0x90025B5C00000A6100000000, .vneg ⟨⟨true, 2⟩, .n32, false, true, 91, 92⟩),
    (0x10025B5C00000E8100000000, .vnot ⟨⟨false, 2⟩, .b32, false, true, 91, 92⟩),
    (0x90025B5C0000128000000000, .vclz ⟨⟨true, 2⟩, .b32, false, false, 91, 92⟩),
    (0x10025B5C0000138100000000, .vpopc ⟨⟨false, 2⟩, .b32, false, true, 91, 92⟩),
    (0x90025B5C0000168100000000, .vmov ⟨⟨true, 2⟩, .b32, false, true, 91, 92⟩),
    (0x18020A0B0C0D148100000000, .vsel ⟨⟨false, 3⟩, true, 10, 11, 12, 13⟩),
    (0xA0020EC86400151004000000, .vcmp ⟨⟨true, 4⟩, .i16, .le, 14, 200, 100⟩),
    (0x21020FC8155002000000FFFF, .vcmpImm ⟨⟨false, 4⟩, .n16, .ne, 15, 200, 0xFFFF⟩),
    (0xA802DE3C0000178000000000, .vmovs ⟨⟨true, 5⟩, 222, 60⟩)] = true := by decide +kernel

theorem test_decode_vector_fp_0 : decodesAll [
    (0x40030908070000A600000000, .vfadd ⟨⟨false, 8⟩, .rz, true, false, 9, 8, 7⟩),
    (0xC103090800A60000BF800001, .vfaddImm ⟨⟨true, 8⟩, .rz, true, false, 9, 8, 0xBF800001⟩),
    (0x40030908070001A900000000, .vfsub ⟨⟨false, 8⟩, .ru, false, true, 9, 8, 7⟩),
    (0xC103090801A90000BF800001, .vfsubImm ⟨⟨true, 8⟩, .ru, false, true, 9, 8, 0xBF800001⟩),
    (0x40030908070002AF00000000, .vfmul ⟨⟨false, 8⟩, .rd, true, true, 9, 8, 7⟩),
    (0xC103090802AF0000BF800001, .vfmulImm ⟨⟨true, 8⟩, .rd, true, true, 9, 8, 0xBF800001⟩),
    (0x40030908070004A100000000, .vfmin ⟨⟨false, 8⟩, .rn, false, true, 9, 8, 7⟩),
    (0xC103090804A10000BF800001, .vfminImm ⟨⟨true, 8⟩, .rn, false, true, 9, 8, 0xBF800001⟩),
    (0x40030908070005A000000000, .vfmax ⟨⟨false, 8⟩, .rn, false, false, 9, 8, 7⟩),
    (0xC103090805A00000BF800001, .vfmaxImm ⟨⟨true, 8⟩, .rn, false, false, 9, 8, 0xBF800001⟩),
    (0x60030102030403AF00000000, .vffma ⟨⟨false, 12⟩, .rd, true, true, 1, 2, 3, 4⟩),
    (0xE103010203A5000340490FDB, .vffmaImm ⟨⟨true, 12⟩, .rz, false, true, 1, 2, 3, 0x40490FDB⟩),
    (0x08031516000006A100000000, .vfabs ⟨⟨false, 1⟩, .f32, false, true, 21, 22⟩),
    (0x88031516000007A100000000, .vfneg ⟨⟨true, 1⟩, .f32, false, true, 21, 22⟩),
    (0x08030316170008A007000000, .vfcmp ⟨⟨false, 1⟩, .f32, .un, 3, 22, 23⟩),
    (0x0903031608A001007F800000, .vfcmpImm ⟨⟨false, 1⟩, .f32, .eq, 3, 22, 0x7F800000⟩),
    (0x08041415000000D20A000000, .vcvt ⟨⟨false, 1⟩, .e4m3, .f32, .rn, true, false, 20, 21⟩),
    (0x80041415000000190C000000, .vcvt ⟨⟨true, 0⟩, .i16, .f16, .ru, false, true, 20, 21⟩),
    (0x00052832000000A000000000, .vex2 ⟨⟨false, 0⟩, .rn, 40, 50⟩),
    (0x88052933000001A400000000, .vlg2 ⟨⟨true, 1⟩, .rz, 41, 51⟩)] = true := by decide +kernel

theorem test_decode_vector_fp_1 : decodesAll [
    (0x10052A34000002A800000000, .vrcp ⟨⟨false, 2⟩, .ru, 42, 52⟩),
    (0x98052B35000003AC00000000, .vrsq ⟨⟨true, 3⟩, .rd, 43, 53⟩),
    (0x20052C36000004A000000000, .vsqrt ⟨⟨false, 4⟩, .rn, 44, 54⟩),
    (0xB8050405060005A800000000, .vfdiv ⟨⟨true, 7⟩, .ru, 4, 5, 6⟩)] = true := by decide +kernel

theorem test_decode_cross_lane_0 : decodesAll [
    (0x980604050600008000000000, .vperm ⟨⟨true, 3⟩, 4, 5, 6⟩),
    (0x180607080900018000000000, .vbcast ⟨⟨false, 3⟩, 7, 8, 9⟩),
    (0x18060708000002AC20000000, .vscan ⟨⟨false, 3⟩, .f32, .rd, .add, true, false, 7, 8⟩),
    (0x800607080000021015000000, .vscan ⟨⟨true, 0⟩, .i16, .rn, .xor, false, true, 7, 8⟩),
    (0x98060708000003A412000000, .vred ⟨⟨true, 3⟩, .f32, .rz, .max, true, 7, 8⟩),
    (0x880608020300045020000000, .vtopk ⟨⟨true, 1⟩, .n16, 32, 8, 2, 3⟩),
    (0x08060802000005801D000000, .vhist ⟨⟨false, 1⟩, 29, 8, 2⟩),
    (0x80070C0D040600A000000000, .vdraw ⟨⟨true, 0⟩, 12, 13, 4, 6⟩),
    (0x10070C0D0E3E010000000000, .dmerge ⟨⟨false, 2⟩, 12, 13, 14, 62⟩),
    (0xA80800000000000000000000, .wclr ⟨true, 5⟩),
    (0x2808004D000001A000000000, .wadd ⟨⟨false, 5⟩, 77⟩),
    (0x2808004D4E0002B000000000, .wdot ⟨⟨false, 5⟩, 77, 78⟩),
    (0x28084F00000003BA00000000, .wrnd ⟨⟨false, 5⟩, true, .ru, true, 79⟩),
    (0x28084F00000003A400000000, .wrnd ⟨⟨false, 5⟩, false, .rz, false, 79⟩),
    (0x280850000000040000000000, .wget ⟨⟨false, 5⟩, 80⟩),
    (0xA80800510000050000000000, .wset ⟨⟨true, 5⟩, 81⟩)] = true := by decide +kernel

theorem test_decode_memory_0 : decodesAll [
    (0x1300640F6500E000FFFFFF00, .vld ⟨⟨false, 2⟩, .e5m2, 100, 15, 101, false, 0xFFFFFF00⟩),
    (0x9301640F6500C000FFFFFF00, .vst ⟨⟨true, 2⟩, .f16, 100, 15, 101, false, 0xFFFFFF00⟩),
    (0x13036400000008000003FFFC, .vlds ⟨⟨false, 2⟩, .i8, 100, 0, true, 0x3FFFC⟩),
    (0x93046400000088000003FFFC, .vsts ⟨⟨true, 2⟩, .b32, 100, 0, true, 0x3FFFC⟩),
    (0x0B0236033880600000000040, .vatom ⟨⟨false, 1⟩, .add, .n32, true, 54, 3, 56, false, 0, 64⟩),
    (0x8B0236033801803700000040, .vatom ⟨⟨true, 1⟩, .and, .b32, false, 54, 3, 56, false, 55, 64⟩),
    (0x0B0236033802803700000040, .vatom ⟨⟨false, 1⟩, .or, .b32, false, 54, 3, 56, false, 55, 64⟩),
    (0x8B0236033883800000000040, .vatom ⟨⟨true, 1⟩, .xor, .b32, true, 54, 3, 56, false, 0, 64⟩),
    (0x0B0236033804203700000040, .vatom ⟨⟨false, 1⟩, .min, .i32, false, 54, 3, 56, false, 55, 64⟩),
    (0x8B0236033805603700000040, .vatom ⟨⟨true, 1⟩, .max, .n32, false, 54, 3, 56, false, 55, 64⟩),
    (0x0B0236033806803700000040, .vatom ⟨⟨false, 1⟩, .exch, .b32, false, 54, 3, 56, false, 55, 64⟩),
    (0x8B0236033807803700000040, .vatom ⟨⟨true, 1⟩, .cas, .b32, false, 54, 3, 56, false, 55, 64⟩),
    (0x0B0236033888A00000000040, .vatom ⟨⟨false, 1⟩, .fadd, .f32, true, 54, 3, 56, false, 0, 64⟩),
    (0x0B0536003805203900000040, .vatoms ⟨⟨false, 1⟩, .max, .i32, false, 54, 56, false, 57, 64⟩),
    (0x33060702FA00000000000080, .tld ⟨⟨false, 6⟩, 7, 2, 250, false, 128⟩),
    (0xB3070702FA00000000000080, .tst ⟨⟨true, 6⟩, 7, 2, 250, false, 128⟩),
    (0x8B0800090400000000000005, .vprefL1 ⟨⟨true, 1⟩, 9, 4, false, 5⟩),
    (0x8B0800090001080000000005, .vprefLlc ⟨⟨true, 1⟩, 9, 0, true, 5⟩),
    (0x8309210E0000000000000000, .bset ⟨true, 14, 33⟩),
    (0x5B0A00000000000000000000, .phaseBlk ⟨false, 11⟩)] = true := by decide +kernel

theorem test_decode_memory_1 : decodesAll [
    (0x830A00000001000000000000, .phaseDie ⟨true, 0⟩),
    (0x960405000607000000000000, .claim ⟨⟨true, 2⟩, 5, 6, 7⟩),
    (0x26011B0C0000000030000000, .tcopy ⟨⟨false, 4⟩, 6, 27, 12⟩),
    (0xA60100000D00000128000000, .twait ⟨⟨true, 4⟩, 5, 13⟩),
    (0x26010000000000023800007F, .twaitImm ⟨⟨false, 4⟩, 7, 127⟩),
    (0x26013D000000000318000000, .tlrd ⟨⟨false, 4⟩, 3, 61⟩)] = true := by decide +kernel

theorem test_decode_tile_0 : decodesAll [
    (0x8500070000003C0000000000, .tcset ⟨true, 7, 60⟩),
    (0x750105000000000000000000, .tzero ⟨⟨false, 14⟩, 5⟩),
    (0x850204000114060000DE0002, .tmma ⟨⟨true, 0⟩, .e4m3, .e5m2, true, false, 4, 0, 1, 20, 6⟩),
    (0x0D020403001E000000BB0001, .tmma ⟨⟨false, 1⟩, .bf16, .bf16, false, true, 4, 3, 0, 30, 0⟩),
    (0x1502070605090A0B01ED0002, .tmmaSparse ⟨⟨false, 2⟩, .e5m2, .e4m3, true, 7, 6, 5, 9, 10, 11⟩),
    (0x9D030102000000000000E000, .tconv ⟨⟨true, 3⟩, .rd, true, 1, 2⟩),
    (0x1D04010200C83E0500000000, .tdraw ⟨⟨false, 3⟩, 1, 2, 200, 62, 5⟩),
    (0x1D05000400C900000000001F, .tmovTv ⟨⟨false, 3⟩, 201, 4, 31⟩),
    (0x9D0506CA0000000001000010, .tmovVt ⟨⟨true, 3⟩, 202, 6, 16⟩)] = true := by decide +kernel

theorem test_decode_expert_0 : decodesAll [
    (0x86020C000000FA0000000000, .xlook ⟨⟨true, 0⟩, 12, 250⟩),
    (0x8E020C000000FA0100000000, .xlookHold ⟨⟨true, 1⟩, 12, 250⟩),
    (0x1602000000000A0200000000, .xdrop ⟨⟨false, 2⟩, 10⟩),
    (0x9E021A000000180300000000, .xpark ⟨⟨true, 3⟩, 26, 24⟩),
    (0x06020000013E000400000000, .xfetch ⟨⟨false, 0⟩, 1, 62⟩),
    (0x06020300013E000500000000, .xpin ⟨⟨false, 0⟩, 3, 1, 62⟩),
    (0x860200000506000600000000, .xunpin ⟨⟨true, 0⟩, 5, 6⟩),
    (0x86023D000506000700000000, .xstat ⟨⟨true, 0⟩, 61, 5, 6⟩)] = true := by decide +kernel

theorem test_decode_queue_0 : decodesAll [
    (0x86000A040000000080000040, .qres ⟨⟨true, 0⟩, true, 10, 4, false, 0, 64⟩),
    (0x0E003E040900000000800000, .qres ⟨⟨false, 1⟩, false, 62, 4, true, 9, 0⟩),
    (0x86000701040010010040003F, .qput ⟨⟨true, 0⟩, 7, 1, 4, 16, 4, false, 0, 63⟩),
    (0x86000701042CFF0100B00000, .qput ⟨⟨true, 0⟩, 7, 1, 4, 255, 3, true, 44, 0⟩),
    (0x160003020000120280100000, .qpush ⟨⟨false, 2⟩, true, 3, 2, 18, 1⟩),
    (0x160003050000120300200000, .qget ⟨⟨false, 2⟩, false, 3, 5, 18, 2⟩),
    (0x960008050000130400000000, .qpeek ⟨⟨true, 2⟩, 8, 5, 19, 0⟩),
    (0x8600100B0000000500000000, .qcount ⟨⟨true, 0⟩, 16, 11⟩),
    (0x0600110C0000000640000000, .qsleep ⟨⟨false, 0⟩, true, 17, 12⟩),
    (0x9E00120D0000000700000000, .qwake ⟨⟨true, 3⟩, false, 18, 13⟩),
    (0x06000F012800000800000000, .qrel ⟨⟨false, 0⟩, 15, 1, 40⟩),
    (0x86000F010000000800000001, .qrelMrg ⟨⟨true, 0⟩, 15, 1⟩),
    (0x060000000000000900000000, .qfence ⟨false, 0⟩),
    (0x060000010900060A00800000, .qmerge ⟨⟨false, 0⟩, 1, 6, 0, true, 9, 0⟩),
    (0xA60000010000060A002000FF, .qmerge ⟨⟨true, 4⟩, 1, 6, 2, false, 0, 255⟩),
    (0x060008090000000B20000001, .qscatter ⟨⟨false, 0⟩, 4, 8, 9, true⟩),
    (0x060008000000000C00000010, .qcurrd ⟨⟨false, 0⟩, 8, 16⟩),
    (0x860000000900000D00000003, .qcurwr ⟨⟨true, 0⟩, 9, 3⟩)] = true := by decide +kernel

theorem test_decode_queue_privileged_0 : decodesAll [
    (0x86030A040000000080000040, .qsysRes ⟨⟨true, 0⟩, true, 10, 4, false, 0, 64⟩),
    (0x0E033E040900000000800000, .qsysRes ⟨⟨false, 1⟩, false, 62, 4, true, 9, 0⟩),
    (0x86030701040010010040003F, .qsysPut ⟨⟨true, 0⟩, 7, 1, 4, 16, 4, false, 0, 63⟩),
    (0x86030701042CFF0100B00000, .qsysPut ⟨⟨true, 0⟩, 7, 1, 4, 255, 3, true, 44, 0⟩),
    (0x160303020000120280100000, .qsysPush ⟨⟨false, 2⟩, true, 3, 2, 18, 1⟩),
    (0x160303050000120300200000, .qsysGet ⟨⟨false, 2⟩, false, 3, 5, 18, 2⟩),
    (0x960308050000130400000000, .qsysPeek ⟨⟨true, 2⟩, 8, 5, 19, 0⟩),
    (0x8603100B0000000500000000, .qsysCount ⟨⟨true, 0⟩, 16, 11⟩),
    (0x0603110C0000000640000000, .qsysSleep ⟨⟨false, 0⟩, true, 17, 12⟩),
    (0x9E03120D0000000700000000, .qsysWake ⟨⟨true, 3⟩, false, 18, 13⟩),
    (0x06030F012800000800000000, .qsysRel ⟨⟨false, 0⟩, 15, 1, 40, false⟩),
    (0x86030F010000000800000001, .qsysRel ⟨⟨true, 0⟩, 15, 1, 0, true⟩),
    (0x060300000000000900000000, .qsysFence ⟨false, 0⟩),
    (0x060300010900060A00800000, .qsysMerge ⟨⟨false, 0⟩, 1, 6, 0, true, 9, 0⟩),
    (0xA60300010000060A002000FF, .qsysMerge ⟨⟨true, 4⟩, 1, 6, 2, false, 0, 255⟩)] = true := by decide +kernel

/-! ### Terms that are refused, one for each check of WellFormed -/

/-- Every term of the list is ill formed, and the decoder refuses the word that its fields make. -/
def refusedAll (l : List Instr) : Bool := l.all fun i => !i.wf && ((encode i).bind fun w => (decode w).toOption).isNone

/-- R338: a type outside the form's set, and `.sat` with `.b32` (R375). -/
theorem test_ill_formed_types : refusedAll [
    .sadd ⟨false, .f32, 1, 2, 3⟩, .sdiv ⟨false, .b64, 1, 2, 3⟩, .sand ⟨false, .i32, 1, 2, 3⟩,
    .scmp ⟨false, .b64, .eq, 1, 2, 3⟩, .sofs ⟨false, .b64, 1, 2, 3⟩, .vadd ⟨⟨false, 0⟩, .b64, false, false, 1, 2, 3⟩,
    .vadd ⟨⟨false, 0⟩, .b32, true, false, 1, 2, 3⟩, .vmulh ⟨⟨false, 0⟩, .i32, true, false, 1, 2, 3⟩,
    .vmad ⟨⟨false, 0⟩, .b32, false, false, 1, 2, 3, 4⟩, .vdiv ⟨⟨false, 0⟩, .b32, false, false, 1, 2, 3⟩,
    .vand ⟨⟨false, 0⟩, .n32, false, false, 1, 2, 3⟩, .vshl ⟨⟨false, 0⟩, .f32, false, false, 1, 2, 3⟩,
    .vclz ⟨⟨false, 0⟩, .i32, false, false, 1, 2⟩, .vcmp ⟨⟨false, 0⟩, .f32, .eq, 1, 2, 3⟩,
    .vfcmp ⟨⟨false, 0⟩, .i32, .eq, 1, 2, 3⟩, .vfabs ⟨⟨false, 0⟩, .bf16, false, false, 1, 2⟩,
    .vcvt ⟨⟨false, 0⟩, .b32, .f32, .rn, false, false, 1, 2⟩, .vcvt ⟨⟨false, 0⟩, .f32, .f32, .rn, false, false, 1, 2⟩,
    .vscan ⟨⟨false, 0⟩, .f32, .rn, .and, false, false, 1, 2⟩, .vred ⟨⟨false, 0⟩, .b32, .rn, .add, false, 1, 2⟩,
    .vld ⟨⟨false, 0⟩, .b64, 1, 2, 3, false, 0⟩, .vatom ⟨⟨false, 0⟩, .add, .b32, false, 1, 2, 3, false, 4, 0⟩,
    .vatoms ⟨⟨false, 0⟩, .fadd, .i32, false, 1, 2, false, 3, 0⟩] = true := by decide +kernel

/-- R311 and R394: an immediate bit that the type leaves unused, and a shift beyond its limit. -/
theorem test_ill_formed_immediates : refusedAll [
    .saddImm ⟨false, .i8, 1, 2, 0x80⟩, .saddImm ⟨false, .i16, 1, 2, 0x8000⟩, .saddImm ⟨false, .n8, 1, 2, 0x100⟩,
    .saddImm ⟨false, .n16, 1, 2, 0x10000⟩, .sshlImm ⟨false, .b64, 1, 2, 64⟩,
    .vshrImm ⟨⟨false, 0⟩, .b32, false, false, 1, 2, 32⟩, .vmadImm ⟨⟨false, 0⟩, .n8, false, false, 1, 2, 3, 0x100⟩,
    .vtopk ⟨⟨false, 0⟩, .f32, 0, 1, 2, 3⟩, .vtopk ⟨⟨false, 0⟩, .f32, 33, 1, 2, 3⟩,
    .qres ⟨⟨false, 0⟩, false, 1, 2, false, 0, 65⟩, .qcurrd ⟨⟨false, 0⟩, 1, 17⟩, .qcurwr ⟨⟨false, 0⟩, 1, 31⟩]
      = true := by decide +kernel

/-- R356, R361 and R379: the unordered condition outside `vfcmp`, a register beside no condition, slots 5 to 7. -/
theorem test_ill_formed_control : refusedAll [
    .scmp ⟨false, .i32, .un, 1, 2, 3⟩, .vcmp ⟨⟨false, 0⟩, .i32, .un, 1, 2, 3⟩, .br ⟨false, some .un, 1, 0, 0⟩,
    .br ⟨false, none, 1, 0, 0⟩, .br ⟨false, none, 0, 0, 5⟩, .brmz ⟨false, 1, 0, 6⟩, .call ⟨false, 1, 0, 7⟩,
    .srd ⟨false, .core, 1, 1⟩, .srd ⟨false, .core, 0, 64⟩, .swr ⟨false, .core, 64⟩] = true := by decide +kernel

/-- R373 and R394: the last register of a pair does not exist. -/
theorem test_ill_formed_pairs : refusedAll [
    .vadd ⟨⟨false, 0⟩, .i32, false, true, 255, 2, 3⟩, .vsel ⟨⟨false, 0⟩, true, 1, 255, 3, 4⟩,
    .vfadd ⟨⟨false, 0⟩, .rn, false, true, 1, 2, 255⟩, .vffma ⟨⟨false, 0⟩, .rn, false, true, 1, 2, 3, 255⟩,
    .vtopk ⟨⟨false, 0⟩, .f32, 1, 255, 2, 3⟩, .vdraw ⟨⟨false, 0⟩, 1, 2, 63, 4⟩, .dmerge ⟨⟨false, 0⟩, 1, 2, 3, 63⟩,
    .tdraw ⟨⟨false, 0⟩, 1, 2, 3, 63, 4⟩, .xlook ⟨⟨false, 0⟩, 1, 255⟩, .xpark ⟨⟨false, 0⟩, 1, 251⟩,
    .xstat ⟨⟨false, 0⟩, 63, 1, 2⟩, .qres ⟨⟨false, 0⟩, false, 63, 2, false, 0, 1⟩] = true := by decide +kernel

/-- R254, R307, R342, R416 and R439: a rounding mode, an offset register, a compare register, a tile field or a queue
field that the form must leave zero. -/
theorem test_ill_formed_fields : refusedAll [
    .vfmin ⟨⟨false, 0⟩, .rz, false, false, 1, 2, 3⟩, .vfmax ⟨⟨false, 0⟩, .rn, true, false, 1, 2, 3⟩,
    .vscan ⟨⟨false, 0⟩, .i32, .ru, .add, false, false, 1, 2⟩, .vld ⟨⟨false, 0⟩, .i32, 1, 2, 3, true, 0⟩,
    .vatom ⟨⟨false, 0⟩, .cas, .b32, true, 1, 2, 3, false, 0, 0⟩, .vatom ⟨⟨false, 0⟩, .xor, .b32, true, 1, 2, 3, false, 4, 0⟩,
    .tmma ⟨⟨false, 0⟩, .e4m3, .bf16, false, false, 1, 2, 3, 4, 5⟩, .tmma ⟨⟨false, 0⟩, .i8, .i8, false, false, 1, 2, 3, 4, 0⟩,
    .tmma ⟨⟨false, 0⟩, .e4m3, .e4m3, false, true, 1, 2, 3, 4, 0⟩,
    .tmmaSparse ⟨⟨false, 0⟩, .e4m3, .i8, false, 1, 2, 3, 4, 5, 6⟩,
    .tmmaSparse ⟨⟨false, 0⟩, .e4m3, .e4m3, false, 1, 7, 3, 4, 5, 6⟩,
    .qput ⟨⟨false, 0⟩, 1, 2, 3, 4, 5, false, 0, 0⟩, .qput ⟨⟨false, 0⟩, 1, 2, 3, 255, 4, false, 0, 0⟩,
    .qput ⟨⟨false, 0⟩, 1, 2, 3, 4, 0, false, 1, 0⟩, .qres ⟨⟨false, 0⟩, false, 1, 2, true, 3, 4⟩,
    .qmerge ⟨⟨false, 0⟩, 1, 2, 0, false, 1, 0⟩, .qsysRel ⟨⟨false, 0⟩, 1, 2, 3, true⟩] = true := by decide +kernel

/-- R302, R338 and R348: words with an unassigned opcode, subop or type, or a reserved bit set, are refused. -/
theorem test_reserved_words : ([
    0x000900000000000000000000, 0x000000000000160000000000, 0x000001020300012F00000000, 0x000001020300012000000001,
    0x010100000000000000000000, 0x020100000000000000000000, 0x030B00000000000000000000, 0x040000000600000000000000,
    0x050600000000000000000000, 0x060500000000000000000000, 0x070200000000000000000000, 0x060000000000000E00000000,
    0x060300000000000B00000000] : List (BitVec 96)).all (fun w => (decode w).toOption.isNone) = true := by
  decide +kernel

/-! ### The spec's worked examples, run -/

/-- The issuing group with 32 vector registers and 32 scalar registers, an execution mask and values in its lanes. -/
def exampleGroup (em : W32) (vs : List (Nat × List W32)) (f : Slot → Slot := id) : State :=
  withGroup fun g => f { g with
    bind := { g.bind with sregs := 32, vreg16 := 2 }, em := em, m := [(1, 0xF)],
    v := vs.map fun p => (p.1, genVec fun l => p.2.getD l 100) }

/-- The first `n` lanes of a register of the issuing group after an instruction, and its floating-point flags. -/
def lanesAfter (n : Nat) (d : Nat) : Out → Option (List W32 × List W8)
  | .next t => some ((List.range n).map (lane (getVn t.grp d)), (List.range n).map fun l => (t.grp.fflags[l]?).getD 0)
  | _ => none

/-- The conversion example of chapter 16 (R382): 500, 0.3, a quiet NaN and −∞ to E4M3, saturated. -/
theorem test_vcvt_example : lanesAfter 5 20 (exec (.vcvt ⟨⟨false, 1⟩, .e4m3, .f32, .rn, true, false, 20, 21⟩)
    (exampleGroup 0xFFFFFFFF [(21, [0x43FA0000, 0x3E99999A, 0x7FC00000, 0xFF800000])])) =
      some ([0x7E, 0x2A, 0x7F, 0xFE, 0], [fOF ||| fNX, fNX, 0, fNV, 0]) := by decide +kernel

/-- A variable-latency result of the newest operation: the writes that its return makes. -/
def pendingLanes (n : Nat) (d : VReg) : Out → Option (List W32)
  | .next t => (t.grp.outst.getLast?.bind (·.res)).bind fun r =>
      (r.vw.find? fun w => w.reg == d).map fun w => (List.range n).map (lane w.val)
  | _ => none

/-- The reductions and scans of chapter 16 (R384, R386): the 28 inactive lanes read 0, or the identity. -/
theorem test_vred_example : pendingLanes 4 6 (exec (.vred ⟨⟨false, 0⟩, .i32, .rn, .max, false, 6, 5⟩)
    (exampleGroup 0xF [(5, [-5, -7, -2, -3])])) = some [0, 0, 0, 0] ∧
    pendingLanes 4 6 (exec (.vred ⟨⟨false, 0⟩, .i32, .rn, .max, true, 6, 5⟩)
    (exampleGroup 0xF [(5, [-5, -7, -2, -3])])) = some [-2, -2, -2, -2] := by decide +kernel

theorem test_vscan_example : pendingLanes 4 6 (exec (.vscan ⟨⟨false, 0⟩, .i32, .rn, .add, false, false, 6, 5⟩)
    (exampleGroup 0xF [(5, [-5, -7, -2, -3])])) = some [-5, -12, -14, -17] ∧
    pendingLanes 4 6 (exec (.vscan ⟨⟨false, 0⟩, .i32, .rn, .add, true, false, 6, 5⟩)
    (exampleGroup 0xF [(5, [-5, -7, -2, -3])])) = some [0, -5, -12, -14] := by decide +kernel

/-- Top-2 gating over eight experts (R388): ties go to the lower lane. -/
theorem test_vtopk_example :
    pendingLanes 2 9 (exec (.vtopk ⟨⟨true, 0⟩, .f32, 2, 8, 2, 3⟩) (exampleGroup 0xFF
      [(2, [0x3DCCCCCD, 0x3F333333, 0x3E99999A, 0x3F333333, 0xFF800000, 0x7FC00000, 0x3E4CCCCD, 0x3D4CCCCD]),
       (3, [0, 1, 2, 3, 4, 5, 6, 7])])) = some [1, 3] := by decide +kernel

/-- The call example of chapter 15 (R361): the link is the pc of the next slot. -/
theorem test_call_example : (match exec (.call ⟨false, 20, 7, 0⟩) (exampleGroup 0xFFFFFFFF [] fun g => { g with pc := 0x0000000200001042 }) with
    | .next t => some (getS t.grp 20, t.grp.pc)
    | _ => none) = some (0x0000000200001043, 0x0000000200001200) := by decide +kernel

/-- The special-function examples of chapter 11 (R268, R269): EX2 of −3.0625 and LG2 of 8. -/
theorem test_ex2_lg2_examples : ((ex2F 0xC0440000).bits, (ex2F 0xC0440000).fl) = (0x3DF5257D, fNX) ∧
    ((lg2F 0x41000000).bits, (lg2F 0x41000000).fl) = (0x40400000, 0) := by decide +kernel

/-- The accumulation examples of chapter 11 (R262): one rounding of c_old + u × P. -/
theorem test_accumulate_examples :
    ((accStep 0x3F000000 (fval fp32 0x3F800000) (.fin false 16777217 0, false)).bits,
     (accStep 0x3F000000 (fval fp32 0x3F800000) (.fin false 16777217 0, false)).fl) = (0x4B800001, fNX) ∧
    ((accStep 0x3F800000 (fval fp32 0x3C800000) (.fin false 8001 (-3), false)).bits,
     (accStep 0x3F800000 (fval fp32 0x3C800000) (.fin false 8001 (-3), false)).fl) = (0x41850400, 0) := by decide +kernel

/-- The leaves of chapter 11 (R273) for logits 1, 3, 2 and NaN at T = 0.5. -/
theorem test_leaf_example :
    (leaves 0x3F000000 [some (0, 0x3F800000), some (1, 0x40400000), some (2, 0x40000000), some (3, 0x7FC00000)]).map
      (fun d => (d.index, d.e, d.mass, d.count, d.invalid, d.zero)) =
    [(0, 2, 0x3F800000, 1, false, false), (1, 6, 0x3F800000, 1, false, false), (2, 4, 0x3F800000, 1, false, false),
     (noneIndex, 0, 0, 0, true, true)] := by decide +kernel

end Sys2Proof.Tests
end

/-! Proofs about the scalar arithmetic and logic instructions (R350 to R356): what a scalar form does once its
registers are allocated, the integer operations and the bit counts in the words of the obligations, and the two obligations. -/
namespace Sys2Proof.Machine

/-! ### What a scalar form does -/

/-- A form with two sources writes `r` when its function gives `r`. -/
theorem does_of_sForm {i : Instr} {s : State} {sw : Bool} {d a b : SReg} {f : W64 → W64 → W64} {r : W64}
    (hi : exec i s = sForm s sw d a b f) (hd : okS s.grp d = true) (ha : okS s.grp a = true) (hb : okS s.grp b = true)
    (hr : f (getS s.grp a) (getS s.grp b) = r) : Does i s (setS s.grp d r) sw :=
  does_of_retire (hr ▸ hi.trans (sForm_ok hd ha hb))

/-- A form with one source, and an immediate form, writes `r` when its function gives `r`. -/
theorem does_of_sForm1 {i : Instr} {s : State} {sw : Bool} {d a : SReg} {f : W64 → W64} {r : W64}
    (hi : exec i s = sForm1 s sw d a f) (hd : okS s.grp d = true) (ha : okS s.grp a = true)
    (hr : f (getS s.grp a) = r) : Does i s (setS s.grp d r) sw :=
  does_of_retire (hr ▸ hi.trans (sForm1_ok hd ha))

/-- Arithmetic on two registers writes the exact result, cut to its type and extended. -/
theorem does_of_sForm_sArith {i : Instr} {s : State} {sw : Bool} {t : Ty} {d a b : SReg} {op : Int → Int → Int} {r : Int}
    (hi : exec i s = sForm s sw d a b (sArith t op)) (hd : okS s.grp d = true) (ha : okS s.grp a = true)
    (hb : okS s.grp b = true) (hr : op (typed t (getS s.grp a)) (typed t (getS s.grp b)) = r) :
    Does i s (setS s.grp d (extended 64 t r)) sw :=
  does_of_sForm hi hd ha hb (by rw [sArith_eq, hr])

/-- Arithmetic on a register and a constant writes the exact result, cut to its type and extended. -/
theorem does_of_sForm1_sArith {i : Instr} {s : State} {sw : Bool} {t : Ty} {d a : SReg} {y : W64} {op : Int → Int → Int}
    {r : Int} (hi : exec i s = sForm1 s sw d a fun x => sArith t op x y) (hd : okS s.grp d = true)
    (ha : okS s.grp a = true) (hr : op (typed t (getS s.grp a)) (typed t y) = r) :
    Does i s (setS s.grp d (extended 64 t r)) sw :=
  does_of_sForm1 hi hd ha (by rw [sArith_eq, hr])

/-- A select among three registers. -/
theorem ssel_ok {s : State} {sw : Bool} {d a b c : SReg} (hd : okS s.grp d = true) (ha : okS s.grp a = true)
    (hb : okS s.grp b = true) (hc : okS s.grp c = true) : exec (.ssel ⟨sw, d, a, b, c⟩) s =
      .next (s.retire (setS s.grp d (if getS s.grp a ≠ 0 then getS s.grp b else getS s.grp c)) sw) := by
  rw [exec_ssel, execSsel, checked_ok (by simp only [hd, ha, hb, hc, Bool.and_self])]
  simp only [bne_iff_ne]

/-- A select between a register and the immediate. -/
theorem sselImm_ok {s : State} {sw : Bool} {d a b : SReg} {imm : W32} (hd : okS s.grp d = true)
    (ha : okS s.grp a = true) (hb : okS s.grp b = true) : exec (.sselImm ⟨sw, d, a, b, imm⟩) s =
      .next (s.retire (setS s.grp d (if getS s.grp a ≠ 0 then getS s.grp b else immS .b64 imm)) sw) := by
  rw [exec_sselImm, execSselImm, checked_ok (by simp only [hd, ha, hb, Bool.and_self])]
  simp only [bne_iff_ne]

/-! ### The integer operations -/

theorem mulHigh_eq (w : Nat) (x y : Int) : mulHigh w x y = x * y / 2 ^ w :=
  congrArg (x * y / ·) (Int.natCast_pow 2 w)

theorem minInt_eq_min (x y : Int) : minInt x y = min x y := (Int.min_def x y).symm

theorem maxInt_eq_max (x y : Int) : maxInt x y = max x y := (Int.max_def x y).symm

theorem cmpS_of_holds {t : Ty} {c : Cond} {a b : W64} (h : condHolds c (typed t a) (typed t b)) : cmpS t c a b = 1 := by
  rw [cmpS, tyVal_eq_typed, tyVal_eq_typed, if_pos ((condInt_iff ..).2 h)]

theorem cmpS_of_not_holds {t : Ty} {c : Cond} {a b : W64} (h : ¬ condHolds c (typed t a) (typed t b)) :
    cmpS t c a b = 0 := by
  rw [cmpS, tyVal_eq_typed, tyVal_eq_typed, if_neg (mt (condInt_iff ..).1 h)]

/-- The offset of `sofs` wraps within 44 bits (R354). -/
theorem offsetAdd_eq (t : Ty) (a b : W64) :
    offsetAdd t a b = a.extractLsb' 44 20 ++ (a.setWidth 44 + BitVec.ofInt 44 (typed t b)) := by
  have offset : BitVec.ofInt 44 ((a.toNat % 2 ^ 44 : Nat) : Int) = a.setWidth 44 := by
    rw [BitVec.ofInt_natCast]
    exact BitVec.eq_of_toNat_eq (by simp only [BitVec.toNat_ofNat, BitVec.toNat_setWidth, Nat.mod_mod])
  rw [offsetAdd, tyVal_eq_typed, BitVec.ofInt_add, offset]

/-! ### Bit counts -/

theorem clzN_le (w n : Nat) : clzN w n ≤ w := by
  have sub := (List.takeWhile_sublist (l := List.range w) fun i => !n.testBit (w - 1 - i)).length_le
  rwa [List.length_range] at sub

/-- The count of leading zeros is the place of the first one bit, from the top. -/
theorem clzN_eq_findIdx (w n : Nat) : clzN w n = (List.range w).findIdx fun i => n.testBit (w - 1 - i) := by
  have inside := List.findIdx_le_length (xs := List.range w) (p := fun i => n.testBit (w - 1 - i))
  simp only [clzN, List.takeWhile_eq_take_findIdx_not, Bool.not_not, List.length_take, Nat.min_eq_left inside]

/-- The bits above the first one bit are zero. -/
theorem testBit_of_sub_clzN_le {w n i : Nat} (hi : w - clzN w n ≤ i) (hw : i < w) : n.testBit i = false := by
  have early : w - 1 - i < (List.range w).findIdx fun j => n.testBit (w - 1 - j) := by
    rw [← clzN_eq_findIdx]
    omega
  have zero := List.not_of_lt_findIdx early
  rwa [List.getElem_range, show w - 1 - (w - 1 - i) = i by omega] at zero

/-- The bit after the leading zeros is one. -/
theorem testBit_sub_clzN {w n : Nat} (h : clzN w n < w) : n.testBit (w - 1 - clzN w n) = true := by
  rw [clzN_eq_findIdx] at h ⊢
  have one := List.findIdx_getElem (xs := List.range w) (p := fun i => n.testBit (w - 1 - i))
    (w := by rwa [List.length_range])
  rwa [List.getElem_range] at one

/-! ### The obligations -/

/-- Settles O1: the register forms and the immediate forms share their operations, and differ only in where the second
operand comes from. -/
theorem scalarArithmetic : Obligations.ScalarArithmetic := by
  unfold Obligations.ScalarArithmetic
  intro s sw ty d a b imm hd ha
  refine ⟨fun hb => ⟨?_, ?_, ?_, ?_, ?_, ?_, ?_, ?_, fun c => ⟨fun hc => ?_, fun hc => ?_⟩⟩,
    ?_, ?_, ?_, ?_, ?_, ?_, ?_, ?_, fun c => ⟨fun hc => ?_, fun hc => ?_⟩⟩
  · exact does_of_sForm_sArith (exec_sadd ..) hd ha hb rfl
  · exact does_of_sForm_sArith (exec_ssub ..) hd ha hb rfl
  · exact does_of_sForm_sArith (exec_smul ..) hd ha hb rfl
  · exact does_of_sForm_sArith (exec_smulh ..) hd ha hb (mulHigh_eq ..)
  · exact does_of_sForm_sArith (exec_sdiv ..) hd ha hb rfl
  · exact does_of_sForm_sArith (exec_srem ..) hd ha hb rfl
  · exact does_of_sForm_sArith (exec_smin ..) hd ha hb (minInt_eq_min ..)
  · exact does_of_sForm_sArith (exec_smax ..) hd ha hb (maxInt_eq_max ..)
  · exact does_of_sForm (exec_scmp ..) hd ha hb (cmpS_of_holds hc)
  · exact does_of_sForm (exec_scmp ..) hd ha hb (cmpS_of_not_holds hc)
  · exact does_of_sForm1_sArith (exec_saddImm ..) hd ha rfl
  · exact does_of_sForm1_sArith (exec_ssubImm ..) hd ha rfl
  · exact does_of_sForm1_sArith (exec_smulImm ..) hd ha rfl
  · exact does_of_sForm1_sArith (exec_smulhImm ..) hd ha (mulHigh_eq ..)
  · exact does_of_sForm1_sArith (exec_sdivImm ..) hd ha rfl
  · exact does_of_sForm1_sArith (exec_sremImm ..) hd ha rfl
  · exact does_of_sForm1_sArith (exec_sminImm ..) hd ha (minInt_eq_min ..)
  · exact does_of_sForm1_sArith (exec_smaxImm ..) hd ha (maxInt_eq_max ..)
  · exact does_of_sForm1 (exec_scmpImm ..) hd ha (cmpS_of_holds hc)
  · exact does_of_sForm1 (exec_scmpImm ..) hd ha (cmpS_of_not_holds hc)

/-- Settles O2: each form writes what its function gives; the counts are said by `clzN` and the offset add by
`offsetAdd_eq`. -/
theorem scalarLogic : Obligations.ScalarLogic := by
  unfold Obligations.ScalarLogic
  intro s sw ty d a b c imm imm64 hd
  refine ⟨does_of_retire (checked_ok hd), fun ha => ⟨?_, ⟨clzN 64 (getS s.grp a).toNat, clzN_le .., ?_, ?_, ?_⟩, ?_,
    ⟨?_, ?_, ?_, ?_, ?_, ?_, ?_, ?_⟩, fun hb => ⟨?_, ?_, ?_, ?_, ?_, ?_, ?_, ?_, ?_, fun hc => ?_⟩⟩⟩
  · exact does_of_sForm1 (exec_smov ..) hd ha rfl
  · exact fun i hi h64 => testBit_of_sub_clzN_le hi h64
  · exact testBit_sub_clzN
  · exact does_of_sForm1 (exec_sclz ..) hd ha rfl
  · exact does_of_sForm1 (exec_spopc ..) hd ha rfl
  · exact does_of_sForm1 (exec_sandImm ..) hd ha rfl
  · exact does_of_sForm1 (exec_sorImm ..) hd ha rfl
  · exact does_of_sForm1 (exec_sxorImm ..) hd ha rfl
  · exact does_of_sForm1 (exec_sshlImm ..) hd ha rfl
  · exact does_of_sForm1 (exec_sshrImm ..) hd ha rfl
  · exact does_of_sForm1 (exec_ssraImm ..) hd ha rfl
  · exact does_of_sForm1 (exec_srotlImm ..) hd ha rfl
  · exact does_of_sForm1 (exec_sofsImm ..) hd ha (offsetAdd_eq ..)
  · exact does_of_sForm (exec_sand ..) hd ha hb rfl
  · exact does_of_sForm (exec_sor ..) hd ha hb rfl
  · exact does_of_sForm (exec_sxor ..) hd ha hb rfl
  · exact does_of_sForm (exec_sshl ..) hd ha hb rfl
  · exact does_of_sForm (exec_sshr ..) hd ha hb rfl
  · exact does_of_sForm (exec_ssra ..) hd ha hb rfl
  · exact does_of_sForm (exec_srotl ..) hd ha hb rfl
  · exact does_of_sForm (exec_sofs ..) hd ha hb (offsetAdd_eq ..)
  · exact does_of_retire (sselImm_ok hd ha hb)
  · exact does_of_retire (ssel_ok hd ha hb hc)

end Sys2Proof.Machine

/-! Proofs about the vector integer arithmetic instructions (R372 to R377): the lane operations in the words of the
obligations, what a vector form does once its registers are allocated, and the obligation. -/
namespace Sys2Proof.Machine

/-! ### The integer operations of a lane -/

theorem tyMin_le_tyMax (t : Ty) : tyMin t ≤ tyMax t := by
  cases t <;> decide

/-- The model clamps from above first and the check of R375 is said from below first; a result is on one side only. -/
theorem intLane_eq_checkedLane (t : Ty) (sat : Bool) (r : Int) : intLane t sat r = checkedLane t sat r := by
  have ordered := tyMin_le_tyMax t
  simp only [intLane, checkedLane, clampTy, tyV_eq]
  by_cases above : tyMax t < r
  · have notBelow : ¬ r < tyMin t := by omega
    simp [above, notBelow]
  · by_cases below : r < tyMin t <;> simp [above, below]

/-- A two-operand operation passes its exact result through the single check. -/
theorem intOp_eq (t : Ty) (sat : Bool) (op : Int → Int → Int) (a b : W32) :
    intOp t sat op a b = checkedLane t sat (op (typed t a) (typed t b)) := by
  rw [intOp, intLane_eq_checkedLane, tyVal_eq_typed, tyVal_eq_typed]

theorem intOp_minInt_eq (t : Ty) (sat : Bool) (a b : W32) :
    intOp t sat minInt a b = checkedLane t sat (min (typed t a) (typed t b)) := by
  rw [intOp_eq, minInt_eq_min]

theorem intOp_maxInt_eq (t : Ty) (sat : Bool) (a b : W32) :
    intOp t sat maxInt a b = checkedLane t sat (max (typed t a) (typed t b)) := by
  rw [intOp_eq, maxInt_eq_max]

theorem vmulhLane_eq (t : Ty) (a b : W32) :
    vmulhLane t a b = ⟨extended 32 t (typed t a * typed t b / 2 ^ tyWidth t), 0, 0⟩ := by
  rw [vmulhLane, plain, tyV_eq, mulHigh_eq, tyVal_eq_typed, tyVal_eq_typed]

theorem vmadLane_eq (t : Ty) (sat : Bool) (a b c : W32) :
    vmadLane t sat a b c = checkedLane t sat (typed t a * typed t b + typed t c) := by
  rw [vmadLane, intLane_eq_checkedLane, tyVal_eq_typed, tyVal_eq_typed, tyVal_eq_typed]

theorem vabsLane_eq (t : Ty) (sat : Bool) (a : W32) :
    vabsLane t sat a = checkedLane t sat ((typed t a).natAbs : Int) := by
  rw [vabsLane, intLane_eq_checkedLane, tyVal_eq_typed]

theorem vnegLane_eq (t : Ty) (sat : Bool) (a : W32) : vnegLane t sat a = checkedLane t sat (-typed t a) := by
  rw [vnegLane, intLane_eq_checkedLane, tyVal_eq_typed]

/-- A quotient by zero is all ones and raises DZ alone; any other passes the single check (R377). -/
theorem vdivLane_eq (t : Ty) (a b : W32) : vdivLane t a b =
    if typed t b = 0 then ⟨extended 32 t (-1), 0, iDZ⟩ else checkedLane t false ((typed t a).tdiv (typed t b)) := by
  simp only [vdivLane, divInt, tyVal_eq_typed]
  split
  · rw [intLane, if_neg Bool.false_ne_true, tyV_eq]
  · exact intLane_eq_checkedLane ..

/-- A remainder by zero is the dividend and raises DZ; any other raises nothing (R377). -/
theorem vremLane_eq (t : Ty) (a b : W32) : vremLane t a b =
    if typed t b = 0 then ⟨extended 32 t (typed t a), 0, iDZ⟩
    else ⟨extended 32 t ((typed t a).tmod (typed t b)), 0, 0⟩ := by
  simp only [vremLane, remInt, tyVal_eq_typed, tyV_eq]
  split <;> rfl

/-! ### What a vector form does

The lane results `F` are those of an obligation, and `hF` says that the form's function gives them from the sources as they
are read at issue. -/

section
variable {i : Instr} {s : State} {h : Hdr} {x2 : Bool} {d a b c : VReg} {imm : W32} {F : Nat → Nat → LaneRes}

theorem vectorDoes_of_vUn {f : W32 → LaneRes} (hi : exec i s = vUn s h x2 d a f) (hd : okVx s.grp x2 d = true)
    (ha : okVx s.grp x2 a = true) (hF : ∀ k l, f (lane (srcV s.grp k a) l) = F k l) : VectorDoes i s h x2 d F := by
  obtain rfl : (fun k l => f (lane (srcV s.grp k a) l)) = F := funext fun k => funext (hF k)
  exact vForm_does hi ha hd

/-- With its immediate fixed (R374), the form is one of one source. -/
theorem vectorDoes_of_vImm {f : W32 → W32 → LaneRes} (hi : exec i s = vImm s h x2 d a imm f)
    (hd : okVx s.grp x2 d = true) (ha : okVx s.grp x2 a = true)
    (hF : ∀ k l, f (lane (srcV s.grp k a) l) imm = F k l) : VectorDoes i s h x2 d F :=
  vectorDoes_of_vUn (f := (f · imm)) hi hd ha hF

theorem vectorDoes_of_vBin {f : W32 → W32 → LaneRes} (hi : exec i s = vBin s h x2 d a b f)
    (hd : okVx s.grp x2 d = true) (ha : okVx s.grp x2 a = true) (hb : okVx s.grp x2 b = true)
    (hF : ∀ k l, f (lane (srcV s.grp k a) l) (lane (srcV s.grp k b) l) = F k l) : VectorDoes i s h x2 d F := by
  obtain rfl : (fun k l => f (lane (srcV s.grp k a) l) (lane (srcV s.grp k b) l)) = F := funext fun k => funext (hF k)
  exact vForm_does hi (by rw [ha, hb, Bool.and_self]) hd

/-- With its immediate fixed (R374), the form is one of two sources. -/
theorem vectorDoes_of_vTernImm {f : W32 → W32 → W32 → LaneRes} (hi : exec i s = vTernImm s h x2 d a b imm f)
    (hd : okVx s.grp x2 d = true) (ha : okVx s.grp x2 a = true) (hb : okVx s.grp x2 b = true)
    (hF : ∀ k l, f (lane (srcV s.grp k a) l) (lane (srcV s.grp k b) l) imm = F k l) : VectorDoes i s h x2 d F :=
  vectorDoes_of_vBin (f := (f · · imm)) hi hd ha hb hF

theorem vectorDoes_of_vTern {f : W32 → W32 → W32 → LaneRes} (hi : exec i s = vTern s h x2 d a b c f)
    (hd : okVx s.grp x2 d = true) (ha : okVx s.grp x2 a = true) (hb : okVx s.grp x2 b = true)
    (hc : okVx s.grp x2 c = true)
    (hF : ∀ k l, f (lane (srcV s.grp k a) l) (lane (srcV s.grp k b) l) (lane (srcV s.grp k c) l) = F k l) :
    VectorDoes i s h x2 d F := by
  obtain rfl : (fun k l => f (lane (srcV s.grp k a) l) (lane (srcV s.grp k b) l) (lane (srcV s.grp k c) l)) = F :=
    funext fun k => funext (hF k)
  exact vForm_does hi (by rw [ha, hb, hc, Bool.and_self, Bool.and_self]) hd

end

/-! ### The obligation -/

/-- Settles O8: each form reads its sources lane by lane at issue, so its results are those of its lane operation. -/
theorem vectorArithmetic : Obligations.VectorArithmetic := by
  unfold Obligations.VectorArithmetic
  intro s h ty sat x2 d a b c imm hd ha
  refine ⟨?_, ?_, ?_, ?_, ?_, ?_, ?_, ?_, ?_, ?_, fun hb => ⟨?_, ?_, ?_, ?_, ?_, ?_, ?_, ?_, ?_, fun hc => ?_⟩⟩
  · exact vectorDoes_of_vImm (exec_vaddImm ..) hd ha fun _ _ => intOp_eq ..
  · exact vectorDoes_of_vImm (exec_vsubImm ..) hd ha fun _ _ => intOp_eq ..
  · exact vectorDoes_of_vImm (exec_vmulImm ..) hd ha fun _ _ => intOp_eq ..
  · exact vectorDoes_of_vImm (exec_vmulhImm ..) hd ha fun _ _ => vmulhLane_eq ..
  · exact vectorDoes_of_vImm (exec_vdivImm ..) hd ha fun _ _ => vdivLane_eq ..
  · exact vectorDoes_of_vImm (exec_vremImm ..) hd ha fun _ _ => vremLane_eq ..
  · exact vectorDoes_of_vImm (exec_vminImm ..) hd ha fun _ _ => intOp_minInt_eq ..
  · exact vectorDoes_of_vImm (exec_vmaxImm ..) hd ha fun _ _ => intOp_maxInt_eq ..
  · exact vectorDoes_of_vUn (exec_vabs ..) hd ha fun _ _ => vabsLane_eq ..
  · exact vectorDoes_of_vUn (exec_vneg ..) hd ha fun _ _ => vnegLane_eq ..
  · exact vectorDoes_of_vBin (exec_vadd ..) hd ha hb fun _ _ => intOp_eq ..
  · exact vectorDoes_of_vBin (exec_vsub ..) hd ha hb fun _ _ => intOp_eq ..
  · exact vectorDoes_of_vBin (exec_vmul ..) hd ha hb fun _ _ => intOp_eq ..
  · exact vectorDoes_of_vBin (exec_vmulh ..) hd ha hb fun _ _ => vmulhLane_eq ..
  · exact vectorDoes_of_vBin (exec_vdiv ..) hd ha hb fun _ _ => vdivLane_eq ..
  · exact vectorDoes_of_vBin (exec_vrem ..) hd ha hb fun _ _ => vremLane_eq ..
  · exact vectorDoes_of_vBin (exec_vmin ..) hd ha hb fun _ _ => intOp_minInt_eq ..
  · exact vectorDoes_of_vBin (exec_vmax ..) hd ha hb fun _ _ => intOp_maxInt_eq ..
  · exact vectorDoes_of_vTernImm (exec_vmadImm ..) hd ha hb fun _ _ => vmadLane_eq ..
  · exact vectorDoes_of_vTern (exec_vmad ..) hd ha hb hc fun _ _ => vmadLane_eq ..

end Sys2Proof.Machine
